-- ==== Sys2Proof/Word.lean ====
section
/-! DEFINITION. The word types of the Ifeak: what the manual treats as bits. Cell keys and counts are plain numbers. -/

namespace Sys2Proof

abbrev Byte := BitVec 8
abbrev Word32 := BitVec 32
abbrev Word64 := BitVec 64

end Sys2Proof
end

