-- ==== Sys2Proof/Syntax.lean ====
section
/-! DEFINITION. The commands of the block, one constructor per row of spec/opcode_table.json, and the types of their
operands. Units and lanes are bounded by their types, so most operands cannot be ill formed. -/

namespace Sys2Proof

/-- A chain: partition, engine number of R121 (0x00 to 0x21) and chain number. -/
structure ChainId where
  p : Fin 4
  e : Fin 34
  c : Fin 4
  deriving DecidableEq, Repr

/-- The fields of a vector instruction (R153) beside VOP, which the row itself names. -/
structure VOperands where
  vd : Fin 32
  va : Fin 32
  vb : Fin 32
  vc : Fin 32
  vmask : Fin 8
  maskEn : Bool
  vfmt : Fin 16
  vscale : BitVec 8
  pd : Fin 4
  ps : Fin 4
  vstride : BitVec 16
  vaddr : BitVec 23
  deriving DecidableEq, Repr

/-- A waiting point, by the fields of its identifier (R208). -/
structure Waiter where
  kind : Fin 16
  unit : Fin 128
  sub : Fin 8
  p : Fin 4
  deriving DecidableEq, Repr

/-- The two units of a bench that ramp (R90, R96). -/
inductive ActUnit where
  | faces | vector
  deriving DecidableEq, Repr

/-- How a bench's proof block ended (R429 to R431). -/
inductive ProofResult where
  | pass
  | fail (subblock : Byte) (face : Fin 4) (element : BitVec 16) (expected found : Word64)
  | inconclusive (addr : BitVec 44)
  deriving DecidableEq, Repr

/-- A fabric packet: the 32-byte header (R290) and the payload bytes. -/
structure Packet where
  hdr : BitVec 256
  payload : List Byte
  deriving DecidableEq, Repr

/-- How a frame came through (R277, R283): its CRC and codewords are good, its CRC fails, or a codeword of a lane cannot be
corrected. -/
inductive FrameState where
  | good
  | crc
  | codeword (fibre : Fin 3) (lambda : Fin 4)
  deriving DecidableEq, Repr

/-- A packet as it comes off the link (R277, R283): the sequence number of its first frame, how that came through, and the codewords
that were corrected. -/
structure Incoming where
  pkt : Packet
  seq : BitVec 12
  state : FrameState
  corrected : BitVec 16
  deriving DecidableEq, Repr

/-- What a receiver declares failed (R278): one lane of a fibre, or a whole fibre. -/
inductive LaneFault where
  | lane (fibre : Fin 3) (lambda : Fin 4)
  | fibre (fibre : Fin 3)
  deriving DecidableEq, Repr

/-- A 64-byte line of a stack by its place (R230, R231): an access of a position. -/
structure MemLine where
  s : Fin 12
  k : Fin 64
  pos : BitVec 22
  acc : Fin 4
  deriving DecidableEq, Repr

/-- What an access meets beside its data (R246, R247): parity errors of the interface, an error the inner code corrects, or
symbols of the outer codeword in error: 2n and 2n + 1 the two symbols of data pin n, 64 to 67 the check symbols. -/
inductive MemEvent where
  | clean
  | parity (retries : Fin 5)
  | parityExhausted
  | innerCorrected
  | symbols (bad : List (Fin 68))
  deriving DecidableEq, Repr

/-- On whose behalf an access is made. -/
inductive Requester where
  | sequencer (k : ChainId) (u : Fin 96)
  | haul (h : Fin 16) (ch : Fin 8) (readback : Bool)
  | exchange (p : Fin 4)
  | bed (p : Fin 4)
  | fabric (port : Fin 16)
  | host
  deriving DecidableEq, Repr

/-- Where an access goes: a working offset through the interleave (R235) or a line by its place. -/
inductive MemTarget where
  | working (off : BitVec 44)
  | place (l : MemLine)
  deriving DecidableEq, Repr

/-- A 64-byte access: a read, or a write of the bytes enabled. -/
structure MemAccess where
  target : MemTarget
  req : Requester
  wr : Option (BitVec 512 × BitVec 64 × Bool)
  deriving DecidableEq, Repr

/-- The result of a traffic-generator run on one pseudo-channel (R272). -/
structure TgResult where
  k : Fin 64
  errors : Word64
  failPos : BitVec 22
  failAcc : Fin 4
  failPins : Word32
  accesses : Word64
  retries : Word32
  elapsed : Word32
  deriving DecidableEq, Repr

/-- A Clelliul client (R468): IPv6 source address and UDP source port. -/
structure Client where
  addr : BitVec 128
  port : BitVec 16
  deriving DecidableEq, Repr

/-- The path a dictionary request comes by (R455): a Clelliul datagram with the fields of its header that the row does not
give (R466; `short` says it is shorter than 16 + LENGTH bytes), or the BAR0 mailbox (R476). -/
inductive Origin where
  | clelliul (c : Client) (magic : Byte) (version kind : BitVec 4) (seq : BitVec 16) (short : Bool)
  | mailbox
  deriving DecidableEq, Repr

/-- A host access through BAR2 (R480). -/
inductive Bar2Op where
  | read (bytes : BitVec 13)
  | write (data : List Byte)
  deriving DecidableEq, Repr

/-- The commands: one constructor per row of the table of operations and events. -/
inductive Instr where
  /-- SEGMENT (R133): A chain reads a SEGMENT word, checks it and arms the segment's gauge; on a lift a due PROOF segment also starts the proof block. -/
  | segment (k : ChainId) (u : Fin 96)
  /-- LINK (R135): A chain reaches a LINK word and follows, polls or halts by NEXT_VALID and HALT. -/
  | link (k : ChainId) (u : Fin 96)
  /-- LINK_POLL (R135): POLL_INTERVAL expires for a POLLING chain, which re-reads its link word and proceeds if NEXT_VALID is 1. -/
  | linkPoll (k : ChainId) (u : Fin 96)
  /-- NOP (R131): The sequencer executes a NOP, performing only its header wait and header signal. -/
  | nop (k : ChainId) (u : Fin 96)
  /-- WAIT (R148): The sequencer executes a WAIT command, posting a consuming or observing wait on a tally. -/
  | wait (k : ChainId) (u : Fin 96)
  /-- SIGNAL (R148): The sequencer executes a SIGNAL command, adding COUNT to a local tally or sending it to another module's tally. -/
  | signal (k : ChainId) (u : Fin 96)
  /-- SELECT (R149): The sequencer reads a decision word and executes or skips the guarded command words, extending the deadline on a re-run. -/
  | select (k : ChainId) (u : Fin 96)
  /-- MATMUL (R150): A bench runs a matrix command through passes, promotion, conveyor, epilogue and output conversion. -/
  | matmul (k : ChainId) (u : Fin 96)
  /-- VECTOR (R152): A bench's vector unit runs a program of vector instructions REPEAT_M1 + 1 times. -/
  | vector (k : ChainId) (u : Fin 96)
  /-- HAUL (R166): A haul channel moves the byte stream described by its descriptor, packing, transposing and guarding it. -/
  | haul (k : ChainId) (u : Fin 96)
  /-- XCHG_HOPPER (R328): The exchange engine screens a closed hopper, sends shard contributions and sums its own shard in rank order. -/
  | xchgHopper (k : ChainId) (u : Fin 96)
  /-- XCHG_VOTE (R157): The exchange engine takes up a vote command for a step and waits to send the vote and receive the outcome. -/
  | xchgVote (k : ChainId) (u : Fin 96)
  /-- BED_SNAPSHOT (R236): The copy units copy the listed regions into the reserve bed, or into overflow memory, and compute the state digest. -/
  | bedSnapshot (k : ChainId) (u : Fin 96)
  /-- BED_RESTORE (R377): The copy units copy bed images of the listed regions back into working state in-stack. -/
  | bedRestore (k : ChainId) (u : Fin 96)
  /-- BED_STREAM (R377): The bed engine sends the bed images of the listed regions to DEST_CHIP and then writes a STREAM digest record. -/
  | bedStream (k : ChainId) (u : Fin 96)
  /-- VOP_NOP (R154): Vector instruction that does nothing. -/
  | vopNop (b : Fin 96) (o : VOperands)
  /-- LD (R555): Vector load of 4 KiB from bench store into a register, masked lanes kept. -/
  | ld (b : Fin 96) (o : VOperands)
  /-- ST (R555): Vector store of a register to bench store, writing only active lanes. -/
  | st (b : Fin 96) (o : VOperands)
  /-- BCAST (R154): Vector broadcast of one bench-store element to every element of a register. -/
  | bcast (b : Fin 96) (o : VOperands)
  /-- ADD (R70): Vector addition with one RNE. -/
  | add (b : Fin 96) (o : VOperands)
  /-- SUB (R70): Vector subtraction with one RNE. -/
  | sub (b : Fin 96) (o : VOperands)
  /-- MUL (R70): Vector multiplication with one RNE. -/
  | mul (b : Fin 96) (o : VOperands)
  /-- FMA (R70): Vector fused multiply-add rounded once. -/
  | fma (b : Fin 96) (o : VOperands)
  /-- DIV (R70): Vector division with one RNE. -/
  | div (b : Fin 96) (o : VOperands)
  /-- SQRT (R70): Vector square root with one RNE. -/
  | sqrt (b : Fin 96) (o : VOperands)
  /-- MIN (R72): Vector IEEE minimum. -/
  | min (b : Fin 96) (o : VOperands)
  /-- MAX (R72): Vector IEEE maximum. -/
  | max (b : Fin 96) (o : VOperands)
  /-- EXP2 (R72): Vector correctly rounded exp2. -/
  | exp2 (b : Fin 96) (o : VOperands)
  /-- LOG2 (R72): Vector correctly rounded log2. -/
  | log2 (b : Fin 96) (o : VOperands)
  /-- RSQRT (R72): Vector correctly rounded reciprocal square root. -/
  | rsqrt (b : Fin 96) (o : VOperands)
  /-- CVT (R72): Vector conversion of a source part to a destination part and format with power-of-two scaling. -/
  | cvt (b : Fin 96) (o : VOperands)
  /-- MERGE (R555): Vector selection between two registers by a mask register. -/
  | merge (b : Fin 96) (o : VOperands)
  /-- JOIN (R154): Vector join of two 16-bit halves into 32-bit lanes as bits. -/
  | join (b : Fin 96) (o : VOperands)
  /-- SPLIT (R555): Vector split of 32-bit lanes into high and low 16-bit halves. -/
  | split (b : Fin 96) (o : VOperands)
  /-- CMP_LT (R555): Vector less-than comparison into a mask register. -/
  | cmpLt (b : Fin 96) (o : VOperands)
  /-- CMP_EQ (R555): Vector equality comparison into a mask register. -/
  | cmpEq (b : Fin 96) (o : VOperands)
  /-- NONFINITE (R555): Vector test for NaN or infinity into a mask register. -/
  | nonfinite (b : Fin 96) (o : VOperands)
  /-- RED_ADD (R73): Vector reduction of a register by a fixed binary tree into element 0. -/
  | redAdd (b : Fin 96) (o : VOperands)
  /-- TILE_DRAINED (R97): The drain finishes a tile: epilogue, conversion, element writes, tile status word, range check, grader report and header signal. -/
  | tileDrained (b : Fin 96) (slot : Fin 8)
  /-- GRADER_REPORT (R349): A grader adds a tile report and, at EXPECT_TILES, decides, writes its record and decision words and signals the release tally. -/
  | graderReport (p : Fin 4) (g : Fin 64)
  /-- CONVEYOR_SEGMENT (R102): A conveyor segment arrives at a bench inbox and is checked, dropped if stale, or held toward the running sum. -/
  | conveyorSegment (b : Fin 96)
  /-- CONVEYOR_CREDIT (R104): A returned inbox credit reaches the sender, which may start its next tile. -/
  | conveyorCredit (b : Fin 96) (face : Fin 4)
  /-- RAMP_DOWN (R93): After 256 consecutive FILL cycles with no matrix command at the head, a bench enters RAMP_DOWN. -/
  | rampDown (b : Fin 96) (unit : ActUnit)
  /-- RAMP_STEP (R94): Every 32 cycles in a ramp the activity level moves one step, ending in RESTING or FILL. -/
  | rampStep (b : Fin 96) (unit : ActUnit)
  /-- HAUL_COMPLETE (R175): A channel's read-back returns and it writes its completion record and reports completion. -/
  | haulComplete (h : Fin 16) (ch : Fin 8)
  /-- BED_COMPLETE (R375): A bed command completes: BED_STEP and STATE_DIGEST are set, a STATE record may be sent and a due checkpoint starts. -/
  | bedComplete (p : Fin 4)
  /-- PROOF_BLOCK (R429): A bench finishes its proof block and passes, fails or is inconclusive. -/
  | proofBlock (b : Fin 96) (r : ProofResult)
  /-- TALLY_SIGNAL (R203): A signal reaches a tally's home, is added to COUNT and the home releases observers and grants consuming waiters. -/
  | tallySignal (n : Nat)
  /-- WAIT_POST (R202): A waiting point posts its wait at a tally's home, where it is evaluated at once. -/
  | waitPost (w : Waiter)
  /-- WAIT_RELEASE (R127): A released waiting point sees its latch and starts the command that carried the wait. -/
  | waitRelease (w : Waiter)
  /-- TALLY_TIMEOUT (R206): A wait's timeout expires; its withdrawal, if it takes effect, faults the chain and writes a record. -/
  | tallyTimeout (w : Waiter)
  /-- ARRIVE (R219): The barrier agent's grant is taken and, once earlier collective data is acknowledged, it sends an ARRIVE with the payload. -/
  | arrive (p : Fin 4) (slot : Fin 64)
  /-- RELEASE (R222): A RELEASE packet arrives; the agent writes the release record, signals the release tally and the outcome of a vote slot is derived. -/
  | release (port : Fin 16) (x : Incoming)
  /-- VOTE (R357): XCHG_VOTE sends the module's vote word once the causes are known, a cause holds or its deadline passes. -/
  | vote (p : Fin 4)
  /-- EXCHANGE (R338): An EXCHANGE packet arrives and is stored, refused NOT_READY or MALFORMED, or completes a contribution or sum set. -/
  | exchange (port : Fin 16) (x : Incoming)
  /-- EXCHANGE_RETRY (R339): 2 µs after a NOT_READY answer the sender sends the EXCHANGE packet again. -/
  | exchangeRetry (tag : BitVec 16)
  /-- EXCHANGE_ACK (R294): The response to an EXCHANGE arrives at its sender. -/
  | exchangeAck (port : Fin 16) (x : Incoming)
  /-- WRITE (R292): A fabric WRITE arrives and is checked, written, guard-signalled and acknowledged. -/
  | write (port : Fin 16) (x : Incoming)
  /-- WRITE_ACK (R294): A write's response arrives at its requester and releases ordering or an error. -/
  | writeAck (port : Fin 16) (x : Incoming)
  /-- READ_REQ (R289): A fabric read request arrives and is answered with the lines or a refusal. -/
  | readReq (port : Fin 16) (x : Incoming)
  /-- READ_RESP (R294): A read response arrives and its data is written by the requester, or its error is handled. -/
  | readResp (port : Fin 16) (x : Incoming)
  /-- REMOTE_SIGNAL (R217): A SIGNAL packet arrives and is applied to the bound partition's tally and acknowledged. -/
  | remoteSignal (port : Fin 16) (x : Incoming)
  /-- SIGNAL_ACK (R196): A remote signal's acknowledgement arrives and completes the SIGNAL command. -/
  | signalAck (port : Fin 16) (x : Incoming)
  /-- RESPONSE_TIMEOUT (R294): FABRIC_RESP_TIMEOUT expires for a request without response, which counts as an error response. -/
  | responseTimeout (tag : BitVec 16)
  /-- PACKET_TRANSMIT (R288): A port transmitter picks the next packet among lanes holding credits and sends it. -/
  | packetTransmit (port : Fin 16)
  /-- CREDIT_RETURN (R286): Credits returned by the receiver reach the transmitter. -/
  | creditReturn (port : Fin 16) (vl : Fin 4) (reserve pool : BitVec 14)
  /-- FRAME_NAK (R283): A negative acknowledgement makes the transmitter replay frames from its retry buffer. -/
  | frameNak (port : Fin 16) (frame : BitVec 12)
  /-- LANE_FAILED (R278): A receiver declares a lane or fibre failed and requests its substitution. -/
  | laneFailed (port : Fin 16) (f : LaneFault)
  /-- LANE_SPARED (R279): A lane substitution onto λ4 completes. -/
  | laneSpared (port : Fin 16) (rx : Bool) (fibre : Fin 3) (lambda : Fin 4)
  /-- FIBRE_SPARED (R279): A fibre substitution onto fibre 2 completes. -/
  | fibreSpared (port : Fin 16) (rx : Bool) (fibre : Fin 2)
  /-- LINK_RETRAIN (R284): A link retrain ends, or fails or exceeds its limit and puts the port DOWN. -/
  | linkRetrain (port : Fin 16) (ok : Bool)
  /-- LINK_TRAINED (R303): A port's link trains and the port enters QUIET and sends a PROBE. -/
  | linkTrained (port : Fin 16)
  /-- TRAINING_RETRY (R308): Each second a DOWN port not DISABLED attempts link training again. -/
  | trainingRetry (port : Fin 16)
  /-- PROBE (R304): A PROBE arrives and is answered with an IDENT after a hold-off. -/
  | probe (port : Fin 16) (x : Incoming)
  /-- PROBE_RETRY (R304): Every 256 ms a port without a neighbour IDENT sends another PROBE. -/
  | probeRetry (port : Fin 16)
  /-- IDENT_HOLDOFF (R304): A hold-off expires and the port sends its IDENT. -/
  | identHoldoff (port : Fin 16)
  /-- IDENT (R306): An IDENT arrives and the port compares it with its plan record and may become STANDBY, ADMITTED or FENCED. -/
  | ident (port : Fin 16) (x : Incoming)
  /-- DISCOVERY_TIMEOUT (R308): DISCOVERY_WAIT expires without training or IDENT and the port goes DOWN. -/
  | discoveryTimeout (port : Fin 16)
  /-- TIME_TICK (R314): Each millisecond an ADMITTED port sends a TIME packet. -/
  | timeTick (port : Fin 16)
  /-- TIME (R315): A TIME packet arrives and module time is set or slewed. -/
  | time (port : Fin 16) (x : Incoming)
  /-- MEMORY_ACCESS (R247): A controller performs a 64-byte access with parity retries, ECC correction, poison and remap triggers. -/
  | memoryAccess (a : MemAccess) (ev : MemEvent)
  /-- SCRUB (R248): Patrol scrub reads each line once per SCRUB_PERIOD and handles errors. -/
  | scrub (l : MemLine) (ev : MemEvent)
  /-- ROW_REMAPPED (R250): A row remap copy completes into a spare row and held accesses are released. -/
  | rowRemapped (s : Fin 12) (k : Fin 64) (bank : Fin 64) (row : Fin 12288)
  /-- CHANNEL_RETRAIN (R262): A pseudo-channel retrain succeeds, held accesses are served and gauges are credited. -/
  | channelRetrain (s : Fin 12) (k : Fin 64)
  /-- CHANNEL_LOST (R263): RETRAIN_ALLOW expires and the pseudo-channel becomes LOST. -/
  | channelLost (s : Fin 12) (k : Fin 64)
  /-- RELIEF_SWITCH (R264): When every ADMITTED partition reaches a commit point, relief is switched on and population begins. -/
  | reliefSwitch (s : Fin 12)
  /-- CHANNEL_RELIEVED (R265): Relief population ends and the pseudo-channel becomes RELIEVED. -/
  | channelRelieved (s : Fin 12)
  /-- TG_RUN_END (R272): A traffic-generator run ends and its result records are written. -/
  | tgRunEnd (s : Fin 12) (rs : List TgResult)
  /-- DEADLINE_MISS (R423): A gauge's deadline passes and the miss is recorded and acted on by SEG_KIND. -/
  | deadlineMiss (k : ChainId)
  /-- SEGMENT_HUNG (R426): HANG_AFTER past the deadline, a capture is taken and HANG_ACTION is applied. -/
  | segmentHung (k : ChainId)
  /-- TEARDOWN_CUTOFF (R409): 20 ms into a teardown, commands still running are aborted. -/
  | teardownCutoff (p : Fin 4)
  /-- TORN_DOWN (R409): A teardown's drain ends; binding, tallies and chains are cleared and the partition enters its end state unless CONFIRM holds. -/
  | tornDown (p : Fin 4)
  /-- TENANT_SWITCH (R404): A host whose resident tenant is blocked saves it and loads its next tenant. -/
  | tenantSwitch (p : Fin 4) (host : Fin 96)
  /-- RESET_DONE (R446): A reset completes within its limit and records RESET_DONE. -/
  | resetDone
  /-- RESET_ESCALATION (R446): A reset exceeds its limit and escalates to the next domain. -/
  | resetEscalation
  /-- MGMT_CORE_RESTART (R446): A management core silent for 100 ms is restarted by the other. -/
  | mgmtCoreRestart (core : Fin 2) (silentMs : BitVec 16)
  /-- CHAIN_START (R139): CHAIN_CTRL START sets a chain RUNNING from its head or held position. -/
  | chainStart (o : Origin) (k : ChainId)
  /-- CHAIN_HALT (R139): CHAIN_CTRL HALT requests a chain halt at its next LINK word. -/
  | chainHalt (o : Origin) (k : ChainId)
  /-- HAUL_PAUSE (R183): Setting a HAUL_PAUSE bit pauses a channel. -/
  | haulPause (o : Origin) (h : Fin 16) (ch : Fin 8)
  /-- HAUL_UNPAUSE (R184): Clearing a HAUL_PAUSE bit resumes a paused channel exactly. -/
  | haulUnpause (o : Origin) (h : Fin 16) (ch : Fin 8)
  /-- HAUL_CQ_HEAD (R181): A CQ_HEAD write frees completion-queue slots and releases a channel held in CLOSING. -/
  | haulCqHead (o : Origin) (h : Fin 16) (ch : Fin 8) (v : Word32)
  /-- TALLY_MAP (R210): A TALLY_MAP write replaces a partition's translation table and clears every mapped tally. -/
  | tallyMap (o : Origin) (p : Fin 4) (data : List Byte)
  /-- COORD_COMMIT (R301): Staged coordinates take effect together and ports compare again. -/
  | coordCommit (o : Origin) (v : Byte)
  /-- PART_JOIN (R312): A join binds a partition to a machine partition, epoch and numerics level, or is refused. -/
  | partJoin (o : Origin) (p : Fin 4) (v : BitVec 128)
  /-- PART_REBIND (R313): A bound partition takes a greater epoch. -/
  | partRebind (o : Origin) (p : Fin 4) (v : Word32)
  /-- PORT_DISABLE (R316): Setting holds a port DOWN DISABLED; clearing starts link training. -/
  | portDisable (o : Origin) (port : Fin 16) (v : Byte)
  /-- STEP_ABANDON (R361): The vote for the step in flight is sent at once with FAIL and ABANDON. -/
  | stepAbandon (o : Origin) (p : Fin 4) (v : Word32)
  /-- RECUT_REQUEST (R368): A recut becomes pending for the step in flight. -/
  | recutRequest (o : Origin) (p : Fin 4) (v : Word32)
  /-- CKPT_REQUEST (R380): A checkpoint warning is raised from the host. -/
  | ckptRequest (o : Origin) (p : Fin 4) (v : Byte)
  /-- STEP_BLOCK_INIT (R341): The step control block is initialised. -/
  | stepBlockInit (o : Origin) (p : Fin 4) (v : Byte)
  /-- SUSPEND (R408): A SUSPEND shift request quiesces a partition by its mode toward SUSPENDED. -/
  | suspend (o : Origin) (p : Fin 4) (mode : BitVec 3) (confirm : Bool)
  /-- RESHAPE (R408): A RESHAPE shift request quiesces a partition toward RESTORING with a new tenancy. -/
  | reshape (o : Origin) (p : Fin 4) (mode : BitVec 3) (confirm : Bool) (tenancy : BitVec 4)
  /-- END (R407): An END shift request takes a partition to EMPTY. -/
  | endShift (o : Origin) (p : Fin 4) (mode : BitVec 3) (confirm : Bool)
  /-- RESUME (R399): A RESUME shift request checks the allocation and takes a SUSPENDED partition to RESTORING. -/
  | resume (o : Origin) (p : Fin 4) (mode : BitVec 3) (confirm : Bool)
  /-- SHIFT_CONFIRM (R409): A torn-down partition releases resources and enters its end state. -/
  | shiftConfirm (o : Origin) (v : Byte)
  /-- LOAD (R399): PART_CTRL LOAD checks the allocation and takes an EMPTY partition to LOADING. -/
  | load (o : Origin) (p : Fin 4)
  /-- ADMIT (R411): PART_CTRL ADMIT makes a partition ADMITTED if admission conditions hold. -/
  | partAdmit (o : Origin) (p : Fin 4)
  /-- COMMAND_RESET (R438): A command reset returns one chain to IDLE. -/
  | commandReset (o : Origin) (k : ChainId)
  /-- ENGINE_RESET (R439): An engine reset captures state and aborts one engine's commands for a partition, optionally clearing tallies. -/
  | engineReset (o : Origin) (p : Fin 4) (engine : Byte) (clear : Bool)
  /-- PARTITION_RESET (R443): A partition reset captures, votes fail and tears the partition down as a fault. -/
  | partitionReset (o : Origin) (p : Fin 4)
  /-- MODULE_RESET (R444): A module reset captures, writes retained bed records, resets the module and applies repairs and armed re-fuses. -/
  | moduleReset (o : Origin)
  /-- BENCH_UNFENCE (R118): A write unfences a named bench. -/
  | benchUnfence (o : Origin) (v : Byte)
  /-- RETRAIN_REQUEST (R261): A write puts a pseudo-channel into RETRAINING. -/
  | retrainRequest (o : Origin) (s : Fin 12) (v : Byte)
  /-- RELIEF_CLEAR (R269): A write clears a stack's relief at the next power cycle. -/
  | reliefClear (o : Origin) (s : Fin 12) (v : Byte)
  /-- TG_START (R270): TG_CTRL START begins a traffic-generator run on selected pseudo-channels. -/
  | tgStart (o : Origin) (s : Fin 12)
  /-- TG_STOP (R270): TG_CTRL STOP ends a traffic-generator run. -/
  | tgStop (o : Origin) (s : Fin 12)
  /-- FAULT_LOG_CLEAR (R420): Every place of the fault log is emptied without restarting numbering. -/
  | faultLogClear (o : Origin) (v : Byte)
  /-- CAPTURE_REQUEST (R434): A summary capture is taken without a reset. -/
  | captureRequest (o : Origin) (v : Byte)
  /-- RETAINED_ADOPT (R447): The retained bed is digested in place and adopted or refused. -/
  | retainedAdopt (o : Origin) (p : Fin 4) (v : Byte)
  /-- FW_STAGE_DATA (R506): Image bytes are written into the staging slot. -/
  | fwStageData (o : Origin) (data : List Byte)
  /-- FW_STAGE_FROM (R506): A whole image is copied into the staging slot from working memory. -/
  | fwStageFrom (o : Origin) (v : Word64)
  /-- FW_INSTALL (R507): The staged image is checked and made pending. -/
  | fwInstall (o : Origin) (v : Byte)
  /-- FW_CONFIRM (R508): A trial image is confirmed, fusing its floor and revocations. -/
  | fwConfirm (o : Origin) (v : Byte)
  /-- ATTEST_NONCE (R510): An attestation report is formed and signed for the nonce. -/
  | attestNonce (o : Origin) (v : BitVec 256)
  /-- REFUSE_TOKEN (R513): A re-fuse token is checked and armed. -/
  | refuseToken (o : Origin) (data : List Byte)
  /-- DEBUG_TOKEN (R515): A debug token unlocks JTAG until the next power cycle. -/
  | debugToken (o : Origin) (data : List Byte)
  /-- CONFIG_HOLD (R484): Setting defers STORED commits; clearing commits every held value in one slot. -/
  | configHold (o : Origin) (v : Byte)
  /-- CONFIG_DEFAULTS (R487): Every RW STORED entry takes its default and is committed. -/
  | configDefaults (o : Origin) (v : Byte)
  /-- ENTRY_WRITE (R459): A write to a dictionary entry with no behaviour of its own is checked and applied whole. -/
  | entryWrite (o : Origin) (index : BitVec 16) (subindex : Byte) (data : List Byte)
  /-- READ (R470): A Clelliul or mailbox READ returns the value or opens a segmented read transfer. -/
  | read (o : Origin) (index : BitVec 16) (subindex : Byte)
  /-- READ_SEG (R470): A segment of an open read transfer is returned. -/
  | readSeg (o : Origin) (transfer segment : BitVec 16)
  /-- WRITE_SEG_INIT (R471): A segmented write transfer is opened after early checks. -/
  | writeSegInit (o : Origin) (index : BitVec 16) (subindex : Byte) (length crc : Word32)
  /-- WRITE_SEG (R471): A write segment is stored; the last one triggers checks and application of the value. -/
  | writeSeg (o : Origin) (transfer segment : BitVec 16) (last : Bool) (data : List Byte)
  /-- TRANSFER_END (R472): A transfer is closed and its buffer freed. -/
  | transferEnd (o : Origin) (transfer : BitVec 16)
  /-- DESCRIBE (R457): The description of an entry is returned. -/
  | describe (o : Origin) (index : BitVec 16) (subindex : Byte)
  /-- NEXT (R467): The next existing index and subindex is returned. -/
  | next (o : Origin) (index : BitVec 16) (subindex : Byte)
  /-- IDENTIFY (R474): A module answers IDENTIFY after a node-dependent hold-off. -/
  | identify (o : Origin)
  /-- NOTICE (R473): The target's response to a notice stops its retries. -/
  | notice (c : Client) (seq : BitVec 16)
  /-- NOTICE_RETRY (R473): NOTICE_RETRY_MS expires and an unanswered notice is sent again. -/
  | noticeRetry (seq : BitVec 16)
  /-- TRANSFER_TIMEOUT (R472): A transfer idle for 2 s is closed. -/
  | transferTimeout (transfer : BitVec 16)
  /-- CLIENT_EXPIRY (R468): A client's state is dropped 10 s after its last request. -/
  | clientExpiry (c : Client)
  /-- BEACON_LOSS (R463): No PLCA BEACON for 100 ms stops T1S transmission. -/
  | beaconLoss
  /-- NEIGHBOR_SOLICITATION (R464): A Neighbor Solicitation for the link-local address is answered. -/
  | neighborSolicitation (src target : BitVec 128)
  /-- ECHO_REQUEST (R464): An ICMPv6 echo request is answered. -/
  | echoRequest (src dst : BitVec 128) (data : List Byte)
  /-- FUNCTION_LEVEL_RESET (R443): A PCIe FLR resets every active partition, BAR2_BASE and the MSI-X table. -/
  | functionLevelReset
  /-- PCIE_PERST_N (R530): Assertion of PCIE_PERST_N resets the PCIe endpoint only. -/
  | pciePerstN
  /-- PERST_RELEASE (R496): Release of PCIE_PERST_N lets the PCIe link train. -/
  | perstRelease
  /-- BAR2_ACCESS (R480): A host read or write through BAR2 reaches working memory in arrival order. -/
  | bar2Access (offset : Word32) (op : Bar2Op)
  /-- DOE_ATTEST (R511): A DOE ATTEST request returns a report and both certificates. -/
  | doeAttest (nonce : BitVec 256)
  /-- DOE_ABORT (R511): A DOE abort discards a report in progress. -/
  | doeAbort
  /-- TRAY_RESET_N (R531): A qualified falling edge on TRAY_RESET_N requests a module reset. -/
  | trayResetN (highMs lowMs : BitVec 32)
  /-- POWER_UP (R490): Application of 44 V starts the boot ROM and the boot stages. -/
  | powerUp (straps : BitVec 4)
  /-- BOOT_STAGE_END (R490): A boot stage completes and the next begins. -/
  | bootStageEnd
  /-- STAGE_OVERRUN (R493): A boot stage exceeds its limit and the power-up halts. -/
  | stageOverrun
  /-- MEASUREMENT_EVALUATION (R543): Points are evaluated on their interval means against warning and fault conditions. -/
  | measurementEvaluation (point : BitVec 16) (value : Word32) (excluded : Bool)
  /-- TRIP (R548): A hardware comparator trip switches the rails off at once. -/
  | trip (point : BitVec 16) (value : Word32) (removal : Bool)
  /-- BEACON (R463): A PLCA BEACON is received again after a loss, and the module resumes transmitting in its own transmit opportunity, with T1S_STATE returning to ACTIVE. -/
  | beacon
  /-- CLIENT_ABORT (R472): An ABORT message sent by a client with a transfer's identifier closes that transfer at once and applies nothing. -/
  | clientAbort (c : Client) (transfer : BitVec 16)
  /-- TRAINING_FAILED (R309): A port's link training attempt fails, and the port goes from TRAINING to DOWN with reason TRAINING_FAILED. -/
  | trainingFailed (port : Fin 16)
  /-- PHASE_FAULT (R539): A converter phase that reports a driver fault, or that carries over 150 % of the mean phase current for 100 µs, is taken out of service until the next power cycle. -/
  | phaseFault (rail : Fin 33)
  deriving DecidableEq, Repr

end Sys2Proof
end

