-- ==== Sys2Proof/Decode.lean ====
section
/-! DEFINITION. Commands spelled by bits. The table of operations gives no row any bits (every row's word pattern is empty): a
command is an event or a request, not a word, so no word spells one. The words of command lists are read by the sequencers
(Machine/Words.lean). -/

namespace Sys2Proof

/-- A row of the table that gives bits: how many, and the command they spell. There is none. -/
def bitRows : List (Nat × (Nat → Option Instr)) := []

/-- The command a word of `nbits` bits spells. -/
def decodeTableWord (nbits w : Nat) : Option Instr :=
  match bitRows.find? (fun r => r.1 == nbits) with
  | some r => r.2 w
  | none => none

end Sys2Proof
end

