-- ==== Sys2Proof/Config.lean ====
section
/-! DEFINITION. What an implementation fixes and the values the spec leaves open, as constants with no body: nothing can
be proved about the value of one. -/

namespace Sys2Proof

/-- The n-th free value drawn (log 5): random challenges (R512), random parts of hold-offs (R304). -/
opaque Config.freeValue : Nat → BitVec 256

/-- Byte `i` of the n-th free byte string drawn (log 5): what a proof block leaves in the bench store it uses (R428). -/
opaque Config.freeByte : Nat → Nat → Byte

/-- The bits of entry `i` of a capture section of a KIND, by the values it holds: the spec names the values and the bytes of an entry
and not where each stands (R436, log 5). -/
opaque Config.captureEntry : (kind i : Nat) → List Nat → Nat

/-- The 2 MiB proof image of a numerics level, held in the firmware (R428); the spec does not give its bytes (log 15). -/
opaque Config.proofImage : Nat → Nat → Byte

/-- Falcon-1024 (R509, log 6): the public key of a seed, the signature of a message under a seed, and the check of a
signature. Their values are the standard's; nothing in the model depends on them. -/
opaque Config.falconKey : List Byte → List Byte

opaque Config.falconSign : List Byte → List Byte → List Byte

opaque Config.falconVerify : List Byte → List Byte → List Byte → Bool

end Sys2Proof
end

