-- ==== Sys2Proof/Machine/Bits.lean ====
section
/-! DEFINITION. Bit fields, little-endian byte strings (R14, R15, R557), CRC-32 (R283, R467) and SHAKE256, the digest
that R367, R371, R501, R504 and R510 name. -/

namespace Sys2Proof.Machine

/-- Bits `hi` to `lo` of `w` (R14). -/
def fld (w hi lo : Nat) : Nat := (w >>> lo) % 2 ^ (hi + 1 - lo)

def bit (w i : Nat) : Bool := (w >>> i) % 2 == 1

def b2n (b : Bool) : Nat := if b then 1 else 0

/-- A two's complement field of `n` bits as an integer. -/
def signed (n w : Nat) : Int := if w % 2 ^ n < 2 ^ (n - 1) then ((w % 2 ^ n : Nat) : Int) else ((w % 2 ^ n : Nat) : Int) - (2 ^ n : Nat)

/-- The `n`-bit two's complement pattern of an integer. -/
def unsigned (n : Nat) (i : Int) : Nat := (i % (2 ^ n : Nat)).toNat

/-- Fields packed from the most significant downwards, as every field map lists them: (width, value). -/
def pack : List (Nat × Nat) → Nat
  | l => l.foldl (fun acc f => acc * 2 ^ f.1 + f.2 % 2 ^ f.1) 0

/-- The fields of a word, most significant first, for the given widths. -/
def unpackFrom (w : Nat) : List Nat → Nat → List Nat
  | [], _ => []
  | x :: ws, top => fld w (top - 1) (top - x) :: unpackFrom w ws (top - x)

def unpack (w : Nat) (widths : List Nat) : List Nat := unpackFrom w widths widths.sum

/-- `x` put before the first element of the list that it does not follow. -/
def placed {α : Type} (le : α → α → Bool) (x : α) : List α → List α
  | [] => [x]
  | y :: ys => if le x y then x :: y :: ys else y :: placed le x ys

/-- The list in order; elements that the order leaves equal keep theirs. -/
def ordered {α : Type} (le : α → α → Bool) (l : List α) : List α := l.foldr (placed le) []

/-- Numbers in rising order. -/
def rising (l : List Nat) : List Nat := ordered (fun x y => decide (x ≤ y)) l

/-- Set bits `hi` to `lo` of `w` to `v`. -/
def setFld (w hi lo v : Nat) : Nat :=
  w - fld w hi lo * 2 ^ lo + (v % 2 ^ (hi + 1 - lo)) * 2 ^ lo

def setBitTo (w i : Nat) (b : Bool) : Nat := setFld w i i (b2n b)

/-- How many bits of the low `n` are 1. -/
def popcount (w : Nat) : Nat → Nat
  | 0 => 0
  | n + 1 => popcount w n + (w >>> n) % 2

/-- The lowest set bit among the first `n`, if any. -/
def lowestBit (w n : Nat) : Option Nat := (List.range n).find? (fun i => bit w i)

/-- Little-endian bytes of a number (R15). -/
def toBytes (w : Nat) : Nat → List Byte
  | 0 => []
  | n + 1 => BitVec.ofNat 8 w :: toBytes (w / 256) n

/-- The number a little-endian byte string stands for (R15, R557). -/
def ofBytes : List Byte → Nat
  | [] => 0
  | b :: bs => b.toNat + 256 * ofBytes bs

def roundUp (n k : Nat) : Nat := (n + k - 1) / k

/-- CRC-32 of IEEE 802.3 over bytes in order: reflected polynomial, all-ones start and final complement (PRESUMED, log 21:
the standard's own conventions). -/
def crcByte (c : Word32) (b : Byte) : Word32 :=
  (List.range 8).foldl (fun c _ => if c.getLsbD 0 then (c >>> 1) ^^^ 0xEDB88320#32 else c >>> 1) (c ^^^ b.setWidth 32)

def crc32 (bs : List Byte) : Nat := ((bs.foldl crcByte 0xFFFFFFFF#32) ^^^ 0xFFFFFFFF#32).toNat

/-! SHAKE256 of FIPS 202: Keccak-f[1600] on 25 lanes of 64 bits, lane (x, y) at place x + 5y, rate 136 bytes. -/

def keccakRC : List Word64 :=
  [0x0000000000000001#64, 0x0000000000008082#64, 0x800000000000808A#64, 0x8000000080008000#64,
   0x000000000000808B#64, 0x0000000080000001#64, 0x8000000080008081#64, 0x8000000000008009#64,
   0x000000000000008A#64, 0x0000000000000088#64, 0x0000000080008009#64, 0x000000008000000A#64,
   0x000000008000808B#64, 0x800000000000008B#64, 0x8000000000008089#64, 0x8000000000008003#64,
   0x8000000000008002#64, 0x8000000000000080#64, 0x000000000000800A#64, 0x800000008000000A#64,
   0x8000000080008081#64, 0x8000000000008080#64, 0x0000000080000001#64, 0x8000000080008008#64]

/-- Rotation of lane x + 5y. -/
def keccakRot : List Nat :=
  [0, 1, 62, 28, 27, 36, 44, 6, 55, 20, 3, 10, 43, 25, 39, 41, 45, 15, 21, 8, 18, 2, 61, 56, 14]

def keccakRound (a : List Word64) (rc : Word64) : List Word64 :=
  let g := fun (l : List Word64) (i : Nat) => l.getD i 0#64
  let c := (List.range 5).map (fun x => g a x ^^^ g a (x + 5) ^^^ g a (x + 10) ^^^ g a (x + 15) ^^^ g a (x + 20))
  let d := (List.range 5).map (fun x => g c ((x + 4) % 5) ^^^ (g c ((x + 1) % 5)).rotateLeft 1)
  let t := (List.range 25).map (fun i => g a i ^^^ g d (i % 5))
  -- rho and pi: lane (x, y) moves to (y, 2x + 3y); read back: place (X, Y) comes from x = X + 3Y, y = X
  let b := (List.range 25).map (fun i =>
    let x := (i % 5 + 3 * (i / 5)) % 5
    let y := i % 5
    (g t (x + 5 * y)).rotateLeft (keccakRot.getD (x + 5 * y) 0))
  let e := (List.range 25).map (fun i =>
    let x := i % 5
    let r := i - x
    g b i ^^^ (~~~ (g b (r + (x + 1) % 5)) &&& g b (r + (x + 2) % 5)))
  match e with
  | l :: ls => (l ^^^ rc) :: ls
  | [] => []

def keccakF (a : List Word64) : List Word64 := keccakRC.foldl keccakRound a

/-- Exclusive-or of a 136-byte block into the first 17 lanes. -/
def keccakAbsorb (a : List Word64) (block : List Byte) : List Word64 :=
  (List.range 25).map (fun i =>
    if i < 17 then a.getD i 0#64 ^^^ BitVec.ofNat 64 (ofBytes ((block.drop (8 * i)).take 8)) else a.getD i 0#64)

def keccakBlocks : (fuel : Nat) → List Word64 → List Byte → List Word64
  | 0, a, _ => a
  | n + 1, a, bs =>
    if bs.isEmpty then a else keccakBlocks n (keccakF (keccakAbsorb a (bs.take 136))) (bs.drop 136)

/-- SHAKE256 with 64 bytes of output. -/
def shake256 (bs : List Byte) : List Byte :=
  let p := 136 - bs.length % 136
  let padded := if p = 1 then bs ++ [0x9F#8] else bs ++ [0x1F#8] ++ List.replicate (p - 2) 0#8 ++ [0x80#8]
  let a := keccakBlocks (padded.length / 136 + 1) (List.replicate 25 0#64) padded
  (a.flatMap (fun l => toBytes l.toNat 8)).take 64

end Sys2Proof.Machine
end

