-- ==== Sys2Proof/Machine/Cards.lean ====
section
/-! DEFINITION. The entry cards of the object dictionary (R455, R456, R487 and the entry tables of every chapter), one
row per card, and the key under which an entry is kept: 256 * index + subindex. -/

namespace Sys2Proof.Machine

/-- Entry types (R456) with their size in bytes. -/
inductive EntryType where
  | bool
  | int (bytes : Nat)
  | uint (bytes : Nat)
  | real32
  | visible (bytes : Nat)
  | octets (bytes : Nat)
  | domain (max : Nat)
  deriving DecidableEq, Repr

/-- Access codes (R19); CONST and RO differ only in DESCRIBE. -/
inductive Access where
  | ro | rw | wo | rw1c | const
  deriving DecidableEq, Repr

/-- Persistence classes (R20), in the order of DESCRIBE's codes (R457). -/
inductive Persistence where
  | fused | stored | volatile | retained
  deriving DecidableEq, Repr

/-- An entry card: indices `base + 256 a + b` for a < np and b < ne, subindices `sub0` to `sub1`, the default, the numeric
range (empty where the card gives none), the multiple a value must be, and the reserved bits (R16). -/
structure Card where
  base : Nat
  np : Nat
  ne : Nat
  sub0 : Nat
  sub1 : Nat
  name : String
  ty : EntryType
  acc : Access
  pers : Persistence
  dflt : Nat
  lo : Int
  hi : Int
  mult : Nat
  rsv : Nat
  deriving DecidableEq, Repr

def EntryType.code : EntryType → Nat
  | .bool => 1
  | .int n => if n = 1 then 2 else if n = 2 then 3 else if n = 4 then 4 else 5
  | .uint n => if n = 1 then 6 else if n = 2 then 7 else if n = 4 then 8 else 9
  | .real32 => 10
  | .visible _ => 11
  | .octets _ => 12
  | .domain _ => 13

/-- MAX_SIZE in bytes. -/
def EntryType.size : EntryType → Nat
  | .bool => 1
  | .int n => n
  | .uint n => n
  | .real32 => 4
  | .visible n => n
  | .octets n => n
  | .domain n => n

def EntryType.isDomain : EntryType → Bool
  | .domain _ => true
  | _ => false

def Access.code : Access → Nat
  | .ro => 0 | .rw => 1 | .wo => 2 | .rw1c => 3 | .const => 4

def Persistence.code : Persistence → Nat
  | .fused => 0 | .stored => 1 | .volatile => 2 | .retained => 3

def key (index sub : Nat) : Nat := 256 * index + sub

def cards0 : List Card := [
  ⟨0x1000, 1, 1, 1, 1, "PART_NUMBER", .visible 16, .const, .fused, 0x32314b46492d525342, 0, (-1), 1, 0⟩,
  ⟨0x1000, 1, 1, 2, 2, "HW_REVISION", .uint 4, .const, .fused, 0, 0, 0xffffffff, 1, 0⟩,
  ⟨0x1000, 1, 1, 3, 3, "FW_VERSION", .uint 4, .ro, .stored, 0x1000000, 0, 0xffffffff, 1, 0⟩,
  ⟨0x1000, 1, 1, 4, 4, "COMPAT_EPOCH", .uint 2, .ro, .stored, 1, 0, 65535, 1, 0⟩,
  ⟨0x1000, 1, 1, 5, 5, "NUMERICS_LEVELS_SUPPORTED", .uint 4, .ro, .fused, 2, 0, 0xffffffff, 1, 0⟩,
  ⟨0x1000, 1, 1, 6, 6, "SERIAL_NUMBER", .uint 8, .const, .fused, 0, 0, 0xffffffffffffffff, 1, 0⟩,
  ⟨0x6030, 1, 1, 1, 1, "NUMERICS_LEVEL_P0", .uint 1, .rw, .volatile, 1, 0, 255, 1, 0⟩,
  ⟨0x6030, 1, 1, 2, 2, "NUMERICS_LEVEL_P1", .uint 1, .rw, .volatile, 1, 0, 255, 1, 0⟩,
  ⟨0x6030, 1, 1, 3, 3, "NUMERICS_LEVEL_P2", .uint 1, .rw, .volatile, 1, 0, 255, 1, 0⟩,
  ⟨0x6030, 1, 1, 4, 4, "NUMERICS_LEVEL_P3", .uint 1, .rw, .volatile, 1, 0, 255, 1, 0⟩,
  ⟨0x9030, 1, 1, 1, 1, "SAT_TILES", .uint 8, .ro, .volatile, 0, 0, 0xffffffffffffffff, 1, 0⟩,
  ⟨0x9030, 1, 1, 2, 2, "PROMO_OVF_TILES", .uint 8, .ro, .volatile, 0, 0, 0xffffffffffffffff, 1, 0⟩,
  ⟨0x9030, 1, 1, 3, 3, "NONFINITE_IN_TILES", .uint 8, .ro, .volatile, 0, 0, 0xffffffffffffffff, 1, 0⟩,
  ⟨0x9030, 1, 1, 4, 4, "CLIPPED_ELEMENTS", .uint 8, .ro, .volatile, 0, 0, 0xffffffffffffffff, 1, 0⟩,
  ⟨0x9030, 1, 1, 5, 5, "UFLOW_ELEMENTS", .uint 8, .ro, .volatile, 0, 0, 0xffffffffffffffff, 1, 0⟩,
  ⟨0x6104, 1, 1, 1, 1, "BENCH_SPARE_MASK", .octets 12, .rw, .stored, 0x800000800000800000800000, 0, (-1), 1, 0⟩,
  ⟨0x6104, 1, 1, 2, 2, "BENCH_FENCE_MASK", .octets 12, .ro, .stored, 0, 0, (-1), 1, 0⟩,
  ⟨0x6104, 1, 1, 3, 3, "BENCH_UNFENCE", .uint 1, .wo, .volatile, 0, 0, 95, 1, 0⟩,
  ⟨0x6104, 1, 1, 4, 4, "BENCH_USABLE_COUNT", .uint 1, .ro, .volatile, 92, 0, 255, 1, 0⟩,
  ⟨0x6120, 1, 1, 1, 96, "FACE_REPAIR", .uint 4, .ro, .fused, 0, 0, 0xffffffff, 1, 0⟩,
  ⟨0x9031, 1, 1, 1, 1, "FACE_FILL_CYCLES", .uint 8, .ro, .volatile, 0, 0, 0xffffffffffffffff, 1, 0⟩,
  ⟨0x9031, 1, 1, 2, 2, "BANK_CONFLICT_CYCLES", .uint 8, .ro, .volatile, 0, 0, 0xffffffffffffffff, 1, 0⟩,
  ⟨0x9031, 1, 1, 3, 3, "RAMP_DOWN_EVENTS", .uint 8, .ro, .volatile, 0, 0, 0xffffffffffffffff, 1, 0⟩,
  ⟨0x9031, 1, 1, 4, 4, "CONVEYOR_HELD_CYCLES", .uint 8, .ro, .volatile, 0, 0, 0xffffffffffffffff, 1, 0⟩,
  ⟨0x9031, 1, 1, 5, 5, "BENCH_STORE_CORRECTED", .uint 8, .ro, .volatile, 0, 0, 0xffffffffffffffff, 1, 0⟩,
  ⟨0x9031, 1, 1, 6, 6, "STALE_CONVEYOR_SEGMENTS", .uint 8, .ro, .volatile, 0, 0, 0xffffffffffffffff, 1, 0⟩,
  ⟨0x6200, 1, 4, 1, 16, "LIFT_MAP", .uint 2, .rw, .volatile, 0, 0, 65535, 1, 0⟩,
  ⟨0x6210, 1, 1, 1, 16, "HAUL_OWNER", .uint 4, .rw, .volatile, 0xffffffff, 0, 0xffffffff, 1, 0⟩,
  ⟨0x6400, 4, 34, 1, 4, "CHAIN_HEAD", .uint 8, .rw, .volatile, 0, 0, 0xfffffffffff, 64, 0⟩,
  ⟨0x6400, 4, 34, 5, 8, "CHAIN_SEQ0", .uint 4, .rw, .volatile, 0, 0, 0xffffffff, 1, 0⟩]

def cards1 : List Card := [
  ⟨0x6400, 4, 34, 9, 12, "CHAIN_CTRL", .uint 1, .wo, .volatile, 0, 1, 2, 1, 0⟩,
  ⟨0x6400, 4, 34, 13, 16, "CHAIN_STATE", .uint 1, .ro, .volatile, 0, 0, 255, 1, 0⟩,
  ⟨0x6400, 4, 34, 17, 20, "CHAIN_DONE_SEQ", .uint 4, .ro, .volatile, 0, 0, 0xffffffff, 1, 0⟩,
  ⟨0x6400, 4, 34, 21, 21, "POLL_INTERVAL", .uint 4, .rw, .volatile, 1000, 64, 0xf4240, 1, 0⟩,
  ⟨0x6400, 4, 34, 22, 22, "WAIT_TIMEOUT_DEFAULT", .uint 8, .rw, .volatile, 0xdf8475800, 1000, 0x8000000000000000, 1, 0⟩,
  ⟨0x6240, 1, 16, 1, 8, "HAUL_CQ_BASE", .uint 8, .rw, .volatile, 0, 0, 0xffffffffffffffff, 4096, 0⟩,
  ⟨0x6240, 1, 16, 9, 16, "HAUL_CQ_ENTRIES", .uint 4, .rw, .volatile, 64, 16, 0x10000, 1, 0⟩,
  ⟨0x6240, 1, 16, 17, 24, "HAUL_CQ_HEAD", .uint 4, .rw, .volatile, 0, 0, 0xffffffff, 1, 0⟩,
  ⟨0x6240, 1, 16, 25, 32, "HAUL_CQ_TAIL", .uint 4, .ro, .volatile, 0, 0, 0xffffffff, 1, 0⟩,
  ⟨0x6240, 1, 16, 33, 33, "HAUL_PAUSE", .uint 1, .rw, .volatile, 0, 0, 255, 1, 0⟩,
  ⟨0x6240, 1, 16, 34, 41, "HAUL_CHAN_STATE", .uint 8, .ro, .volatile, 0, 0, 0xffffffffffffffff, 1, 0⟩,
  ⟨0x6240, 1, 16, 42, 49, "HAUL_CQ_SPILL", .octets 64, .ro, .volatile, 0, 0, (-1), 1, 0⟩,
  ⟨0x9032, 1, 1, 1, 1, "HAUL_BYTES", .uint 8, .ro, .volatile, 0, 0, 0xffffffffffffffff, 1, 0⟩,
  ⟨0x9032, 1, 1, 2, 2, "HAUL_TRANSPOSED_BYTES", .uint 8, .ro, .volatile, 0, 0, 0xffffffffffffffff, 1, 0⟩,
  ⟨0x9032, 1, 1, 3, 3, "HAUL_ENGINE_STOPS", .uint 8, .ro, .volatile, 0, 0, 0xffffffffffffffff, 1, 0⟩,
  ⟨0x9032, 1, 1, 4, 4, "HAUL_POISONED_TRANSFERS", .uint 8, .ro, .volatile, 0, 0, 0xffffffffffffffff, 1, 0⟩,
  ⟨0x9032, 1, 1, 5, 5, "HAUL_CQ_FULL_EVENTS", .uint 8, .ro, .volatile, 0, 0, 0xffffffffffffffff, 1, 0⟩,
  ⟨0x9032, 1, 1, 6, 6, "HAUL_ABORTED_TRANSFERS", .uint 8, .ro, .volatile, 0, 0, 0xffffffffffffffff, 1, 0⟩,
  ⟨0x6300, 1, 4, 1, 1, "TALLY_MAP", .domain 8192, .rw, .volatile, 0, 0, (-1), 1, 0⟩,
  ⟨0x6300, 1, 4, 2, 2, "BARRIER_RECORD_BASE", .uint 8, .rw, .volatile, 0, 0, 0xffffffffffffffff, 64, 0⟩,
  ⟨0x6300, 1, 4, 3, 3, "TALLY_PEEK_SEL", .uint 2, .rw, .volatile, 0, 0, 4095, 1, 0⟩,
  ⟨0x6300, 1, 4, 4, 4, "TALLY_PEEK_COUNT", .uint 4, .ro, .volatile, 0, 0, 0xffffffff, 1, 0⟩,
  ⟨0x6300, 1, 4, 5, 5, "TALLY_PEEK_STATE", .uint 1, .ro, .volatile, 0, 0, 255, 1, 0⟩,
  ⟨0x6300, 1, 4, 6, 6, "TALLY_PEEK_WAITERS", .domain 2512, .ro, .volatile, 0, 0, (-1), 1, 0⟩,
  ⟨0x6310, 1, 4, 1, 64, "BARRIER", .uint 8, .rw, .volatile, 0, 0, 0xffffffffffffffff, 1, 0⟩,
  ⟨0x6310, 1, 4, 65, 128, "BARRIER_GEN", .uint 4, .ro, .volatile, 0, 0, 0xffffffff, 1, 0⟩,
  ⟨0x9033, 1, 1, 1, 1, "TALLY_SIGNALS", .uint 8, .ro, .volatile, 0, 0, 0xffffffffffffffff, 1, 0⟩,
  ⟨0x9033, 1, 1, 2, 2, "CONSUMING_GRANTS", .uint 8, .ro, .volatile, 0, 0, 0xffffffffffffffff, 1, 0⟩,
  ⟨0x9033, 1, 1, 3, 3, "OBSERVING_RELEASES", .uint 8, .ro, .volatile, 0, 0, 0xffffffffffffffff, 1, 0⟩,
  ⟨0x9033, 1, 1, 4, 4, "TALLY_TIMEOUTS", .uint 8, .ro, .volatile, 0, 0, 0xffffffffffffffff, 1, 0⟩]

def cards2 : List Card := [
  ⟨0x9033, 1, 1, 5, 5, "STALE_SIGNALS", .uint 8, .ro, .volatile, 0, 0, 0xffffffffffffffff, 1, 0⟩,
  ⟨0x9033, 1, 1, 6, 6, "UNMAPPED_SIGNALS", .uint 8, .ro, .volatile, 0, 0, 0xffffffffffffffff, 1, 0⟩,
  ⟨0x9033, 1, 1, 7, 7, "TALLY_OVERFLOWS", .uint 8, .ro, .volatile, 0, 0, 0xffffffffffffffff, 1, 0⟩,
  ⟨0x9033, 1, 1, 8, 8, "BARRIER_ARRIVALS", .uint 8, .ro, .volatile, 0, 0, 0xffffffffffffffff, 1, 0⟩,
  ⟨0x9033, 1, 1, 9, 9, "STALE_RELEASES", .uint 8, .ro, .volatile, 0, 0, 0xffffffffffffffff, 1, 0⟩,
  ⟨0x4000, 1, 1, 1, 1, "BED_SIZE_GIB", .uint 1, .rw, .stored, 16, 1, 24, 1, 0⟩,
  ⟨0x4000, 1, 1, 2, 2, "WORKING_BYTES", .uint 8, .ro, .volatile, 0x6000000000, 0, 0xffffffffffffffff, 1, 0⟩,
  ⟨0x4000, 1, 1, 3, 3, "BED_POSITIONS", .uint 4, .ro, .volatile, 0xfff00, 0, 0xffffffff, 1, 0⟩,
  ⟨0x4000, 1, 1, 4, 4, "SCRUB_PERIOD", .uint 4, .rw, .stored, 0x15180, 3600, 0x93a80, 1, 0⟩,
  ⟨0x4000, 1, 1, 5, 5, "ROW_CE_LIMIT", .uint 1, .rw, .stored, 3, 1, 255, 1, 0⟩,
  ⟨0x4000, 1, 1, 6, 6, "REMAP_BUDGET", .uint 2, .rw, .stored, 256, 1, 4096, 1, 0⟩,
  ⟨0x4000, 1, 1, 7, 7, "RETRAIN_ALLOW", .uint 4, .const, .fused, 40000, 0, 0xffffffff, 1, 0⟩,
  ⟨0x4000, 1, 1, 8, 8, "SERVING_YIELD", .uint 1, .rw, .stored, 4, 0, 16, 1, 0⟩,
  ⟨0x4000, 1, 1, 9, 9, "RETIRED_PAGES", .domain 32768, .ro, .stored, 0, 0, (-1), 1, 0⟩,
  ⟨0x4010, 1, 12, 1, 1, "CHANNEL_STATE", .octets 64, .ro, .volatile, 0, 0, (-1), 1, 0⟩,
  ⟨0x4010, 1, 12, 2, 2, "RELIEVED_PC", .uint 1, .ro, .stored, 255, 0, 255, 1, 0⟩,
  ⟨0x4010, 1, 12, 3, 3, "SOFT_REMAP_USED", .uint 2, .ro, .stored, 0, 0, 65535, 1, 0⟩,
  ⟨0x4010, 1, 12, 4, 4, "REMAP_REPEATS", .uint 2, .ro, .stored, 0, 0, 65535, 1, 0⟩,
  ⟨0x4010, 1, 12, 5, 5, "PENDING_HARD_REPAIRS", .uint 2, .ro, .stored, 0, 0, 65535, 1, 0⟩,
  ⟨0x4010, 1, 12, 6, 6, "RETRAIN_REQUEST", .uint 1, .wo, .volatile, 0, 0, 63, 1, 0⟩,
  ⟨0x4010, 1, 12, 7, 7, "RELIEF_CLEAR", .uint 1, .wo, .volatile, 0, 1, 1, 1, 0⟩,
  ⟨0x4020, 1, 1, 1, 1, "MEM_SHARE", .uint 2, .rw, .volatile, 256, 0, 256, 1, 0⟩,
  ⟨0x4021, 1, 3, 1, 1, "MEM_SHARE", .uint 2, .rw, .volatile, 0, 0, 256, 1, 0⟩,
  ⟨0x4020, 1, 4, 2, 2, "MEM_BURST", .uint 4, .rw, .volatile, 0x10000, 4096, 0x100000, 1, 0⟩,
  ⟨0x4020, 1, 4, 3, 3, "MEM_POLICY", .uint 1, .rw, .volatile, 1, 0, 255, 1, 252⟩,
  ⟨0x4020, 1, 4, 4, 4, "BED_OVERFLOW_BASE", .uint 8, .rw, .volatile, 0, 0, 0xffffffffffffffff, 0x30000, 0⟩,
  ⟨0x4300, 1, 12, 1, 1, "TG_CHANNEL_MASK", .uint 8, .rw, .volatile, 0, 0, 0xffffffffffffffff, 1, 0⟩,
  ⟨0x4300, 1, 12, 2, 2, "TG_CONFIG", .uint 8, .rw, .volatile, 0, 0, 0xffffffffffffffff, 1, 0⟩,
  ⟨0x4300, 1, 12, 3, 3, "TG_SEED", .uint 4, .rw, .volatile, 1, 0, 0xffffffff, 1, 0⟩,
  ⟨0x4300, 1, 12, 4, 4, "TG_PASSES", .uint 2, .rw, .volatile, 1, 1, 65535, 1, 0⟩]

def cards3 : List Card := [
  ⟨0x4300, 1, 12, 5, 5, "TG_CTRL", .uint 1, .wo, .volatile, 0, 1, 2, 1, 0⟩,
  ⟨0x4300, 1, 12, 6, 6, "TG_RESULT", .domain 2048, .ro, .volatile, 0, 0, (-1), 1, 0⟩,
  ⟨0x9034, 1, 1, 1, 1, "MEM_INNER_CORRECTED", .uint 8, .ro, .volatile, 0, 0, 0xffffffffffffffff, 1, 0⟩,
  ⟨0x9034, 1, 1, 2, 2, "MEM_OUTER_CORRECTED", .uint 8, .ro, .volatile, 0, 0, 0xffffffffffffffff, 1, 0⟩,
  ⟨0x9034, 1, 1, 3, 3, "MEM_UNCORRECTABLE", .uint 8, .ro, .volatile, 0, 0, 0xffffffffffffffff, 1, 0⟩,
  ⟨0x9034, 1, 1, 4, 4, "MEM_PARITY_RETRIES", .uint 8, .ro, .volatile, 0, 0, 0xffffffffffffffff, 1, 0⟩,
  ⟨0x9034, 1, 1, 5, 5, "MEM_SOFT_REMAPS", .uint 8, .ro, .volatile, 0, 0, 0xffffffffffffffff, 1, 0⟩,
  ⟨0x9034, 1, 1, 6, 6, "MEM_RETRAINS", .uint 8, .ro, .volatile, 0, 0, 0xffffffffffffffff, 1, 0⟩,
  ⟨0x9034, 1, 1, 7, 7, "MEM_RETRAIN_HOLD_NS", .uint 8, .ro, .volatile, 0, 0, 0xffffffffffffffff, 1, 0⟩,
  ⟨0x9034, 1, 1, 8, 8, "MEM_POISON_CONSUMED", .uint 8, .ro, .volatile, 0, 0, 0xffffffffffffffff, 1, 0⟩,
  ⟨0x9034, 1, 1, 9, 9, "MEM_REGULATOR_HELD", .uint 8, .ro, .volatile, 0, 0, 0xffffffffffffffff, 1, 0⟩,
  ⟨0x5000, 1, 1, 1, 1, "CHIP_NUMBER", .uint 2, .rw, .volatile, 65535, 0, 65534, 1, 0⟩,
  ⟨0x5000, 1, 1, 2, 2, "PLANE_MASK", .uint 2, .rw, .volatile, 0, 0, 65535, 1, 0⟩,
  ⟨0x5000, 1, 1, 3, 3, "BUDDY_CHIP", .uint 2, .rw, .volatile, 65535, 0, 65535, 1, 0⟩,
  ⟨0x5000, 1, 1, 4, 4, "DEDUP_GROUP", .uint 2, .rw, .volatile, 0, 0, 65535, 1, 0⟩,
  ⟨0x5000, 1, 1, 5, 5, "MPART_ALLOWED", .octets 8, .rw, .volatile, 0, 0, (-1), 1, 0⟩,
  ⟨0x5000, 1, 1, 6, 6, "MIN_PORTS", .uint 1, .rw, .volatile, 16, 1, 16, 1, 0⟩,
  ⟨0x5000, 1, 1, 7, 7, "PLAN_PORTS", .domain 256, .rw, .volatile, 0, 0, (-1), 1, 0⟩,
  ⟨0x5000, 1, 1, 8, 8, "COORD_COMMIT", .uint 1, .wo, .volatile, 0, 1, 1, 1, 0⟩,
  ⟨0x5000, 1, 1, 9, 9, "COORD_STATE", .uint 1, .ro, .volatile, 0, 0, 255, 1, 0⟩,
  ⟨0x5000, 1, 1, 10, 10, "TIME_OFFSET", .int 4, .ro, .volatile, 0, (-2147483648), 0x7fffffff, 1, 0⟩,
  ⟨0x5001, 1, 1, 1, 2, "CREDIT_RESERVE", .uint 2, .rw, .stored, 512, 0, 65535, 1, 0⟩,
  ⟨0x5001, 1, 1, 3, 3, "CREDIT_RESERVE", .uint 2, .rw, .stored, 256, 0, 65535, 1, 0⟩,
  ⟨0x5001, 1, 1, 4, 4, "CREDIT_RESERVE", .uint 2, .rw, .stored, 512, 0, 65535, 1, 0⟩,
  ⟨0x5001, 1, 1, 5, 5, "CREDIT_SHARED", .uint 2, .rw, .stored, 6400, 0, 65535, 1, 0⟩,
  ⟨0x5002, 1, 1, 1, 1, "FABRIC_RESP_TIMEOUT", .uint 4, .rw, .stored, 0xf4240, 10000, 0x3b9aca00, 1, 0⟩,
  ⟨0x5002, 1, 1, 2, 2, "DISCOVERY_WAIT", .uint 4, .rw, .stored, 1000, 100, 60000, 1, 0⟩,
  ⟨0x5002, 1, 1, 3, 3, "LAMBDA_FAIL_LIMIT", .uint 2, .rw, .stored, 16, 1, 65535, 1, 0⟩,
  ⟨0x5010, 1, 16, 1, 1, "PORT_STATE", .uint 1, .ro, .volatile, 1, 0, 255, 1, 0⟩,
  ⟨0x5010, 1, 16, 2, 2, "PORT_REASON", .uint 1, .ro, .volatile, 0, 0, 255, 1, 0⟩]

def cards4 : List Card := [
  ⟨0x5010, 1, 16, 3, 3, "PORT_LANES", .uint 4, .ro, .volatile, 0, 0, 0xffffffff, 1, 0⟩,
  ⟨0x5010, 1, 16, 4, 4, "NBR_IDENT", .octets 64, .ro, .volatile, 0, 0, (-1), 1, 0⟩,
  ⟨0x5010, 1, 16, 5, 5, "PORT_DISABLE", .bool, .rw, .stored, 0, 0, 255, 1, 0⟩,
  ⟨0x5020, 1, 4, 1, 4, "REMOTE_WINDOW", .uint 8, .rw, .volatile, 0, 0, 0xffffffffffffffff, 1, 0⟩,
  ⟨0x5030, 1, 4, 1, 1, "PART_JOIN", .octets 16, .wo, .volatile, 0, 0, (-1), 1, 0⟩,
  ⟨0x5030, 1, 4, 2, 2, "PART_JOIN_STATUS", .uint 1, .ro, .volatile, 0, 0, 255, 1, 0⟩,
  ⟨0x5030, 1, 4, 3, 3, "PART_MPART", .uint 2, .ro, .volatile, 0, 0, 65535, 1, 0⟩,
  ⟨0x5030, 1, 4, 4, 4, "PART_EPOCH", .uint 4, .ro, .volatile, 0, 0, 0xffffffff, 1, 0⟩,
  ⟨0x5030, 1, 4, 5, 5, "PART_REBIND", .uint 4, .wo, .volatile, 0, 0, 0xffffffff, 1, 0⟩,
  ⟨0x5100, 1, 1, 1, 1, "ROUTE_TABLE", .domain 262144, .rw, .volatile, 0, 0, (-1), 1, 0⟩,
  ⟨0x5100, 1, 1, 2, 2, "ROUTE_SEL", .uint 2, .rw, .volatile, 0, 0, 65534, 1, 0⟩,
  ⟨0x5100, 1, 1, 3, 3, "ROUTE_ENTRY", .uint 4, .rw, .volatile, 0xc000ffff, 0, 0xffffffff, 1, 0⟩,
  ⟨0x9040, 1, 16, 1, 1, "FEC_CORRECTED", .uint 8, .ro, .volatile, 0, 0, 0xffffffffffffffff, 1, 0⟩,
  ⟨0x9040, 1, 16, 2, 2, "FEC_UNCORRECTABLE", .uint 8, .ro, .volatile, 0, 0, 0xffffffffffffffff, 1, 0⟩,
  ⟨0x9040, 1, 16, 3, 3, "LINK_REPLAYS", .uint 8, .ro, .volatile, 0, 0, 0xffffffffffffffff, 1, 0⟩,
  ⟨0x9040, 1, 16, 4, 4, "LINK_RETRAINS", .uint 8, .ro, .volatile, 0, 0, 0xffffffffffffffff, 1, 0⟩,
  ⟨0x9040, 1, 16, 5, 5, "NOT_ADMITTED_DROPS", .uint 8, .ro, .volatile, 0, 0, 0xffffffffffffffff, 1, 0⟩,
  ⟨0x9040, 1, 16, 6, 6, "FENCE_DROPS", .uint 8, .ro, .volatile, 0, 0, 0xffffffffffffffff, 1, 0⟩,
  ⟨0x9040, 1, 16, 7, 7, "MALFORMED_PACKETS", .uint 8, .ro, .volatile, 0, 0, 0xffffffffffffffff, 1, 0⟩,
  ⟨0x9040, 1, 16, 8, 8, "CREDIT_STALL_NS", .uint 8, .ro, .volatile, 0, 0, 0xffffffffffffffff, 1, 0⟩,
  ⟨0x7040, 1, 4, 1, 1, "STEP_BLOCK_ADDR", .uint 8, .rw, .volatile, 0, 0, 0xffffffffffffffff, 64, 0⟩,
  ⟨0x7040, 1, 4, 2, 2, "STEP_BLOCK_INIT", .uint 1, .wo, .volatile, 0, 1, 1, 1, 0⟩,
  ⟨0x7040, 1, 4, 3, 3, "STEP_FIRST", .uint 4, .rw, .volatile, 0, 0, 0xffffffff, 1, 0⟩,
  ⟨0x7040, 1, 4, 4, 4, "LOSS_SCALE_INIT_EXP", .int 1, .rw, .volatile, 16, (-24), 64, 1, 0⟩,
  ⟨0x7040, 1, 4, 5, 5, "LOSS_SCALE_MIN_EXP", .int 1, .rw, .volatile, 0, (-24), 64, 1, 0⟩,
  ⟨0x7040, 1, 4, 6, 6, "LOSS_SCALE_MAX_EXP", .int 1, .rw, .volatile, 24, (-24), 64, 1, 0⟩,
  ⟨0x7040, 1, 4, 7, 7, "GROWTH_INTERVAL", .uint 4, .rw, .volatile, 2000, 1, 0xffffffff, 1, 0⟩,
  ⟨0x7040, 1, 4, 8, 8, "GROWTH_EXP", .uint 1, .rw, .volatile, 1, 0, 8, 1, 0⟩,
  ⟨0x7040, 1, 4, 9, 9, "BACKOFF_EXP", .uint 1, .rw, .volatile, 1, 0, 8, 1, 0⟩,
  ⟨0x7040, 1, 4, 10, 10, "JOB_REPLICAS", .uint 2, .rw, .volatile, 1, 1, 65535, 1, 0⟩]

def cards5 : List Card := [
  ⟨0x7040, 1, 4, 11, 11, "LOSS_SCALE_EXP", .int 1, .ro, .volatile, 0, (-128), 127, 1, 0⟩,
  ⟨0x7050, 1, 4, 1, 16, "COLLECTIVE", .domain 131076, .rw, .volatile, 0, 0, (-1), 1, 0⟩,
  ⟨0x6330, 1, 4, 1, 64, "GRADER", .octets 32, .rw, .volatile, 0, 0, (-1), 1, 0⟩,
  ⟨0x6330, 1, 4, 65, 128, "GRADER_GEN", .uint 4, .ro, .volatile, 0, 0, 0xffffffff, 1, 0⟩,
  ⟨0x9035, 1, 1, 1, 1, "HOPPERS_EXCHANGED", .uint 8, .ro, .volatile, 0, 0, 0xffffffffffffffff, 1, 0⟩,
  ⟨0x9035, 1, 1, 2, 2, "EXCHANGE_BYTES_SENT", .uint 8, .ro, .volatile, 0, 0, 0xffffffffffffffff, 1, 0⟩,
  ⟨0x9035, 1, 1, 3, 3, "NONFINITE_VOTES", .uint 8, .ro, .volatile, 0, 0, 0xffffffffffffffff, 1, 0⟩,
  ⟨0x9035, 1, 1, 4, 4, "GRADER_DECISIONS", .uint 8, .ro, .volatile, 0, 0, 0xffffffffffffffff, 1, 0⟩,
  ⟨0x9035, 1, 1, 5, 5, "RERUNS_CLIP", .uint 8, .ro, .volatile, 0, 0, 0xffffffffffffffff, 1, 0⟩,
  ⟨0x9035, 1, 1, 6, 6, "RERUNS_UFLOW", .uint 8, .ro, .volatile, 0, 0, 0xffffffffffffffff, 1, 0⟩,
  ⟨0x9035, 1, 1, 7, 7, "EXCHANGE_NOT_READY", .uint 8, .ro, .volatile, 0, 0, 0xffffffffffffffff, 1, 0⟩,
  ⟨0x7000, 1, 4, 1, 1, "VOTE_SLOT", .uint 1, .rw, .volatile, 0, 0, 63, 1, 0⟩,
  ⟨0x7000, 1, 4, 2, 2, "RANGE_FAIL_MASK", .uint 1, .rw, .volatile, 40, 0, 255, 1, 192⟩,
  ⟨0x7000, 1, 4, 3, 3, "RANGE_SUSPECT_MASK", .uint 1, .rw, .volatile, 16, 0, 255, 1, 192⟩,
  ⟨0x7000, 1, 4, 4, 4, "DIGEST_INTERVAL", .uint 4, .rw, .volatile, 0, 0, 0xffffffff, 1, 0⟩,
  ⟨0x7000, 1, 4, 5, 5, "CKPT_INTERVAL", .uint 4, .rw, .volatile, 0, 0, 0xffffffff, 1, 0⟩,
  ⟨0x7000, 1, 4, 6, 6, "STEP_ABANDON", .uint 4, .wo, .volatile, 0, 0, 0xffffffff, 1, 0⟩,
  ⟨0x7000, 1, 4, 7, 7, "PARTITION_FLAGS", .uint 1, .ro, .volatile, 0, 0, 255, 1, 0⟩,
  ⟨0x7000, 1, 4, 8, 8, "BED_STEP", .uint 4, .ro, .volatile, 0xffffffff, 0, 0xffffffff, 1, 0⟩,
  ⟨0x7000, 1, 4, 9, 9, "STATE_DIGEST", .octets 72, .ro, .volatile, 0, 0, (-1), 1, 0⟩,
  ⟨0x7000, 1, 4, 10, 10, "CKPT_REQUEST", .uint 1, .wo, .volatile, 0, 1, 1, 1, 0⟩,
  ⟨0x7010, 1, 4, 1, 1, "STOCKPILE_BASE", .uint 8, .rw, .volatile, 0, 0, 0xffffffffffffffff, 0x10000, 0⟩,
  ⟨0x7010, 1, 4, 2, 2, "STOCKPILE_SLOT_BYTES", .uint 8, .rw, .volatile, 0, 0, 0xffffffffffffffff, 0x10000, 0⟩,
  ⟨0x7010, 1, 4, 3, 3, "STOCK_INPUT_TALLY", .uint 2, .rw, .volatile, 0, 0, 65535, 1, 0⟩,
  ⟨0x7010, 1, 4, 4, 4, "STOCK_INPUT_SIGNALS", .uint 4, .rw, .volatile, 1, 1, 0xffffffff, 1, 0⟩,
  ⟨0x7010, 1, 4, 5, 5, "MIRROR_BASE", .uint 8, .rw, .volatile, 0, 0, 0xffffffffffffffff, 0x10000, 0⟩,
  ⟨0x7010, 1, 4, 6, 6, "MIRROR_SLOT_BYTES", .uint 8, .rw, .volatile, 0, 0, 0xffffffffffffffff, 64, 0⟩,
  ⟨0x7010, 1, 4, 7, 7, "MIRROR_STATE", .uint 1, .ro, .volatile, 0, 0, 255, 1, 0⟩,
  ⟨0x7010, 1, 4, 8, 8, "DIGEST_INBOX", .uint 8, .rw, .volatile, 0, 0, 0xffffffffffffffff, 4096, 0⟩,
  ⟨0x7010, 1, 4, 9, 9, "MIRROR_SOURCE_CHIP", .uint 2, .rw, .volatile, 65535, 0, 65535, 1, 0⟩]

def cards6 : List Card := [
  ⟨0x7020, 1, 4, 1, 1, "ROLE", .uint 1, .rw, .volatile, 0, 0, 2, 1, 0⟩,
  ⟨0x7020, 1, 4, 2, 2, "PEER_CHIP", .uint 2, .rw, .volatile, 65535, 0, 65535, 1, 0⟩,
  ⟨0x7020, 1, 4, 3, 3, "RECUT_TRIGGERS", .uint 1, .rw, .volatile, 11, 0, 255, 1, 0⟩,
  ⟨0x7020, 1, 4, 4, 4, "RECUT_CE_LIMIT", .uint 4, .rw, .volatile, 16, 1, 0xffffffff, 1, 0⟩,
  ⟨0x7020, 1, 4, 5, 5, "AUDIT_INTERVAL", .uint 4, .rw, .volatile, 0, 0, 0xffffffff, 1, 0⟩,
  ⟨0x7020, 1, 4, 6, 6, "RECUT_REQUEST", .uint 4, .wo, .volatile, 0, 0, 0xffffffff, 1, 0⟩,
  ⟨0x7020, 1, 4, 7, 7, "RECUT_ALLOW", .uint 8, .rw, .volatile, 0xdf8475800, 0, 0x8000000000000000, 1, 0⟩,
  ⟨0x7020, 1, 4, 8, 8, "RECUT_STATE", .uint 1, .ro, .volatile, 0, 0, 255, 1, 0⟩,
  ⟨0x7020, 1, 4, 9, 9, "SHADOW_STEPS", .uint 2, .rw, .stored, 16, 1, 65535, 1, 0⟩,
  ⟨0x7020, 1, 4, 10, 10, "SHADOW_MATCHES", .uint 2, .ro, .volatile, 0, 0, 65535, 1, 0⟩,
  ⟨0x7020, 1, 4, 11, 11, "SHADOW_CHIP", .uint 2, .rw, .volatile, 65535, 0, 65535, 1, 0⟩,
  ⟨0x7020, 1, 4, 12, 12, "CONTRIB_DIGEST", .octets 68, .ro, .volatile, 0, 0, (-1), 1, 0⟩,
  ⟨0x7030, 1, 4, 1, 1, "CKPT_CHIP", .uint 2, .rw, .volatile, 65535, 0, 65535, 1, 0⟩,
  ⟨0x7030, 1, 4, 2, 2, "CKPT_AREA_BASE_0", .uint 8, .rw, .volatile, 0, 0, 0xffffffffffffffff, 0x10000, 0⟩,
  ⟨0x7030, 1, 4, 3, 3, "CKPT_AREA_BASE_1", .uint 8, .rw, .volatile, 0, 0, 0xffffffffffffffff, 0x10000, 0⟩,
  ⟨0x7030, 1, 4, 4, 4, "CKPT_AREA_BYTES", .uint 8, .rw, .volatile, 0, 0, 0xffffffffffffffff, 1, 0⟩,
  ⟨0x7030, 1, 4, 5, 5, "CKPT_SEQ", .uint 4, .rw, .volatile, 0, 0, 0xffffffff, 1, 0⟩,
  ⟨0x7030, 1, 4, 6, 6, "CKPT_STATE", .uint 1, .ro, .volatile, 0, 0, 255, 1, 0⟩,
  ⟨0x7060, 1, 1, 1, 1, "SHADOW_REQUIRED", .bool, .rw, .stored, 1, 0, 255, 1, 0⟩,
  ⟨0x7060, 1, 1, 2, 2, "SHADOW_QUALIFIED", .bool, .ro, .stored, 1, 0, 255, 1, 0⟩,
  ⟨0x9036, 1, 1, 1, 1, "OUTCOMES_COMMIT", .uint 8, .ro, .volatile, 0, 0, 0xffffffffffffffff, 1, 0⟩,
  ⟨0x9036, 1, 1, 2, 2, "OUTCOMES_SKIP", .uint 8, .ro, .volatile, 0, 0, 0xffffffffffffffff, 1, 0⟩,
  ⟨0x9036, 1, 1, 3, 3, "OUTCOMES_ABORT", .uint 8, .ro, .volatile, 0, 0, 0xffffffffffffffff, 1, 0⟩,
  ⟨0x9036, 1, 1, 4, 4, "FAIL_VOTES", .uint 8, .ro, .volatile, 0, 0, 0xffffffffffffffff, 1, 0⟩,
  ⟨0x9036, 1, 1, 5, 5, "RECUTS_PENDING", .uint 8, .ro, .volatile, 0, 0, 0xffffffffffffffff, 1, 0⟩,
  ⟨0x9036, 1, 1, 6, 6, "RECUT_MISMATCHES", .uint 8, .ro, .volatile, 0, 0, 0xffffffffffffffff, 1, 0⟩,
  ⟨0x9036, 1, 1, 7, 7, "DIGEST_MISMATCHES", .uint 8, .ro, .volatile, 0, 0, 0xffffffffffffffff, 1, 0⟩,
  ⟨0x9036, 1, 1, 8, 8, "SNAPSHOTS", .uint 8, .ro, .volatile, 0, 0, 0xffffffffffffffff, 1, 0⟩,
  ⟨0x9036, 1, 1, 9, 9, "CHECKPOINTS_WRITTEN", .uint 8, .ro, .volatile, 0, 0, 0xffffffffffffffff, 1, 0⟩,
  ⟨0x9036, 1, 1, 10, 10, "CHECKPOINTS_FAILED", .uint 8, .ro, .volatile, 0, 0, 0xffffffffffffffff, 1, 0⟩]

def cards7 : List Card := [
  ⟨0x9036, 1, 1, 11, 11, "MIRROR_BYTES", .uint 8, .ro, .volatile, 0, 0, 0xffffffffffffffff, 1, 0⟩,
  ⟨0x9036, 1, 1, 12, 12, "RECUT_TRIGGERS_LATE", .uint 8, .ro, .volatile, 0, 0, 0xffffffffffffffff, 1, 0⟩,
  ⟨0x2010, 1, 1, 1, 1, "SHIFT_REQUEST", .uint 4, .wo, .volatile, 0, 0, 0xffffffff, 1, 0⟩,
  ⟨0x2010, 1, 1, 2, 2, "SHIFT_STATUS", .uint 4, .ro, .volatile, 0, 0, 0xffffffff, 1, 0⟩,
  ⟨0x2010, 1, 1, 3, 3, "SHIFT_CONFIRM", .uint 1, .wo, .volatile, 0, 0, 3, 1, 0⟩,
  ⟨0x6010, 1, 4, 1, 1, "PART_STATE", .uint 1, .ro, .volatile, 0, 0, 255, 1, 0⟩,
  ⟨0x6010, 1, 4, 2, 2, "PART_CTRL", .uint 1, .wo, .volatile, 0, 1, 2, 1, 0⟩,
  ⟨0x6010, 1, 4, 3, 3, "PART_LOGICAL_BENCHES", .uint 1, .rw, .volatile, 0, 1, 96, 1, 0⟩,
  ⟨0x6010, 1, 4, 4, 4, "PART_BENCH_MASK", .octets 12, .rw, .volatile, 0, 0, (-1), 1, 0⟩,
  ⟨0x6010, 1, 4, 5, 5, "PART_TENANCY", .uint 1, .rw, .volatile, 1, 1, 4, 1, 0⟩,
  ⟨0x6010, 1, 4, 6, 6, "PART_MEM_BASE", .uint 8, .rw, .volatile, 0, 0, 0xffffffffffffffff, 0x30000, 0⟩,
  ⟨0x6010, 1, 4, 7, 7, "PART_MEM_BYTES", .uint 8, .rw, .volatile, 0, 0, 0xffffffffffffffff, 0x30000, 0⟩,
  ⟨0x6010, 1, 4, 8, 8, "PART_HOLD_BASE", .uint 8, .rw, .volatile, 0, 0, 0xffffffffffffffff, 0x30000, 0⟩,
  ⟨0x6010, 1, 4, 9, 9, "PART_HOLD_BYTES", .uint 8, .rw, .volatile, 0, 0, 0xffffffffffffffff, 0x30000, 0⟩,
  ⟨0x6010, 1, 4, 10, 10, "PART_BED_Y0", .uint 4, .rw, .volatile, 0, 0, 0xffffffff, 1, 0⟩,
  ⟨0x6010, 1, 4, 11, 11, "PART_BED_POSITIONS", .uint 4, .rw, .volatile, 0, 0, 0xffffffff, 1, 0⟩,
  ⟨0x6010, 1, 4, 12, 12, "TENANT_SAVE_BASE", .uint 8, .rw, .volatile, 0, 0, 0xffffffffffffffff, 0x10000, 0⟩,
  ⟨0x6010, 1, 4, 13, 13, "SHRINK_DL_SCALE", .uint 1, .rw, .volatile, 48, 16, 255, 1, 0⟩,
  ⟨0x2020, 1, 1, 1, 1, "RESET_REQUEST", .uint 4, .wo, .volatile, 0, 0, 0xffffffff, 1, 0⟩,
  ⟨0x2020, 1, 1, 2, 2, "RESET_STATUS", .uint 1, .ro, .volatile, 0, 0, 255, 1, 0⟩,
  ⟨0x2020, 1, 1, 3, 3, "LAST_RESET", .uint 8, .ro, .stored, 0, 0, 0xffffffffffffffff, 1, 0⟩,
  ⟨0x6020, 1, 4, 1, 1, "HANG_AFTER", .uint 8, .rw, .volatile, 0x3b9aca00, 1000, 0x8000000000000000, 1, 0⟩,
  ⟨0x6020, 1, 4, 2, 2, "HANG_ACTION", .uint 1, .rw, .volatile, 2, 0, 2, 1, 0⟩,
  ⟨0x6020, 1, 4, 3, 3, "SERVING_MISS_TALLY", .uint 2, .rw, .volatile, 0, 0, 65535, 1, 28672⟩,
  ⟨0x6105, 1, 1, 1, 1, "BENCH_LAST_PROOF", .domain 384, .ro, .volatile, 0, 0, (-1), 1, 0⟩,
  ⟨0x6110, 1, 4, 1, 1, "PROOF_INTERVAL", .uint 4, .rw, .volatile, 64, 1, 0xffffffff, 1, 0⟩,
  ⟨0x6110, 1, 4, 2, 2, "PROOF_IMAGE_BASE", .uint 8, .rw, .volatile, 0, 0, 0xffffffffffffffff, 0x10000, 0⟩,
  ⟨0x6110, 1, 4, 3, 3, "PROOF_PASSED", .octets 12, .ro, .volatile, 0, 0, (-1), 1, 0⟩,
  ⟨0xA000, 1, 1, 1, 1, "FAULT_SEQ_NEXT", .uint 4, .ro, .stored, 0, 0, 0xffffffff, 1, 0⟩,
  ⟨0xA000, 1, 1, 2, 2, "FAULT_SEL", .uint 4, .rw, .volatile, 0, 0, 0xffffffff, 1, 0⟩]

def cards8 : List Card := [
  ⟨0xA000, 1, 1, 3, 3, "FAULT_RECORD", .octets 128, .ro, .volatile, 0, 0, (-1), 1, 0⟩,
  ⟨0xA000, 1, 1, 4, 4, "FAULT_LOG", .domain 524288, .ro, .stored, 0, 0, (-1), 1, 0⟩,
  ⟨0xA000, 1, 1, 5, 5, "FAULT_NOTIFY_MASK", .uint 1, .rw, .stored, 60, 0, 255, 1, 192⟩,
  ⟨0xA000, 1, 1, 6, 6, "FAULT_LOG_CLEAR", .uint 1, .wo, .volatile, 0, 1, 1, 1, 0⟩,
  ⟨0xA010, 1, 1, 1, 1, "CAPTURE_NEXT", .uint 2, .ro, .stored, 1, 0, 65535, 1, 0⟩,
  ⟨0xA010, 1, 1, 2, 2, "CAPTURE_DEPTH", .uint 1, .rw, .stored, 0, 0, 1, 1, 0⟩,
  ⟨0xA010, 1, 1, 3, 3, "CAPTURE_BASE", .uint 8, .rw, .stored, 0, 0, 0xffffffffffffffff, 1, 0⟩,
  ⟨0xA010, 1, 1, 4, 4, "CAPTURE_SEL", .uint 2, .rw, .volatile, 0, 0, 65535, 1, 0⟩,
  ⟨0xA010, 1, 1, 5, 5, "CAPTURE_SET", .domain 262144, .ro, .stored, 0, 0, (-1), 1, 0⟩,
  ⟨0xA010, 1, 1, 6, 6, "CAPTURE_REQUEST", .uint 1, .wo, .volatile, 0, 1, 1, 1, 0⟩,
  ⟨0xA020, 1, 4, 1, 1, "RETAINED_BED", .octets 128, .ro, .retained, 0, 0, (-1), 1, 0⟩,
  ⟨0xA020, 1, 4, 2, 2, "RETAINED_ADOPT", .uint 1, .wo, .volatile, 0, 1, 1, 1, 0⟩,
  ⟨0xA020, 1, 4, 3, 3, "RETAINED_STATE", .uint 1, .ro, .retained, 0, 0, 255, 1, 0⟩,
  ⟨0x9037, 1, 1, 1, 1, "FAULT_RECORDS", .uint 8, .ro, .volatile, 0, 0, 0xffffffffffffffff, 1, 0⟩,
  ⟨0x9037, 1, 1, 2, 2, "DEADLINE_MISSES", .uint 8, .ro, .volatile, 0, 0, 0xffffffffffffffff, 1, 0⟩,
  ⟨0x9037, 1, 1, 3, 3, "SEGMENTS_HUNG", .uint 8, .ro, .volatile, 0, 0, 0xffffffffffffffff, 1, 0⟩,
  ⟨0x9037, 1, 1, 4, 4, "RESETS_ENGINE", .uint 8, .ro, .volatile, 0, 0, 0xffffffffffffffff, 1, 0⟩,
  ⟨0x9037, 1, 1, 5, 5, "RESETS_PARTITION", .uint 8, .ro, .volatile, 0, 0, 0xffffffffffffffff, 1, 0⟩,
  ⟨0x9037, 1, 1, 6, 6, "RESETS_MODULE", .uint 8, .ro, .stored, 0, 0, 0xffffffffffffffff, 1, 0⟩,
  ⟨0x9037, 1, 1, 7, 7, "PROOF_RUNS", .uint 8, .ro, .volatile, 0, 0, 0xffffffffffffffff, 1, 0⟩,
  ⟨0x9037, 1, 1, 8, 8, "PROOF_FAILS", .uint 8, .ro, .stored, 0, 0, 0xffffffffffffffff, 1, 0⟩,
  ⟨0x9037, 1, 1, 9, 9, "CAPTURES", .uint 8, .ro, .stored, 0, 0, 0xffffffffffffffff, 1, 0⟩,
  ⟨0x9037, 1, 1, 10, 10, "RERUN_ALLOW_EXHAUSTED", .uint 8, .ro, .volatile, 0, 0, 0xffffffffffffffff, 1, 0⟩,
  ⟨0x1010, 1, 1, 1, 1, "T1S_NODE_ID", .uint 1, .ro, .volatile, 0, 0, 255, 1, 0⟩,
  ⟨0x1010, 1, 1, 2, 2, "T1S_STATE", .uint 1, .ro, .volatile, 1, 0, 255, 1, 0⟩,
  ⟨0x1010, 1, 1, 3, 3, "MAC_ADDRESS", .octets 6, .const, .fused, 0, 0, (-1), 1, 0⟩,
  ⟨0x1010, 1, 1, 4, 4, "LINK_LOCAL_ADDRESS", .octets 16, .ro, .volatile, 0, 0, (-1), 1, 0⟩,
  ⟨0x1010, 1, 1, 5, 5, "CLELLIUL_UDP_PORT", .uint 2, .const, .fused, 49664, 0, 65535, 1, 0⟩,
  ⟨0x1010, 1, 1, 6, 6, "NOTICE_TARGET", .octets 18, .rw, .stored, 0, 0, (-1), 1, 0⟩,
  ⟨0x1010, 1, 1, 7, 7, "NOTICE_RETRY_MS", .uint 2, .rw, .stored, 100, 10, 10000, 1, 0⟩]

def cards9 : List Card := [
  ⟨0x1010, 1, 1, 8, 8, "NOTICE_RETRIES", .uint 1, .rw, .stored, 10, 0, 255, 1, 0⟩,
  ⟨0x1030, 1, 1, 1, 1, "CONFIG_STATE", .uint 1, .ro, .volatile, 0, 0, 255, 1, 0⟩,
  ⟨0x1030, 1, 1, 2, 2, "CONFIG_SEQ", .uint 4, .ro, .volatile, 0, 0, 0xffffffff, 1, 0⟩,
  ⟨0x1030, 1, 1, 3, 3, "CONFIG_HOLD", .bool, .rw, .volatile, 0, 0, 255, 1, 0⟩,
  ⟨0x1030, 1, 1, 4, 4, "CONFIG_DEFAULTS", .uint 1, .wo, .volatile, 0, 1, 1, 1, 0⟩,
  ⟨0x1030, 1, 1, 5, 5, "CONFIG_COMMITS", .uint 4, .ro, .stored, 0, 0, 0xffffffff, 1, 0⟩,
  ⟨0x1030, 1, 1, 6, 6, "CONFIG_DROPPED", .uint 2, .ro, .volatile, 0, 0, 65535, 1, 0⟩,
  ⟨0x2000, 1, 1, 1, 1, "MODULE_STATE", .uint 1, .ro, .volatile, 0, 0, 255, 1, 0⟩,
  ⟨0x2000, 1, 1, 2, 2, "MODULE_TIME", .uint 8, .ro, .volatile, 0, 0, 0xffffffffffffffff, 1, 0⟩,
  ⟨0x2040, 1, 1, 1, 1, "BAR2_BASE", .uint 8, .rw, .volatile, 0, 0, 0xffffffffffffffff, 0x100000000, 0⟩,
  ⟨0x9038, 1, 1, 1, 1, "CLELLIUL_REQUESTS", .uint 8, .ro, .volatile, 0, 0, 0xffffffffffffffff, 1, 0⟩,
  ⟨0x9038, 1, 1, 2, 2, "CLELLIUL_DUPLICATES", .uint 8, .ro, .volatile, 0, 0, 0xffffffffffffffff, 1, 0⟩,
  ⟨0x9038, 1, 1, 3, 3, "CLELLIUL_ABORTS", .uint 8, .ro, .volatile, 0, 0, 0xffffffffffffffff, 1, 0⟩,
  ⟨0x9038, 1, 1, 4, 4, "CLELLIUL_DISCARDED", .uint 8, .ro, .volatile, 0, 0, 0xffffffffffffffff, 1, 0⟩,
  ⟨0x9038, 1, 1, 5, 5, "TRANSFER_TIMEOUTS", .uint 8, .ro, .volatile, 0, 0, 0xffffffffffffffff, 1, 0⟩,
  ⟨0x9038, 1, 1, 6, 6, "NOTICES_SENT", .uint 8, .ro, .volatile, 0, 0, 0xffffffffffffffff, 1, 0⟩,
  ⟨0x9038, 1, 1, 7, 7, "NOTICES_DROPPED", .uint 8, .ro, .volatile, 0, 0, 0xffffffffffffffff, 1, 0⟩,
  ⟨0x9038, 1, 1, 8, 8, "MAILBOX_OPERATIONS", .uint 8, .ro, .volatile, 0, 0, 0xffffffffffffffff, 1, 0⟩,
  ⟨0x8000, 1, 1, 1, 1, "IDENTITY_KEY", .octets 1793, .ro, .fused, 0, 0, (-1), 1, 0⟩,
  ⟨0x8000, 1, 1, 2, 2, "IDENTITY_KEY_DIGEST", .octets 64, .ro, .fused, 0, 0, (-1), 1, 0⟩,
  ⟨0x8000, 1, 1, 3, 3, "DEVICE_CERT", .domain 3328, .ro, .stored, 0, 0, (-1), 1, 0⟩,
  ⟨0x8000, 1, 1, 4, 4, "ALIAS_CERT", .domain 3328, .ro, .volatile, 0, 0, (-1), 1, 0⟩,
  ⟨0x8000, 1, 1, 5, 5, "FW_KEY_DIGESTS", .octets 256, .const, .fused, 0, 0, (-1), 1, 0⟩,
  ⟨0x8000, 1, 1, 6, 6, "FW_KEY_REVOKED", .uint 1, .ro, .fused, 0, 0, 255, 1, 0⟩,
  ⟨0x8000, 1, 1, 7, 7, "SVN_FLOOR", .uint 1, .ro, .fused, 0, 0, 255, 1, 0⟩,
  ⟨0x8000, 1, 1, 8, 8, "BOOT_COUNT", .uint 4, .ro, .stored, 0, 0, 0xffffffff, 1, 0⟩,
  ⟨0x8000, 1, 1, 9, 9, "SECURITY_POLICY", .uint 1, .rw, .stored, 0, 0, 255, 1, 252⟩,
  ⟨0x8000, 1, 1, 10, 10, "DEBUG_STATE", .uint 1, .ro, .volatile, 0, 0, 255, 1, 0⟩,
  ⟨0x8010, 1, 1, 1, 1, "FW_SLOT_IN_FORCE", .uint 1, .ro, .stored, 0, 0, 255, 1, 0⟩,
  ⟨0x8010, 1, 1, 2, 2, "FW_SLOT_A", .octets 128, .ro, .stored, 0, 0, (-1), 1, 0⟩]

def cards10 : List Card := [
  ⟨0x8010, 1, 1, 3, 3, "FW_SLOT_B", .octets 128, .ro, .stored, 0, 0, (-1), 1, 0⟩,
  ⟨0x8010, 1, 1, 4, 4, "FW_STAGE_OFFSET", .uint 4, .rw, .volatile, 0, 0, 0x43fffff, 4096, 0⟩,
  ⟨0x8010, 1, 1, 5, 5, "FW_STAGE_DATA", .domain 524288, .wo, .volatile, 0, 0, (-1), 1, 0⟩,
  ⟨0x8010, 1, 1, 6, 6, "FW_STAGE_FROM", .uint 8, .wo, .volatile, 0, 0, 0xffffffffffffffff, 4096, 0⟩,
  ⟨0x8010, 1, 1, 7, 7, "FW_INSTALL", .uint 1, .wo, .volatile, 0, 1, 1, 1, 0⟩,
  ⟨0x8010, 1, 1, 8, 8, "FW_STATE", .uint 1, .ro, .volatile, 0, 0, 255, 1, 0⟩,
  ⟨0x8010, 1, 1, 9, 9, "FW_REJECT", .uint 1, .ro, .volatile, 0, 0, 255, 1, 0⟩,
  ⟨0x8010, 1, 1, 10, 10, "FW_CONFIRM", .uint 1, .wo, .volatile, 0, 1, 1, 1, 0⟩,
  ⟨0x8020, 1, 1, 1, 1, "ATTEST_NONCE", .octets 32, .wo, .volatile, 0, 0, (-1), 1, 0⟩,
  ⟨0x8020, 1, 1, 2, 2, "ATTEST_REPORT", .domain 1536, .ro, .volatile, 0, 0, (-1), 1, 0⟩,
  ⟨0x8030, 1, 1, 1, 1, "BOOT_STAGE", .uint 1, .ro, .volatile, 0, 0, 255, 1, 0⟩,
  ⟨0x8030, 1, 1, 2, 2, "REFUSE_CHALLENGE", .octets 32, .ro, .volatile, 0, 0, (-1), 1, 0⟩,
  ⟨0x8030, 1, 1, 3, 3, "REFUSE_TOKEN", .domain 3328, .wo, .volatile, 0, 0, (-1), 1, 0⟩,
  ⟨0x8030, 1, 1, 4, 4, "REFUSE_STATE", .uint 1, .ro, .volatile, 0, 0, 255, 1, 0⟩,
  ⟨0x8030, 1, 1, 5, 5, "DEBUG_TOKEN", .domain 3328, .wo, .volatile, 0, 0, (-1), 1, 0⟩,
  ⟨0x8030, 1, 1, 6, 6, "REFUSES", .uint 1, .ro, .fused, 0, 0, 255, 1, 0⟩,
  ⟨0x3000, 1, 1, 1, 1, "ENVELOPE_STATE", .uint 1, .ro, .volatile, 0, 0, 255, 1, 0⟩,
  ⟨0x3000, 1, 1, 2, 2, "WARNING_POINTS", .domain 1096, .ro, .volatile, 0, 0, (-1), 1, 0⟩,
  ⟨0x3000, 1, 1, 3, 3, "ENVELOPE_LIMITS", .domain 32768, .ro, .stored, 0, 0, (-1), 1, 0⟩,
  ⟨0x3000, 1, 1, 4, 4, "ALERT_MASK", .uint 1, .rw, .stored, 3, 0, 255, 1, 252⟩,
  ⟨0x3000, 1, 1, 5, 5, "FLOW_HEAT_CAPACITY", .real32, .rw, .stored, 0x45820800, 0, (-1), 1, 0⟩,
  ⟨0x3000, 1, 1, 6, 6, "LAST_SHUTDOWN", .uint 8, .ro, .stored, 0, 0, 0xffffffffffffffff, 1, 0⟩,
  ⟨0x3010, 1, 1, 1, 1, "RAIL_STATE", .octets 33, .ro, .volatile, 0, 0, (-1), 1, 0⟩,
  ⟨0x3010, 1, 1, 2, 2, "RAIL_PHASES", .octets 33, .ro, .volatile, 0, 0, (-1), 1, 0⟩,
  ⟨0x9000, 1, 1, 1, 1, "MEAS_SEL", .uint 2, .rw, .volatile, 1, 0, 65535, 1, 0⟩,
  ⟨0x9000, 1, 1, 2, 2, "MEAS_VALUE", .real32, .ro, .volatile, 0, 0, (-1), 1, 0⟩,
  ⟨0x9000, 1, 1, 3, 3, "MEAS_MIN", .real32, .ro, .volatile, 0, 0, (-1), 1, 0⟩,
  ⟨0x9000, 1, 1, 4, 4, "MEAS_MAX", .real32, .ro, .volatile, 0, 0, (-1), 1, 0⟩,
  ⟨0x9000, 1, 1, 5, 5, "MEAS_ALL", .domain 4384, .ro, .volatile, 0, 0, (-1), 1, 0⟩,
  ⟨0x9001, 1, 1, 1, 1, "V_IN", .real32, .ro, .volatile, 0, 0, (-1), 1, 0⟩]

def cards11 : List Card := [
  ⟨0x9001, 1, 1, 2, 2, "I_IN", .real32, .ro, .volatile, 0, 0, (-1), 1, 0⟩,
  ⟨0x9001, 1, 1, 3, 3, "P_IN", .real32, .ro, .volatile, 0, 0, (-1), 1, 0⟩,
  ⟨0x9001, 1, 1, 4, 4, "T_INLET", .real32, .ro, .volatile, 0, 0, (-1), 1, 0⟩,
  ⟨0x9001, 1, 1, 5, 5, "T_OUTLET", .real32, .ro, .volatile, 0, 0, (-1), 1, 0⟩,
  ⟨0x9001, 1, 1, 6, 6, "FLOW_EST", .real32, .ro, .volatile, 0, 0, (-1), 1, 0⟩,
  ⟨0x9001, 1, 1, 7, 7, "T_DIE_MAX", .real32, .ro, .volatile, 0, 0, (-1), 1, 0⟩,
  ⟨0x9002, 1, 1, 1, 1, "POWERED_HOURS", .uint 4, .ro, .stored, 0, 0, 0xffffffff, 1, 0⟩,
  ⟨0x9002, 1, 1, 2, 2, "ENERGY_LIFETIME", .uint 8, .ro, .stored, 0, 0, 0xffffffffffffffff, 1, 0⟩,
  ⟨0x9002, 1, 1, 3, 3, "HOURS_INLET_MARGINAL", .uint 4, .ro, .stored, 0, 0, 0xffffffff, 1, 0⟩,
  ⟨0x9002, 1, 1, 4, 4, "DIE_TEMP_PEAK", .real32, .ro, .stored, 0, 0, (-1), 1, 0⟩,
  ⟨0x9002, 1, 1, 5, 5, "ENVELOPE_SHUTDOWNS", .uint 4, .ro, .stored, 0, 0, 0xffffffff, 1, 0⟩,
  ⟨0x9002, 1, 1, 6, 6, "ENVELOPE_TRIPS", .uint 4, .ro, .stored, 0, 0, 0xffffffff, 1, 0⟩]

/-- Every entry of the dictionary beside subindex 0 (R455). -/
def cards : List Card := cards0 ++ cards1 ++ cards2 ++ cards3 ++ cards4 ++ cards5 ++ cards6 ++ cards7 ++ cards8 ++ cards9 ++ cards10 ++ cards11

def Card.covers (c : Card) (index : Nat) : Bool :=
  decide (c.base ≤ index) && decide ((index - c.base) / 256 < c.np) && decide ((index - c.base) % 256 < c.ne)

def cardAt (index sub : Nat) : Option Card :=
  cards.find? (fun c => c.covers index && decide (c.sub0 ≤ sub) && decide (sub ≤ c.sub1))

def cardOf (k : Nat) : Option Card := cardAt (k / 256) (k % 256)

/-- The default of the entry at a key. -/
def dfltOf (k : Nat) : Nat :=
  match cardOf k with
  | some c => c.dflt
  | none => 0

/-- The highest subindex of an index, 0 where the index does not exist (R455, R486). -/
def topSub (index : Nat) : Nat :=
  (cards.filter (fun c => c.covers index)).foldl (fun a c => if a < c.sub1 then c.sub1 else a) 0

/-! Names of the entries. -/

/-- PART_NUMBER of 0x1000:01 (R12). -/
def kPartNumber : Nat := key 0x1000 1

/-- HW_REVISION of 0x1000:02 (R12). -/
def kHwRevision : Nat := key 0x1000 2

/-- FW_VERSION of 0x1000:03 (R12). -/
def kFwVersion : Nat := key 0x1000 3

/-- COMPAT_EPOCH of 0x1000:04 (R12). -/
def kCompatEpoch : Nat := key 0x1000 4

/-- NUMERICS_LEVELS_SUPPORTED of 0x1000:05 (R12). -/
def kNumericsLevelsSupported : Nat := key 0x1000 5

/-- SERIAL_NUMBER of 0x1000:06 (R12). -/
def kSerialNumber : Nat := key 0x1000 6

/-- NUMERICS_LEVEL_P0 of 0x6030:01 (R81). -/
def kNumericsLevel (p : Nat) : Nat := key 0x6030 (1 + p)

/-- SAT_TILES of 0x9030:01 (R81). -/
def kSatTiles : Nat := key 0x9030 1

/-- PROMO_OVF_TILES of 0x9030:02 (R81). -/
def kPromoOvfTiles : Nat := key 0x9030 2

/-- NONFINITE_IN_TILES of 0x9030:03 (R81). -/
def kNonfiniteInTiles : Nat := key 0x9030 3

/-- CLIPPED_ELEMENTS of 0x9030:04 (R81). -/
def kClippedElements : Nat := key 0x9030 4

/-- UFLOW_ELEMENTS of 0x9030:05 (R81). -/
def kUflowElements : Nat := key 0x9030 5

/-- BENCH_SPARE_MASK of 0x6104:01 (R119). -/
def kBenchSpareMask : Nat := key 0x6104 1

/-- BENCH_FENCE_MASK of 0x6104:02 (R119). -/
def kBenchFenceMask : Nat := key 0x6104 2

/-- BENCH_UNFENCE of 0x6104:03 (R119). -/
def kBenchUnfence : Nat := key 0x6104 3

/-- BENCH_USABLE_COUNT of 0x6104:04 (R119). -/
def kBenchUsableCount : Nat := key 0x6104 4

/-- FACE_REPAIR of 0x6120:01–0x6120:60 (R119). -/
def kFaceRepair (i : Nat) : Nat := key 0x6120 (1 + i)

/-- FACE_FILL_CYCLES of 0x9031:01 (R120). -/
def kFaceFillCycles : Nat := key 0x9031 1

/-- BANK_CONFLICT_CYCLES of 0x9031:02 (R120). -/
def kBankConflictCycles : Nat := key 0x9031 2

/-- RAMP_DOWN_EVENTS of 0x9031:03 (R120). -/
def kRampDownEvents : Nat := key 0x9031 3

/-- CONVEYOR_HELD_CYCLES of 0x9031:04 (R120). -/
def kConveyorHeldCycles : Nat := key 0x9031 4

/-- BENCH_STORE_CORRECTED of 0x9031:05 (R120). -/
def kBenchStoreCorrected : Nat := key 0x9031 5

/-- STALE_CONVEYOR_SEGMENTS of 0x9031:06 (R120). -/
def kStaleConveyorSegments : Nat := key 0x9031 6

/-- LIFT_MAP of 0x6200+p:01–0x6200+p:10 (R161). -/
def kLiftMap (p : Nat) (i : Nat) : Nat := key (0x6200 + p) (1 + i)

/-- HAUL_OWNER of 0x6210:01–0x6210:10 (R161). -/
def kHaulOwner (i : Nat) : Nat := key 0x6210 (1 + i)

/-- CHAIN_HEAD of 0x6400+0x100·p+e:01–:04 (R161). -/
def kChainHead (p : Nat) (e : Nat) (i : Nat) : Nat := key (0x6400 + 256 * p + e) (1 + i)

/-- CHAIN_SEQ0 of 0x6400+0x100·p+e:05–:08 (R161). -/
def kChainSeq0 (p : Nat) (e : Nat) (i : Nat) : Nat := key (0x6400 + 256 * p + e) (5 + i)

/-- CHAIN_CTRL of 0x6400+0x100·p+e:09–:0C (R161). -/
def kChainCtrl (p : Nat) (e : Nat) (i : Nat) : Nat := key (0x6400 + 256 * p + e) (9 + i)

/-- CHAIN_STATE of 0x6400+0x100·p+e:0D–:10 (R161). -/
def kChainState (p : Nat) (e : Nat) (i : Nat) : Nat := key (0x6400 + 256 * p + e) (13 + i)

/-- CHAIN_DONE_SEQ of 0x6400+0x100·p+e:11–:14 (R161). -/
def kChainDoneSeq (p : Nat) (e : Nat) (i : Nat) : Nat := key (0x6400 + 256 * p + e) (17 + i)

/-- POLL_INTERVAL of 0x6400+0x100·p+e:15 (R161). -/
def kPollInterval (p : Nat) (e : Nat) : Nat := key (0x6400 + 256 * p + e) 21

/-- WAIT_TIMEOUT_DEFAULT of 0x6400+0x100·p+e:16 (R161). -/
def kWaitTimeoutDefault (p : Nat) (e : Nat) : Nat := key (0x6400 + 256 * p + e) 22

/-- HAUL_CQ_BASE of 0x6240+h:01–:08 (R193). -/
def kHaulCqBase (h : Nat) (i : Nat) : Nat := key (0x6240 + h) (1 + i)

/-- HAUL_CQ_ENTRIES of 0x6240+h:09–:10 (R193). -/
def kHaulCqEntries (h : Nat) (i : Nat) : Nat := key (0x6240 + h) (9 + i)

/-- HAUL_CQ_HEAD of 0x6240+h:11–:18 (R193). -/
def kHaulCqHead (h : Nat) (i : Nat) : Nat := key (0x6240 + h) (17 + i)

/-- HAUL_CQ_TAIL of 0x6240+h:19–:20 (R193). -/
def kHaulCqTail (h : Nat) (i : Nat) : Nat := key (0x6240 + h) (25 + i)

/-- HAUL_PAUSE of 0x6240+h:21 (R193). -/
def kHaulPause (h : Nat) : Nat := key (0x6240 + h) 33

/-- HAUL_CHAN_STATE of 0x6240+h:22–:29 (R193). -/
def kHaulChanState (h : Nat) (i : Nat) : Nat := key (0x6240 + h) (34 + i)

/-- HAUL_CQ_SPILL of 0x6240+h:2A–:31 (R193). -/
def kHaulCqSpill (h : Nat) (i : Nat) : Nat := key (0x6240 + h) (42 + i)

/-- HAUL_BYTES of 0x9032:01 (R195). -/
def kHaulBytes : Nat := key 0x9032 1

/-- HAUL_TRANSPOSED_BYTES of 0x9032:02 (R195). -/
def kHaulTransposedBytes : Nat := key 0x9032 2

/-- HAUL_ENGINE_STOPS of 0x9032:03 (R195). -/
def kHaulEngineStops : Nat := key 0x9032 3

/-- HAUL_POISONED_TRANSFERS of 0x9032:04 (R195). -/
def kHaulPoisonedTransfers : Nat := key 0x9032 4

/-- HAUL_CQ_FULL_EVENTS of 0x9032:05 (R195). -/
def kHaulCqFullEvents : Nat := key 0x9032 5

/-- HAUL_ABORTED_TRANSFERS of 0x9032:06 (R195). -/
def kHaulAbortedTransfers : Nat := key 0x9032 6

/-- TALLY_MAP of 0x6300+p:01 (R227). -/
def kTallyMap (p : Nat) : Nat := key (0x6300 + p) 1

/-- BARRIER_RECORD_BASE of 0x6300+p:02 (R227). -/
def kBarrierRecordBase (p : Nat) : Nat := key (0x6300 + p) 2

/-- TALLY_PEEK_SEL of 0x6300+p:03 (R227). -/
def kTallyPeekSel (p : Nat) : Nat := key (0x6300 + p) 3

/-- TALLY_PEEK_COUNT of 0x6300+p:04 (R227). -/
def kTallyPeekCount (p : Nat) : Nat := key (0x6300 + p) 4

/-- TALLY_PEEK_STATE of 0x6300+p:05 (R227). -/
def kTallyPeekState (p : Nat) : Nat := key (0x6300 + p) 5

/-- TALLY_PEEK_WAITERS of 0x6300+p:06 (R227). -/
def kTallyPeekWaiters (p : Nat) : Nat := key (0x6300 + p) 6

/-- BARRIER of 0x6310+p:01–:40 (R227). -/
def kBarrier (p : Nat) (i : Nat) : Nat := key (0x6310 + p) (1 + i)

/-- BARRIER_GEN of 0x6310+p:41–:80 (R227). -/
def kBarrierGen (p : Nat) (i : Nat) : Nat := key (0x6310 + p) (65 + i)

/-- TALLY_SIGNALS of 0x9033:01 (R229). -/
def kTallySignals : Nat := key 0x9033 1

/-- CONSUMING_GRANTS of 0x9033:02 (R229). -/
def kConsumingGrants : Nat := key 0x9033 2

/-- OBSERVING_RELEASES of 0x9033:03 (R229). -/
def kObservingReleases : Nat := key 0x9033 3

/-- TALLY_TIMEOUTS of 0x9033:04 (R229). -/
def kTallyTimeouts : Nat := key 0x9033 4

/-- STALE_SIGNALS of 0x9033:05 (R229). -/
def kStaleSignals : Nat := key 0x9033 5

/-- UNMAPPED_SIGNALS of 0x9033:06 (R229). -/
def kUnmappedSignals : Nat := key 0x9033 6

/-- TALLY_OVERFLOWS of 0x9033:07 (R229). -/
def kTallyOverflows : Nat := key 0x9033 7

/-- BARRIER_ARRIVALS of 0x9033:08 (R229). -/
def kBarrierArrivals : Nat := key 0x9033 8

/-- STALE_RELEASES of 0x9033:09 (R229). -/
def kStaleReleases : Nat := key 0x9033 9

/-- BED_SIZE_GIB of 0x4000:01 (R273). -/
def kBedSizeGib : Nat := key 0x4000 1

/-- WORKING_BYTES of 0x4000:02 (R273). -/
def kWorkingBytes : Nat := key 0x4000 2

/-- BED_POSITIONS of 0x4000:03 (R273). -/
def kBedPositions : Nat := key 0x4000 3

/-- SCRUB_PERIOD of 0x4000:04 (R273). -/
def kScrubPeriod : Nat := key 0x4000 4

/-- ROW_CE_LIMIT of 0x4000:05 (R273). -/
def kRowCeLimit : Nat := key 0x4000 5

/-- REMAP_BUDGET of 0x4000:06 (R273). -/
def kRemapBudget : Nat := key 0x4000 6

/-- RETRAIN_ALLOW of 0x4000:07 (R273). -/
def kRetrainAllow : Nat := key 0x4000 7

/-- SERVING_YIELD of 0x4000:08 (R273). -/
def kServingYield : Nat := key 0x4000 8

/-- RETIRED_PAGES of 0x4000:09 (R273). -/
def kRetiredPages : Nat := key 0x4000 9

/-- CHANNEL_STATE of 0x4010+s:01 (R273). -/
def kChannelState (s : Nat) : Nat := key (0x4010 + s) 1

/-- RELIEVED_PC of 0x4010+s:02 (R273). -/
def kRelievedPc (s : Nat) : Nat := key (0x4010 + s) 2

/-- SOFT_REMAP_USED of 0x4010+s:03 (R273). -/
def kSoftRemapUsed (s : Nat) : Nat := key (0x4010 + s) 3

/-- REMAP_REPEATS of 0x4010+s:04 (R273). -/
def kRemapRepeats (s : Nat) : Nat := key (0x4010 + s) 4

/-- PENDING_HARD_REPAIRS of 0x4010+s:05 (R273). -/
def kPendingHardRepairs (s : Nat) : Nat := key (0x4010 + s) 5

/-- RETRAIN_REQUEST of 0x4010+s:06 (R273). -/
def kRetrainRequest (s : Nat) : Nat := key (0x4010 + s) 6

/-- RELIEF_CLEAR of 0x4010+s:07 (R273). -/
def kReliefClear (s : Nat) : Nat := key (0x4010 + s) 7

/-- MEM_SHARE of 0x4020+p:01 (R273). -/
def kMemShare (p : Nat) : Nat := key (0x4020 + p) 1

/-- MEM_BURST of 0x4020+p:02 (R273). -/
def kMemBurst (p : Nat) : Nat := key (0x4020 + p) 2

/-- MEM_POLICY of 0x4020+p:03 (R273). -/
def kMemPolicy (p : Nat) : Nat := key (0x4020 + p) 3

/-- BED_OVERFLOW_BASE of 0x4020+p:04 (R273). -/
def kBedOverflowBase (p : Nat) : Nat := key (0x4020 + p) 4

/-- TG_CHANNEL_MASK of 0x4300+s:01 (R273). -/
def kTgChannelMask (s : Nat) : Nat := key (0x4300 + s) 1

/-- TG_CONFIG of 0x4300+s:02 (R273). -/
def kTgConfig (s : Nat) : Nat := key (0x4300 + s) 2

/-- TG_SEED of 0x4300+s:03 (R273). -/
def kTgSeed (s : Nat) : Nat := key (0x4300 + s) 3

/-- TG_PASSES of 0x4300+s:04 (R273). -/
def kTgPasses (s : Nat) : Nat := key (0x4300 + s) 4

/-- TG_CTRL of 0x4300+s:05 (R273). -/
def kTgCtrl (s : Nat) : Nat := key (0x4300 + s) 5

/-- TG_RESULT of 0x4300+s:06 (R273). -/
def kTgResult (s : Nat) : Nat := key (0x4300 + s) 6

/-- MEM_INNER_CORRECTED of 0x9034:01 (R275). -/
def kMemInnerCorrected : Nat := key 0x9034 1

/-- MEM_OUTER_CORRECTED of 0x9034:02 (R275). -/
def kMemOuterCorrected : Nat := key 0x9034 2

/-- MEM_UNCORRECTABLE of 0x9034:03 (R275). -/
def kMemUncorrectable : Nat := key 0x9034 3

/-- MEM_PARITY_RETRIES of 0x9034:04 (R275). -/
def kMemParityRetries : Nat := key 0x9034 4

/-- MEM_SOFT_REMAPS of 0x9034:05 (R275). -/
def kMemSoftRemaps : Nat := key 0x9034 5

/-- MEM_RETRAINS of 0x9034:06 (R275). -/
def kMemRetrains : Nat := key 0x9034 6

/-- MEM_RETRAIN_HOLD_NS of 0x9034:07 (R275). -/
def kMemRetrainHoldNs : Nat := key 0x9034 7

/-- MEM_POISON_CONSUMED of 0x9034:08 (R275). -/
def kMemPoisonConsumed : Nat := key 0x9034 8

/-- MEM_REGULATOR_HELD of 0x9034:09 (R275). -/
def kMemRegulatorHeld : Nat := key 0x9034 9

/-- CHIP_NUMBER of 0x5000:01 (R316). -/
def kChipNumber : Nat := key 0x5000 1

/-- PLANE_MASK of 0x5000:02 (R316). -/
def kPlaneMask : Nat := key 0x5000 2

/-- BUDDY_CHIP of 0x5000:03 (R316). -/
def kBuddyChip : Nat := key 0x5000 3

/-- DEDUP_GROUP of 0x5000:04 (R316). -/
def kDedupGroup : Nat := key 0x5000 4

/-- MPART_ALLOWED of 0x5000:05 (R316). -/
def kMpartAllowed : Nat := key 0x5000 5

/-- MIN_PORTS of 0x5000:06 (R316). -/
def kMinPorts : Nat := key 0x5000 6

/-- PLAN_PORTS of 0x5000:07 (R316). -/
def kPlanPorts : Nat := key 0x5000 7

/-- COORD_COMMIT of 0x5000:08 (R316). -/
def kCoordCommit : Nat := key 0x5000 8

/-- COORD_STATE of 0x5000:09 (R316). -/
def kCoordState : Nat := key 0x5000 9

/-- TIME_OFFSET of 0x5000:0A (R316). -/
def kTimeOffset : Nat := key 0x5000 10

/-- CREDIT_RESERVE of 0x5001:01–:04 (R316). -/
def kCreditReserve (i : Nat) : Nat := key 0x5001 (1 + i)

/-- CREDIT_SHARED of 0x5001:05 (R316). -/
def kCreditShared : Nat := key 0x5001 5

/-- FABRIC_RESP_TIMEOUT of 0x5002:01 (R316). -/
def kFabricRespTimeout : Nat := key 0x5002 1

/-- DISCOVERY_WAIT of 0x5002:02 (R316). -/
def kDiscoveryWait : Nat := key 0x5002 2

/-- LAMBDA_FAIL_LIMIT of 0x5002:03 (R316). -/
def kLambdaFailLimit : Nat := key 0x5002 3

/-- PORT_STATE of 0x5010+n:01 (R316). -/
def kPortState (n : Nat) : Nat := key (0x5010 + n) 1

/-- PORT_REASON of 0x5010+n:02 (R316). -/
def kPortReason (n : Nat) : Nat := key (0x5010 + n) 2

/-- PORT_LANES of 0x5010+n:03 (R316). -/
def kPortLanes (n : Nat) : Nat := key (0x5010 + n) 3

/-- NBR_IDENT of 0x5010+n:04 (R316). -/
def kNbrIdent (n : Nat) : Nat := key (0x5010 + n) 4

/-- PORT_DISABLE of 0x5010+n:05 (R316). -/
def kPortDisable (n : Nat) : Nat := key (0x5010 + n) 5

/-- REMOTE_WINDOW of 0x5020+p:01–:04 (R316). -/
def kRemoteWindow (p : Nat) (i : Nat) : Nat := key (0x5020 + p) (1 + i)

/-- PART_JOIN of 0x5030+p:01 (R316). -/
def kPartJoin (p : Nat) : Nat := key (0x5030 + p) 1

/-- PART_JOIN_STATUS of 0x5030+p:02 (R316). -/
def kPartJoinStatus (p : Nat) : Nat := key (0x5030 + p) 2

/-- PART_MPART of 0x5030+p:03 (R316). -/
def kPartMpart (p : Nat) : Nat := key (0x5030 + p) 3

/-- PART_EPOCH of 0x5030+p:04 (R316). -/
def kPartEpoch (p : Nat) : Nat := key (0x5030 + p) 4

/-- PART_REBIND of 0x5030+p:05 (R316). -/
def kPartRebind (p : Nat) : Nat := key (0x5030 + p) 5

/-- ROUTE_TABLE of 0x5100:01 (R316). -/
def kRouteTable : Nat := key 0x5100 1

/-- ROUTE_SEL of 0x5100:02 (R316). -/
def kRouteSel : Nat := key 0x5100 2

/-- ROUTE_ENTRY of 0x5100:03 (R316). -/
def kRouteEntry : Nat := key 0x5100 3

/-- FEC_CORRECTED of 0x9040+n:01 (R318). -/
def kFecCorrected (n : Nat) : Nat := key (0x9040 + n) 1

/-- FEC_UNCORRECTABLE of 0x9040+n:02 (R318). -/
def kFecUncorrectable (n : Nat) : Nat := key (0x9040 + n) 2

/-- LINK_REPLAYS of 0x9040+n:03 (R318). -/
def kLinkReplays (n : Nat) : Nat := key (0x9040 + n) 3

/-- LINK_RETRAINS of 0x9040+n:04 (R318). -/
def kLinkRetrains (n : Nat) : Nat := key (0x9040 + n) 4

/-- NOT_ADMITTED_DROPS of 0x9040+n:05 (R318). -/
def kNotAdmittedDrops (n : Nat) : Nat := key (0x9040 + n) 5

/-- FENCE_DROPS of 0x9040+n:06 (R318). -/
def kFenceDrops (n : Nat) : Nat := key (0x9040 + n) 6

/-- MALFORMED_PACKETS of 0x9040+n:07 (R318). -/
def kMalformedPackets (n : Nat) : Nat := key (0x9040 + n) 7

/-- CREDIT_STALL_NS of 0x9040+n:08 (R318). -/
def kCreditStallNs (n : Nat) : Nat := key (0x9040 + n) 8

/-- STEP_BLOCK_ADDR of 0x7040+p:01 (R352). -/
def kStepBlockAddr (p : Nat) : Nat := key (0x7040 + p) 1

/-- STEP_BLOCK_INIT of 0x7040+p:02 (R352). -/
def kStepBlockInit (p : Nat) : Nat := key (0x7040 + p) 2

/-- STEP_FIRST of 0x7040+p:03 (R352). -/
def kStepFirst (p : Nat) : Nat := key (0x7040 + p) 3

/-- LOSS_SCALE_INIT_EXP of 0x7040+p:04 (R352). -/
def kLossScaleInitExp (p : Nat) : Nat := key (0x7040 + p) 4

/-- LOSS_SCALE_MIN_EXP of 0x7040+p:05 (R352). -/
def kLossScaleMinExp (p : Nat) : Nat := key (0x7040 + p) 5

/-- LOSS_SCALE_MAX_EXP of 0x7040+p:06 (R352). -/
def kLossScaleMaxExp (p : Nat) : Nat := key (0x7040 + p) 6

/-- GROWTH_INTERVAL of 0x7040+p:07 (R352). -/
def kGrowthInterval (p : Nat) : Nat := key (0x7040 + p) 7

/-- GROWTH_EXP of 0x7040+p:08 (R352). -/
def kGrowthExp (p : Nat) : Nat := key (0x7040 + p) 8

/-- BACKOFF_EXP of 0x7040+p:09 (R352). -/
def kBackoffExp (p : Nat) : Nat := key (0x7040 + p) 9

/-- JOB_REPLICAS of 0x7040+p:0A (R352). -/
def kJobReplicas (p : Nat) : Nat := key (0x7040 + p) 10

/-- LOSS_SCALE_EXP of 0x7040+p:0B (R352). -/
def kLossScaleExp (p : Nat) : Nat := key (0x7040 + p) 11

/-- COLLECTIVE of 0x7050+p:01–:10 (R352). -/
def kCollective (p : Nat) (i : Nat) : Nat := key (0x7050 + p) (1 + i)

/-- GRADER of 0x6330+p:01–:40 (R352). -/
def kGrader (p : Nat) (i : Nat) : Nat := key (0x6330 + p) (1 + i)

/-- GRADER_GEN of 0x6330+p:41–:80 (R352). -/
def kGraderGen (p : Nat) (i : Nat) : Nat := key (0x6330 + p) (65 + i)

/-- HOPPERS_EXCHANGED of 0x9035:01 (R354). -/
def kHoppersExchanged : Nat := key 0x9035 1

/-- EXCHANGE_BYTES_SENT of 0x9035:02 (R354). -/
def kExchangeBytesSent : Nat := key 0x9035 2

/-- NONFINITE_VOTES of 0x9035:03 (R354). -/
def kNonfiniteVotes : Nat := key 0x9035 3

/-- GRADER_DECISIONS of 0x9035:04 (R354). -/
def kGraderDecisions : Nat := key 0x9035 4

/-- RERUNS_CLIP of 0x9035:05 (R354). -/
def kRerunsClip : Nat := key 0x9035 5

/-- RERUNS_UFLOW of 0x9035:06 (R354). -/
def kRerunsUflow : Nat := key 0x9035 6

/-- EXCHANGE_NOT_READY of 0x9035:07 (R354). -/
def kExchangeNotReady : Nat := key 0x9035 7

/-- VOTE_SLOT of 0x7000+p:01 (R394). -/
def kVoteSlot (p : Nat) : Nat := key (0x7000 + p) 1

/-- RANGE_FAIL_MASK of 0x7000+p:02 (R394). -/
def kRangeFailMask (p : Nat) : Nat := key (0x7000 + p) 2

/-- RANGE_SUSPECT_MASK of 0x7000+p:03 (R394). -/
def kRangeSuspectMask (p : Nat) : Nat := key (0x7000 + p) 3

/-- DIGEST_INTERVAL of 0x7000+p:04 (R394). -/
def kDigestInterval (p : Nat) : Nat := key (0x7000 + p) 4

/-- CKPT_INTERVAL of 0x7000+p:05 (R394). -/
def kCkptInterval (p : Nat) : Nat := key (0x7000 + p) 5

/-- STEP_ABANDON of 0x7000+p:06 (R394). -/
def kStepAbandon (p : Nat) : Nat := key (0x7000 + p) 6

/-- PARTITION_FLAGS of 0x7000+p:07 (R394). -/
def kPartitionFlags (p : Nat) : Nat := key (0x7000 + p) 7

/-- BED_STEP of 0x7000+p:08 (R394). -/
def kBedStep (p : Nat) : Nat := key (0x7000 + p) 8

/-- STATE_DIGEST of 0x7000+p:09 (R394). -/
def kStateDigest (p : Nat) : Nat := key (0x7000 + p) 9

/-- CKPT_REQUEST of 0x7000+p:0A (R394). -/
def kCkptRequest (p : Nat) : Nat := key (0x7000 + p) 10

/-- STOCKPILE_BASE of 0x7010+p:01 (R394). -/
def kStockpileBase (p : Nat) : Nat := key (0x7010 + p) 1

/-- STOCKPILE_SLOT_BYTES of 0x7010+p:02 (R394). -/
def kStockpileSlotBytes (p : Nat) : Nat := key (0x7010 + p) 2

/-- STOCK_INPUT_TALLY of 0x7010+p:03 (R394). -/
def kStockInputTally (p : Nat) : Nat := key (0x7010 + p) 3

/-- STOCK_INPUT_SIGNALS of 0x7010+p:04 (R394). -/
def kStockInputSignals (p : Nat) : Nat := key (0x7010 + p) 4

/-- MIRROR_BASE of 0x7010+p:05 (R394). -/
def kMirrorBase (p : Nat) : Nat := key (0x7010 + p) 5

/-- MIRROR_SLOT_BYTES of 0x7010+p:06 (R394). -/
def kMirrorSlotBytes (p : Nat) : Nat := key (0x7010 + p) 6

/-- MIRROR_STATE of 0x7010+p:07 (R394). -/
def kMirrorState (p : Nat) : Nat := key (0x7010 + p) 7

/-- DIGEST_INBOX of 0x7010+p:08 (R394). -/
def kDigestInbox (p : Nat) : Nat := key (0x7010 + p) 8

/-- MIRROR_SOURCE_CHIP of 0x7010+p:09 (R394). -/
def kMirrorSourceChip (p : Nat) : Nat := key (0x7010 + p) 9

/-- ROLE of 0x7020+p:01 (R394). -/
def kRole (p : Nat) : Nat := key (0x7020 + p) 1

/-- PEER_CHIP of 0x7020+p:02 (R394). -/
def kPeerChip (p : Nat) : Nat := key (0x7020 + p) 2

/-- RECUT_TRIGGERS of 0x7020+p:03 (R394). -/
def kRecutTriggers (p : Nat) : Nat := key (0x7020 + p) 3

/-- RECUT_CE_LIMIT of 0x7020+p:04 (R394). -/
def kRecutCeLimit (p : Nat) : Nat := key (0x7020 + p) 4

/-- AUDIT_INTERVAL of 0x7020+p:05 (R394). -/
def kAuditInterval (p : Nat) : Nat := key (0x7020 + p) 5

/-- RECUT_REQUEST of 0x7020+p:06 (R394). -/
def kRecutRequest (p : Nat) : Nat := key (0x7020 + p) 6

/-- RECUT_ALLOW of 0x7020+p:07 (R394). -/
def kRecutAllow (p : Nat) : Nat := key (0x7020 + p) 7

/-- RECUT_STATE of 0x7020+p:08 (R394). -/
def kRecutState (p : Nat) : Nat := key (0x7020 + p) 8

/-- SHADOW_STEPS of 0x7020+p:09 (R394). -/
def kShadowSteps (p : Nat) : Nat := key (0x7020 + p) 9

/-- SHADOW_MATCHES of 0x7020+p:0A (R394). -/
def kShadowMatches (p : Nat) : Nat := key (0x7020 + p) 10

/-- SHADOW_CHIP of 0x7020+p:0B (R394). -/
def kShadowChip (p : Nat) : Nat := key (0x7020 + p) 11

/-- CONTRIB_DIGEST of 0x7020+p:0C (R394). -/
def kContribDigest (p : Nat) : Nat := key (0x7020 + p) 12

/-- CKPT_CHIP of 0x7030+p:01 (R394). -/
def kCkptChip (p : Nat) : Nat := key (0x7030 + p) 1

/-- CKPT_AREA_BASE_0 of 0x7030+p:02 (R394). -/
def kCkptAreaBase0 (p : Nat) : Nat := key (0x7030 + p) 2

/-- CKPT_AREA_BASE_1 of 0x7030+p:03 (R394). -/
def kCkptAreaBase1 (p : Nat) : Nat := key (0x7030 + p) 3

/-- CKPT_AREA_BYTES of 0x7030+p:04 (R394). -/
def kCkptAreaBytes (p : Nat) : Nat := key (0x7030 + p) 4

/-- CKPT_SEQ of 0x7030+p:05 (R394). -/
def kCkptSeq (p : Nat) : Nat := key (0x7030 + p) 5

/-- CKPT_STATE of 0x7030+p:06 (R394). -/
def kCkptState (p : Nat) : Nat := key (0x7030 + p) 6

/-- SHADOW_REQUIRED of 0x7060:01 (R394). -/
def kShadowRequired : Nat := key 0x7060 1

/-- SHADOW_QUALIFIED of 0x7060:02 (R394). -/
def kShadowQualified : Nat := key 0x7060 2

/-- OUTCOMES_COMMIT of 0x9036:01 (R395). -/
def kOutcomesCommit : Nat := key 0x9036 1

/-- OUTCOMES_SKIP of 0x9036:02 (R395). -/
def kOutcomesSkip : Nat := key 0x9036 2

/-- OUTCOMES_ABORT of 0x9036:03 (R395). -/
def kOutcomesAbort : Nat := key 0x9036 3

/-- FAIL_VOTES of 0x9036:04 (R395). -/
def kFailVotes : Nat := key 0x9036 4

/-- RECUTS_PENDING of 0x9036:05 (R395). -/
def kRecutsPending : Nat := key 0x9036 5

/-- RECUT_MISMATCHES of 0x9036:06 (R395). -/
def kRecutMismatches : Nat := key 0x9036 6

/-- DIGEST_MISMATCHES of 0x9036:07 (R395). -/
def kDigestMismatches : Nat := key 0x9036 7

/-- SNAPSHOTS of 0x9036:08 (R395). -/
def kSnapshots : Nat := key 0x9036 8

/-- CHECKPOINTS_WRITTEN of 0x9036:09 (R395). -/
def kCheckpointsWritten : Nat := key 0x9036 9

/-- CHECKPOINTS_FAILED of 0x9036:0A (R395). -/
def kCheckpointsFailed : Nat := key 0x9036 10

/-- MIRROR_BYTES of 0x9036:0B (R395). -/
def kMirrorBytes : Nat := key 0x9036 11

/-- RECUT_TRIGGERS_LATE of 0x9036:0C (R395). -/
def kRecutTriggersLate : Nat := key 0x9036 12

/-- SHIFT_REQUEST of 0x2010:01 (R413). -/
def kShiftRequest : Nat := key 0x2010 1

/-- SHIFT_STATUS of 0x2010:02 (R413). -/
def kShiftStatus : Nat := key 0x2010 2

/-- SHIFT_CONFIRM of 0x2010:03 (R413). -/
def kShiftConfirm : Nat := key 0x2010 3

/-- PART_STATE of 0x6010+p:01 (R413). -/
def kPartState (p : Nat) : Nat := key (0x6010 + p) 1

/-- PART_CTRL of 0x6010+p:02 (R413). -/
def kPartCtrl (p : Nat) : Nat := key (0x6010 + p) 2

/-- PART_LOGICAL_BENCHES of 0x6010+p:03 (R413). -/
def kPartLogicalBenches (p : Nat) : Nat := key (0x6010 + p) 3

/-- PART_BENCH_MASK of 0x6010+p:04 (R413). -/
def kPartBenchMask (p : Nat) : Nat := key (0x6010 + p) 4

/-- PART_TENANCY of 0x6010+p:05 (R413). -/
def kPartTenancy (p : Nat) : Nat := key (0x6010 + p) 5

/-- PART_MEM_BASE of 0x6010+p:06 (R413). -/
def kPartMemBase (p : Nat) : Nat := key (0x6010 + p) 6

/-- PART_MEM_BYTES of 0x6010+p:07 (R413). -/
def kPartMemBytes (p : Nat) : Nat := key (0x6010 + p) 7

/-- PART_HOLD_BASE of 0x6010+p:08 (R413). -/
def kPartHoldBase (p : Nat) : Nat := key (0x6010 + p) 8

/-- PART_HOLD_BYTES of 0x6010+p:09 (R413). -/
def kPartHoldBytes (p : Nat) : Nat := key (0x6010 + p) 9

/-- PART_BED_Y0 of 0x6010+p:0A (R413). -/
def kPartBedY0 (p : Nat) : Nat := key (0x6010 + p) 10

/-- PART_BED_POSITIONS of 0x6010+p:0B (R413). -/
def kPartBedPositions (p : Nat) : Nat := key (0x6010 + p) 11

/-- TENANT_SAVE_BASE of 0x6010+p:0C (R413). -/
def kTenantSaveBase (p : Nat) : Nat := key (0x6010 + p) 12

/-- SHRINK_DL_SCALE of 0x6010+p:0D (R413). -/
def kShrinkDlScale (p : Nat) : Nat := key (0x6010 + p) 13

/-- RESET_REQUEST of 0x2020:01 (R452). -/
def kResetRequest : Nat := key 0x2020 1

/-- RESET_STATUS of 0x2020:02 (R452). -/
def kResetStatus : Nat := key 0x2020 2

/-- LAST_RESET of 0x2020:03 (R452). -/
def kLastReset : Nat := key 0x2020 3

/-- HANG_AFTER of 0x6020+p:01 (R452). -/
def kHangAfter (p : Nat) : Nat := key (0x6020 + p) 1

/-- HANG_ACTION of 0x6020+p:02 (R452). -/
def kHangAction (p : Nat) : Nat := key (0x6020 + p) 2

/-- SERVING_MISS_TALLY of 0x6020+p:03 (R452). -/
def kServingMissTally (p : Nat) : Nat := key (0x6020 + p) 3

/-- BENCH_LAST_PROOF of 0x6105:01 (R452). -/
def kBenchLastProof : Nat := key 0x6105 1

/-- PROOF_INTERVAL of 0x6110+p:01 (R452). -/
def kProofInterval (p : Nat) : Nat := key (0x6110 + p) 1

/-- PROOF_IMAGE_BASE of 0x6110+p:02 (R452). -/
def kProofImageBase (p : Nat) : Nat := key (0x6110 + p) 2

/-- PROOF_PASSED of 0x6110+p:03 (R452). -/
def kProofPassed (p : Nat) : Nat := key (0x6110 + p) 3

/-- FAULT_SEQ_NEXT of 0xA000:01 (R452). -/
def kFaultSeqNext : Nat := key 0xA000 1

/-- FAULT_SEL of 0xA000:02 (R452). -/
def kFaultSel : Nat := key 0xA000 2

/-- FAULT_RECORD of 0xA000:03 (R452). -/
def kFaultRecord : Nat := key 0xA000 3

/-- FAULT_LOG of 0xA000:04 (R452). -/
def kFaultLog : Nat := key 0xA000 4

/-- FAULT_NOTIFY_MASK of 0xA000:05 (R452). -/
def kFaultNotifyMask : Nat := key 0xA000 5

/-- FAULT_LOG_CLEAR of 0xA000:06 (R452). -/
def kFaultLogClear : Nat := key 0xA000 6

/-- CAPTURE_NEXT of 0xA010:01 (R452). -/
def kCaptureNext : Nat := key 0xA010 1

/-- CAPTURE_DEPTH of 0xA010:02 (R452). -/
def kCaptureDepth : Nat := key 0xA010 2

/-- CAPTURE_BASE of 0xA010:03 (R452). -/
def kCaptureBase : Nat := key 0xA010 3

/-- CAPTURE_SEL of 0xA010:04 (R452). -/
def kCaptureSel : Nat := key 0xA010 4

/-- CAPTURE_SET of 0xA010:05 (R452). -/
def kCaptureSet : Nat := key 0xA010 5

/-- CAPTURE_REQUEST of 0xA010:06 (R452). -/
def kCaptureRequest : Nat := key 0xA010 6

/-- RETAINED_BED of 0xA020+p:01 (R452). -/
def kRetainedBed (p : Nat) : Nat := key (0xA020 + p) 1

/-- RETAINED_ADOPT of 0xA020+p:02 (R452). -/
def kRetainedAdopt (p : Nat) : Nat := key (0xA020 + p) 2

/-- RETAINED_STATE of 0xA020+p:03 (R452). -/
def kRetainedState (p : Nat) : Nat := key (0xA020 + p) 3

/-- FAULT_RECORDS of 0x9037:01 (R454). -/
def kFaultRecords : Nat := key 0x9037 1

/-- DEADLINE_MISSES of 0x9037:02 (R454). -/
def kDeadlineMisses : Nat := key 0x9037 2

/-- SEGMENTS_HUNG of 0x9037:03 (R454). -/
def kSegmentsHung : Nat := key 0x9037 3

/-- RESETS_ENGINE of 0x9037:04 (R454). -/
def kResetsEngine : Nat := key 0x9037 4

/-- RESETS_PARTITION of 0x9037:05 (R454). -/
def kResetsPartition : Nat := key 0x9037 5

/-- RESETS_MODULE of 0x9037:06 (R454). -/
def kResetsModule : Nat := key 0x9037 6

/-- PROOF_RUNS of 0x9037:07 (R454). -/
def kProofRuns : Nat := key 0x9037 7

/-- PROOF_FAILS of 0x9037:08 (R454). -/
def kProofFails : Nat := key 0x9037 8

/-- CAPTURES of 0x9037:09 (R454). -/
def kCaptures : Nat := key 0x9037 9

/-- RERUN_ALLOW_EXHAUSTED of 0x9037:0A (R454). -/
def kRerunAllowExhausted : Nat := key 0x9037 10

/-- T1S_NODE_ID of 0x1010:01 (R487). -/
def kT1sNodeId : Nat := key 0x1010 1

/-- T1S_STATE of 0x1010:02 (R487). -/
def kT1sState : Nat := key 0x1010 2

/-- MAC_ADDRESS of 0x1010:03 (R487). -/
def kMacAddress : Nat := key 0x1010 3

/-- LINK_LOCAL_ADDRESS of 0x1010:04 (R487). -/
def kLinkLocalAddress : Nat := key 0x1010 4

/-- CLELLIUL_UDP_PORT of 0x1010:05 (R487). -/
def kClelliulUdpPort : Nat := key 0x1010 5

/-- NOTICE_TARGET of 0x1010:06 (R487). -/
def kNoticeTarget : Nat := key 0x1010 6

/-- NOTICE_RETRY_MS of 0x1010:07 (R487). -/
def kNoticeRetryMs : Nat := key 0x1010 7

/-- NOTICE_RETRIES of 0x1010:08 (R487). -/
def kNoticeRetries : Nat := key 0x1010 8

/-- CONFIG_STATE of 0x1030:01 (R487). -/
def kConfigState : Nat := key 0x1030 1

/-- CONFIG_SEQ of 0x1030:02 (R487). -/
def kConfigSeq : Nat := key 0x1030 2

/-- CONFIG_HOLD of 0x1030:03 (R487). -/
def kConfigHold : Nat := key 0x1030 3

/-- CONFIG_DEFAULTS of 0x1030:04 (R487). -/
def kConfigDefaults : Nat := key 0x1030 4

/-- CONFIG_COMMITS of 0x1030:05 (R487). -/
def kConfigCommits : Nat := key 0x1030 5

/-- CONFIG_DROPPED of 0x1030:06 (R487). -/
def kConfigDropped : Nat := key 0x1030 6

/-- MODULE_STATE of 0x2000:01 (R487). -/
def kModuleState : Nat := key 0x2000 1

/-- MODULE_TIME of 0x2000:02 (R487). -/
def kModuleTime : Nat := key 0x2000 2

/-- BAR2_BASE of 0x2040:01 (R487). -/
def kBar2Base : Nat := key 0x2040 1

/-- CLELLIUL_REQUESTS of 0x9038:01 (R489). -/
def kClelliulRequests : Nat := key 0x9038 1

/-- CLELLIUL_DUPLICATES of 0x9038:02 (R489). -/
def kClelliulDuplicates : Nat := key 0x9038 2

/-- CLELLIUL_ABORTS of 0x9038:03 (R489). -/
def kClelliulAborts : Nat := key 0x9038 3

/-- CLELLIUL_DISCARDED of 0x9038:04 (R489). -/
def kClelliulDiscarded : Nat := key 0x9038 4

/-- TRANSFER_TIMEOUTS of 0x9038:05 (R489). -/
def kTransferTimeouts : Nat := key 0x9038 5

/-- NOTICES_SENT of 0x9038:06 (R489). -/
def kNoticesSent : Nat := key 0x9038 6

/-- NOTICES_DROPPED of 0x9038:07 (R489). -/
def kNoticesDropped : Nat := key 0x9038 7

/-- MAILBOX_OPERATIONS of 0x9038:08 (R489). -/
def kMailboxOperations : Nat := key 0x9038 8

/-- IDENTITY_KEY of 0x8000:01 (R521). -/
def kIdentityKey : Nat := key 0x8000 1

/-- IDENTITY_KEY_DIGEST of 0x8000:02 (R521). -/
def kIdentityKeyDigest : Nat := key 0x8000 2

/-- DEVICE_CERT of 0x8000:03 (R521). -/
def kDeviceCert : Nat := key 0x8000 3

/-- ALIAS_CERT of 0x8000:04 (R521). -/
def kAliasCert : Nat := key 0x8000 4

/-- FW_KEY_DIGESTS of 0x8000:05 (R521). -/
def kFwKeyDigests : Nat := key 0x8000 5

/-- FW_KEY_REVOKED of 0x8000:06 (R521). -/
def kFwKeyRevoked : Nat := key 0x8000 6

/-- SVN_FLOOR of 0x8000:07 (R521). -/
def kSvnFloor : Nat := key 0x8000 7

/-- BOOT_COUNT of 0x8000:08 (R521). -/
def kBootCount : Nat := key 0x8000 8

/-- SECURITY_POLICY of 0x8000:09 (R521). -/
def kSecurityPolicy : Nat := key 0x8000 9

/-- DEBUG_STATE of 0x8000:0A (R521). -/
def kDebugState : Nat := key 0x8000 10

/-- FW_SLOT_IN_FORCE of 0x8010:01 (R521). -/
def kFwSlotInForce : Nat := key 0x8010 1

/-- FW_SLOT_A of 0x8010:02 (R521). -/
def kFwSlotA : Nat := key 0x8010 2

/-- FW_SLOT_B of 0x8010:03 (R521). -/
def kFwSlotB : Nat := key 0x8010 3

/-- FW_STAGE_OFFSET of 0x8010:04 (R521). -/
def kFwStageOffset : Nat := key 0x8010 4

/-- FW_STAGE_DATA of 0x8010:05 (R521). -/
def kFwStageData : Nat := key 0x8010 5

/-- FW_STAGE_FROM of 0x8010:06 (R521). -/
def kFwStageFrom : Nat := key 0x8010 6

/-- FW_INSTALL of 0x8010:07 (R521). -/
def kFwInstall : Nat := key 0x8010 7

/-- FW_STATE of 0x8010:08 (R521). -/
def kFwState : Nat := key 0x8010 8

/-- FW_REJECT of 0x8010:09 (R521). -/
def kFwReject : Nat := key 0x8010 9

/-- FW_CONFIRM of 0x8010:0A (R521). -/
def kFwConfirm : Nat := key 0x8010 10

/-- ATTEST_NONCE of 0x8020:01 (R521). -/
def kAttestNonce : Nat := key 0x8020 1

/-- ATTEST_REPORT of 0x8020:02 (R521). -/
def kAttestReport : Nat := key 0x8020 2

/-- BOOT_STAGE of 0x8030:01 (R521). -/
def kBootStage : Nat := key 0x8030 1

/-- REFUSE_CHALLENGE of 0x8030:02 (R521). -/
def kRefuseChallenge : Nat := key 0x8030 2

/-- REFUSE_TOKEN of 0x8030:03 (R521). -/
def kRefuseToken : Nat := key 0x8030 3

/-- REFUSE_STATE of 0x8030:04 (R521). -/
def kRefuseState : Nat := key 0x8030 4

/-- DEBUG_TOKEN of 0x8030:05 (R521). -/
def kDebugToken : Nat := key 0x8030 5

/-- REFUSES of 0x8030:06 (R521). -/
def kRefuses : Nat := key 0x8030 6

/-- ENVELOPE_STATE of 0x3000:01 (R552). -/
def kEnvelopeState : Nat := key 0x3000 1

/-- WARNING_POINTS of 0x3000:02 (R552). -/
def kWarningPoints : Nat := key 0x3000 2

/-- ENVELOPE_LIMITS of 0x3000:03 (R552). -/
def kEnvelopeLimits : Nat := key 0x3000 3

/-- ALERT_MASK of 0x3000:04 (R552). -/
def kAlertMask : Nat := key 0x3000 4

/-- FLOW_HEAT_CAPACITY of 0x3000:05 (R552). -/
def kFlowHeatCapacity : Nat := key 0x3000 5

/-- LAST_SHUTDOWN of 0x3000:06 (R552). -/
def kLastShutdown : Nat := key 0x3000 6

/-- RAIL_STATE of 0x3010:01 (R552). -/
def kRailState : Nat := key 0x3010 1

/-- RAIL_PHASES of 0x3010:02 (R552). -/
def kRailPhases : Nat := key 0x3010 2

/-- MEAS_SEL of 0x9000:01 (R553). -/
def kMeasSel : Nat := key 0x9000 1

/-- MEAS_VALUE of 0x9000:02 (R553). -/
def kMeasValue : Nat := key 0x9000 2

/-- MEAS_MIN of 0x9000:03 (R553). -/
def kMeasMin : Nat := key 0x9000 3

/-- MEAS_MAX of 0x9000:04 (R553). -/
def kMeasMax : Nat := key 0x9000 4

/-- MEAS_ALL of 0x9000:05 (R553). -/
def kMeasAll : Nat := key 0x9000 5

/-- V_IN of 0x9001:01 (R553). -/
def kVIn : Nat := key 0x9001 1

/-- I_IN of 0x9001:02 (R553). -/
def kIIn : Nat := key 0x9001 2

/-- P_IN of 0x9001:03 (R553). -/
def kPIn : Nat := key 0x9001 3

/-- T_INLET of 0x9001:04 (R553). -/
def kTInlet : Nat := key 0x9001 4

/-- T_OUTLET of 0x9001:05 (R553). -/
def kTOutlet : Nat := key 0x9001 5

/-- FLOW_EST of 0x9001:06 (R553). -/
def kFlowEst : Nat := key 0x9001 6

/-- T_DIE_MAX of 0x9001:07 (R553). -/
def kTDieMax : Nat := key 0x9001 7

/-- POWERED_HOURS of 0x9002:01 (R553). -/
def kPoweredHours : Nat := key 0x9002 1

/-- ENERGY_LIFETIME of 0x9002:02 (R553). -/
def kEnergyLifetime : Nat := key 0x9002 2

/-- HOURS_INLET_MARGINAL of 0x9002:03 (R553). -/
def kHoursInletMarginal : Nat := key 0x9002 3

/-- DIE_TEMP_PEAK of 0x9002:04 (R553). -/
def kDieTempPeak : Nat := key 0x9002 4

/-- ENVELOPE_SHUTDOWNS of 0x9002:05 (R553). -/
def kEnvelopeShutdowns : Nat := key 0x9002 5

/-- ENVELOPE_TRIPS of 0x9002:06 (R553). -/
def kEnvelopeTrips : Nat := key 0x9002 6

end Sys2Proof.Machine
end

