-- ==== Sys2Proof/Machine/SMap.lean ====
section
/-! DEFINITION. Sparse tables: a list of keys and values in one canonical form (keys strictly rising, no entry equal to
what an unlisted key reads as). Equal tables are equal lists. Used for every large uniform piece of state. -/

namespace Sys2Proof.Machine

abbrev SMap (α : Type) := List (Nat × α)

/-- What the table reads at `k`; an unlisted key reads `d`. -/
def SMap.get {α : Type} (d : α) : SMap α → Nat → α
  | [], _ => d
  | (j, v) :: m, k => if j = k then v else SMap.get d m k

/-- Remove what is listed at `k`. -/
def SMap.erase {α : Type} : SMap α → Nat → SMap α
  | [], _ => []
  | (j, v) :: m, k => if j = k then SMap.erase m k else (j, v) :: SMap.erase m k

/-- List `v` at `k`, whatever it is. -/
def SMap.insert {α : Type} : SMap α → Nat → α → SMap α
  | [], k, v => [(k, v)]
  | (j, w) :: m, k, v =>
    if j = k then (k, v) :: m else if k < j then (k, v) :: (j, w) :: m else (j, w) :: SMap.insert m k v

/-- Write `v` at `k`, keeping the canonical form for the default `d`. -/
def SMap.set {α : Type} [DecidableEq α] (d : α) (m : SMap α) (k : Nat) (v : α) : SMap α :=
  if v = d then SMap.erase m k else SMap.insert m k v

/-- The canonical form: keys strictly rising from `lo`, no default listed. -/
def SMap.wfFrom {α : Type} [DecidableEq α] (d : α) : Nat → SMap α → Bool
  | _, [] => true
  | lo, (j, v) :: m => decide (lo ≤ j) && !decide (v = d) && SMap.wfFrom d (j + 1) m

def SMap.wf {α : Type} [DecidableEq α] (d : α) (m : SMap α) : Bool := SMap.wfFrom d 0 m

/-- Keep only the keys that pass the test. -/
def SMap.keep {α : Type} (p : Nat → Bool) (m : SMap α) : SMap α := m.filter (fun x => p x.1)

/-- Set every key of a range `[k, k + n)` to the values of `f`. -/
def SMap.setRange {α : Type} [DecidableEq α] (d : α) (m : SMap α) (k : Nat) : Nat → (Nat → α) → SMap α
  | 0, _ => m
  | n + 1, f => SMap.set d (SMap.setRange d m k n f) (k + n) (f n)

end Sys2Proof.Machine
end

