-- ==== Sys2Proof/Machine/Memory.lean ====
section
/-! DEFINITION. Byte memories in one canonical form: addresses strictly rising, no entry equal to what an unlisted
address reads as. An unlisted byte reads 0: R494 writes every line of device memory and every bench store with zeros at
power-up. Lines of 64 bytes carry a poison mark (R111, R257), kept as the rising list of the poisoned line numbers. -/

namespace Sys2Proof.Machine

abbrev Memory := List Host.Cell

def Memory.wf (m : Memory) : Bool := SMap.wf (0 : Byte) m

def Memory.byte (m : Memory) (a : Nat) : Byte := SMap.get (0 : Byte) m a

def Memory.setByte (m : Memory) (a : Nat) (v : Byte) : Memory := SMap.set (0 : Byte) m a v

/-- `n` bytes from `a`, in address order. -/
def Memory.bytes (m : Memory) (a n : Nat) : List Byte := (List.range n).map (fun i => Memory.byte m (a + i))

/-- Write the bytes in address order from `a`. -/
def Memory.setBytes (m : Memory) (a : Nat) : List Byte → Memory
  | [] => m
  | b :: bs => Memory.setBytes (Memory.setByte m a b) (a + 1) bs

/-- A set of numbers as a rising list. -/
abbrev NSet := List Nat

def NSet.mem (s : NSet) (k : Nat) : Bool := s.contains k

def NSet.add : NSet → Nat → NSet
  | [], k => [k]
  | j :: s, k => if k = j then j :: s else if k < j then k :: j :: s else j :: NSet.add s k

def NSet.del (s : NSet) (k : Nat) : NSet := s.filter (fun j => j ≠ k)

/-- Mark or clear one number. -/
def NSet.put (s : NSet) (k : Nat) (b : Bool) : NSet := if b then NSet.add s k else NSet.del s k

end Sys2Proof.Machine
end

