-- ==== Sys2Proof/Machine/State.lean ====
section
/-! DEFINITION. The state of the module as plain data. The home of every fixed-size dictionary entry is the table `dict`,
keyed by 256 * index + subindex, with the card's default for what is not listed (Machine/Cards.lean); the structures below
hold what has no entry of its own. Large uniform pieces are sparse tables (Machine/SMap.lean). -/

namespace Sys2Proof.Machine

/-- What is blown into fuses (R12, R119, R508, R509, R514). A fused value never goes back (R20). -/
structure Fuses where
  serial : Nat
  hwRevision : Nat
  levels : Nat
  svnFloor : Nat
  keysRevoked : Nat
  refuses : Nat
  /-- FACE_REPAIR entries by bench, ROWS_USED, COLS_USED and FIELD_FUSED bits (R119). -/
  faceRepair : SMap Nat
  deviceSeed : List Byte
  keyDigests : List Byte
  deriving DecidableEq, Repr

/-- States of a chain on one of its units (R138). -/
inductive ChainState where
  | idle | running | polling | halted | faulted
  deriving DecidableEq, Repr

/-- A command word a unit has been given: its chain and cursor, sequence number, address, bits and segment (R125, R415). -/
structure Cmd where
  k : ChainId
  u : Nat
  seq : Nat
  addr : Nat
  word : Nat
  kind : Nat
  step : Nat
  segId : Nat
  /-- The header wait has been released (R127). -/
  released : Bool
  deriving DecidableEq, Repr

/-- How a HAUL ended, for the completion record it owes (R178): its channel, status, bytes and failed address. -/
structure HaulEnd where
  h : Nat
  ch : Nat
  status : Nat
  poison : Bool
  bytes : Nat
  addr : Nat
  unit : Nat
  space : Nat
  guardSent : Bool
  deriving DecidableEq, Repr

/-- A command issued and not yet reported (R141): whether a SIGNAL has been executed, whether its work has ended, whether
its report has begun (a SIGNAL sent, a LINK word's segment ended), and the record a HAUL owes. -/
structure Outst where
  seq : Nat
  word : Nat
  addr : Nat
  ready : Bool
  fin : Bool
  fired : Bool
  haul : Option HaulEnd
  deriving DecidableEq, Repr

/-- Where one unit stands in a chain: each bench of a lift has its own (R123), other engines one. -/
structure Cursor where
  state : ChainState
  pos : Nat
  expSeq : Nat
  /-- The next word must be SEGMENT (R132). -/
  atStart : Bool
  /-- The chain stands at this LINK word, its header checked (R135). -/
  atLink : Bool
  /-- Words a SELECT still skips (R149). -/
  skip : Nat
  /-- A control command is incomplete: its header wait, its WAIT, or its SIGNAL (R140). -/
  ctl : Option Cmd
  /-- CMD_SEQ of a NOP or WAIT executed and not yet reported, which is not complete (R128, R140). -/
  held : Option Nat
  doneSeq : Nat
  /-- Words reported since START; the lift's CHAIN_DONE_SEQ is that of the bench with the fewest (R141). -/
  doneCount : Nat
  outst : List Outst
  haltReq : Bool
  /-- The segment in which the cursor reads: kind, step, identifier. -/
  kind : Nat
  step : Nat
  segId : Nat
  /-- CMD_SEQ of the SEGMENT word of the segment read. -/
  seg0 : Nat
  /-- A proof block must end before this bench goes on (R427). -/
  proof : Bool
  /-- When the LINK word was last read, for POLL_INTERVAL (R135). -/
  polledAt : Nat
  deriving DecidableEq, Repr

/-- An armed segment of a chain's gauge (R144 to R147, R422 to R426). -/
structure Seg where
  seq0 : Nat
  endSeq : Option Nat
  deadline : Nat
  extended : Nat
  missed : Bool
  hung : Bool
  kind : Nat
  step : Nat
  segId : Nat
  rerunAllow : Nat
  rerunCap : Nat
  reruns : Nat
  selected : List Nat
  /-- The cursors on which every command before the LINK word has been reported. -/
  doneBy : List Nat
  /-- Held from this time for the outcome of a vote (R357). -/
  heldAt : Option Nat
  recutExtended : Bool
  deriving DecidableEq, Repr

structure Seqs where
  /-- Cursors by (34p + e)*4 + c, times 96, plus the lift-relative bench. -/
  cursors : SMap Cursor
  gauges : SMap (List Seg)
  /-- CHAIN_HEAD, CHAIN_SEQ0, POLL_INTERVAL and WAIT_TIMEOUT_DEFAULT as taken at START from IDLE (R161): poll, timeout. -/
  taken : SMap (Nat × Nat)
  deriving DecidableEq, Repr

/-- SPECIAL of a lane (R63). -/
inductive Special where
  | none | pinf | ninf | nan
  deriving DecidableEq, Repr

/-- One lane: ACC in units of 2^-14, EREF, EMPTY and SPECIAL (R51, R52, R63). -/
structure Lane where
  acc : Int
  eref : Int
  empty : Bool
  special : Special
  deriving DecidableEq, Repr

def Lane.start : Lane := { acc := 0, eref := 0, empty := true, special := .none }

/-- States of an accumulation slot (R88). -/
inductive SlotState where
  | free | preload | accum | held | drain
  deriving DecidableEq, Repr

structure Slot where
  state : SlotState
  cmd : Option Cmd
  /-- FP32 values by 4096*face + 64*row + column, after final promotion and H + T (R55, R61). -/
  vals : SMap Nat
  sat : Bool
  promoOvf : Bool
  nonfiniteIn : Bool
  poison : Bool
  /-- Address of a poisoned line the tile consumed. -/
  srcAddr : Nat
  /-- Start order among the slots of the bench that are in use. -/
  ord : Nat
  deriving DecidableEq, Repr

/-- Activity of faces or vector unit (R90, R96). -/
inductive Activity where
  | run | fill | rampDown | resting | rampUp
  deriving DecidableEq, Repr

structure Act where
  state : Activity
  level : Nat
  deriving DecidableEq, Repr

/-- A tile, or part of one, in a conveyor inbox: chain, sequence, rows received so far and their values. -/
structure InTile where
  face : Nat
  chain : Nat
  seq : Nat
  src : Nat
  rows : Nat
  vals : List Nat
  flags : Nat
  poison : Bool
  deriving DecidableEq, Repr

/-- A conveyor segment on its way: receiver and the header fields of R105 with its 64 values. -/
structure ConvSeg where
  dst : Nat
  hdr : Nat
  vals : List Nat
  deriving DecidableEq, Repr

structure Bench where
  matQ : List Cmd
  vecQ : List Cmd
  faces : Act
  vec : Act
  inbox : List InTile
  /-- The bench has run a real pass since its reset; FILL then replays it instead of 0x5A5A (R92). -/
  ranPass : Bool
  /-- The operands of the last real pass in the order of their cycles: weights, then the activations of each face (R92). -/
  replay : List Nat
  /-- A proof block in progress: partition, lift, chain, step (R427). -/
  proof : Option (ChainId × Nat)
  /-- Scalar controller registers (R82). -/
  scalar : SMap Nat
  deriving DecidableEq, Repr

/-- Benches by place: physical bench b at place b; the saved image of logical bench l of partition p, while its tenant is
not resident, at place 96 + 96p + l (R403). -/
structure Benches where
  unit : SMap Bench
  store : Memory
  storePoison : NSet
  vregs : SMap (List Word32)
  masks : SMap Nat
  slots : SMap Slot
  /-- Lanes by 32768*place + 16384*tail + 4096*face + 64*row + column, as the last tile left them (R52, R61). -/
  lanes : SMap Lane
  tilesSent : SMap Nat
  tilesRecv : SMap Nat
  /-- Conveyor credits a predecessor may use, by 4*place + face; 2 when all are home (R104). -/
  credits : SMap Nat
  convFlight : List ConvSeg
  creditFlight : List (Nat × Nat)
  /-- Faces with a defect no spare covers, by 4*bench + face (R116). -/
  unrepaired : NSet
  deriving DecidableEq, Repr

/-- States of a haul channel, in the order of their codes (R182). -/
inductive ChanState where
  | idle | active | closing | pausing | paused | stopped | aborting
  deriving DecidableEq, Repr

structure Chan where
  state : ChanState
  cur : Option Cmd
  queued : Option Cmd
  /-- Pieces of the source whose reads have been issued, pieces of the destination sent, and destination bytes written and
  acknowledged (R185, R186). -/
  nRead : Nat
  nSent : Nat
  bytesDone : Nat
  /-- Source bytes read and not yet let go, by stream place, and the places whose line was poisoned (R189). -/
  data : SMap Byte
  bad : NSet
  /-- Some destination line was marked poisoned. -/
  poison : Bool
  guardSent : Bool
  /-- The last write is acknowledged (R175). -/
  lastAcked : Bool
  /-- What the read-back returned: its status, and whether the line is poisoned (R176). -/
  readback : Option (Nat × Bool)
  /-- The transfer has ended; its record waits for its turn (R141) or for a slot, and the channel stays CLOSING (R182). -/
  ended : Bool
  /-- A full queue holds the record (R181). -/
  full : Bool
  /-- Records of commands that ended in error, which wait for a queue slot alone (R181). -/
  owed : List (Cmd × HaulEnd)
  /-- The teardown in progress has put a record into the spill entry (R191). -/
  spilled : Bool
  deriving DecidableEq, Repr

/-- A hardware stop of a haul engine (R187): failed address, unit, space, direction, status and the partition charged. -/
structure HaulStop where
  addr : Nat
  unit : Nat
  space : Nat
  write : Bool
  status : Nat
  p : Nat
  deriving DecidableEq, Repr

structure Tally where
  count : Nat
  overflowed : Bool
  ptr : Nat
  deriving DecidableEq, Repr

/-- A posted wait (R202): which tally, how, how much, how long, since when; `latch` is its release. -/
structure Wait where
  vt : Nat
  pt : Nat
  kind : Nat
  thresh : Nat
  timeout : Nat
  postedAt : Nat
  latch : Bool
  /-- Ended as by an expired timeout on an OVERFLOWED tally (R199). -/
  ended : Bool
  deriving DecidableEq, Repr

/-- A signal on its way to its home (R204): partition, identifier, count, payload, source. -/
structure Signal where
  p : Nat
  vt : Nat
  count : Nat
  payload : Nat
  /-- The partition epoch under which it set out (R214). -/
  epoch : Nat
  /-- Chip of a remote sender; none for a local one. -/
  chip : Option Nat
  guard : Bool
  /-- The command that signals, when a chain of this module does. -/
  cmd : Option Cmd
  /-- That command is a SIGNAL, which completes when the count is applied (R196). -/
  completes : Bool
  deriving DecidableEq, Repr

/-- What the peek entries hold of a tally, taken at one moment (R228): COUNT, STATE and the waiter identifiers. -/
structure Peek where
  count : Nat
  state : Nat
  waiters : List Nat
  deriving DecidableEq, Repr

structure Tallies where
  cell : SMap Tally
  waits : SMap Wait
  flight : List Signal
  /-- Translation tables by 4096*p + v (R209). -/
  map : SMap Nat
  /-- Barrier slots by 64*p + slot: in flight, accumulated payload, grant taken with its payload (R219). -/
  inFlight : NSet
  payload : SMap Nat
  granted : SMap (Option Nat)
  /-- The peek entries of each partition (R227, R228). -/
  peek : SMap Peek
  deriving DecidableEq, Repr

/-- States of a pseudo-channel, in the order of their codes (R260). -/
inductive PcState where
  | online | retraining | lost | relieved | test
  deriving DecidableEq, Repr

/-- On whose behalf an access waits, and what it will do. -/
inductive HeldFor where
  /-- A request that came in at a port, for partition `p`; it holds so many credits of its lane's reserve and of the pool. -/
  | port (n p : Nat) (pkt : Packet) (own shared : Nat)
  /-- A request of the module to itself, outstanding under a tag, for partition `p`. -/
  | own (tag p : Nat) (pkt : Packet)
  | host (op : Bar2Op)
  /-- Sums for the staging of partition `p`. -/
  | stage (p : Nat) (data : List Byte)
  /-- The outcome word of a vote's command. -/
  | outcome (c : Cmd) (word : Nat)
  /-- A record that the module writes. -/
  | post (data : List Byte)
  deriving DecidableEq, Repr

/-- An access that waits, with the range it touches. -/
structure Held where
  off : Nat
  len : Nat
  what : HeldFor
  deriving DecidableEq, Repr

structure Mem where
  /-- The reserve bed size in force, GiB per stack (R234). -/
  bedGib : Nat
  /-- Bytes by ((12k + s) * 3145728 + position) * 256 + byte. -/
  hbm : Memory
  poison : NSet
  pcState : SMap PcState
  /-- State to return to after a TEST, by channel number. -/
  pcBefore : SMap PcState
  retrainAt : SMap Nat
  retrainWaiting : List Nat
  /-- Writes held with an exhausted parity retry, stored poisoned after the retrain (R247): data and byte enables by line. -/
  heldWrites : SMap (Option (Nat × Nat))
  /-- Accesses that wait in the controllers' queues, oldest first (R245, R250, R262, R265). -/
  held : List Held
  /-- Lines that came back poisoned to a port or the host, whose answer will carry it (R247, R258). -/
  carried : List (Requester × Nat)
  parityTimes : SMap (List Nat)
  /-- Outer-code corrections of a row since its last remap, by ((12k + s)*64 + bank)*12288 + row (R249). -/
  rowCe : SMap Nat
  /-- Rows being copied to a spare (R250): row key, repeat, trigger. -/
  remapping : SMap (Option (Nat × Nat))
  /-- Soft-remap table: row key to spare number of its pool (R250). -/
  softRemap : SMap (Option Nat)
  /-- Spares of a pool in use, by channel number. -/
  sparesUsed : SMap NSet
  pendingRepairs : List Nat
  retired : List Nat
  /-- Checkpoint-warning causes already raised per stack since the last module reset (R256). -/
  warned : NSet
  /-- LOST channel waiting for relief, and relief population in progress, by stack. -/
  reliefWanted : SMap (Option Nat)
  populating : NSet
  /-- Stacks to return to ONLINE at the next power cycle (R269). -/
  reliefClear : NSet
  /-- Traffic generator (R270, R272): stacks running, results by 64*stack + pc (256-bit records), full passes since reset. -/
  tgRunning : NSet
  tgResult : SMap Nat
  tgPassed : NSet
  deriving DecidableEq, Repr

/-- What an outstanding fabric request is for (R294). -/
inductive ReqFor where
  /-- `n` pieces of the destination from `item` on. -/
  | haulWrite (h ch item n : Nat)
  | haulRead (h ch item : Nat)
  | haulReadback (h ch : Nat)
  | signal (cmd : Cmd)
  | exchange (p : Nat)
  | bedWrite (p : Nat)
  | digestRec (p kind : Nat)
  | mirror (p step lines : Nat)
  | ckpt (p : Nat)
  deriving DecidableEq, Repr

structure Req where
  what : ReqFor
  p : Nat
  pkt : Packet
  sentAt : Nat
  port : Nat
  /-- NOT_READY was answered at this time; the packet waits for its retry (R339). -/
  notReadyAt : Option Nat
  deriving DecidableEq, Repr

/-- What a port tells its neighbour by control frames (R278, R283, R286, R303, R307): a frame to be replayed, a substitution asked
for, credits granted, revoked and given back. -/
inductive Control where
  | nak (frame : Nat)
  | substitute (f : LaneFault)
  | grant (vl reserve pool : Nat)
  | revoke (vl : Nat)
  | credits (vl reserve pool : Nat)
  deriving DecidableEq, Repr

structure Port where
  trainedAt : Nat
  /-- End of training or commit from which DISCOVERY_WAIT runs (R308). -/
  waitFrom : Nat
  ident : Option Nat
  /-- A hold-off in progress: when the IDENT is due (R304). -/
  identDue : Option Nat
  lastIdent : Option Nat
  lastProbe : Nat
  txq : SMap (List Packet)
  ptr : Nat
  reserve : SMap Nat
  pool : Nat
  /-- CREDIT_SPLIT in force since link training, VL0 to VL3 and the pool (R287). -/
  split : List Nat
  nextFrame : Nat
  retry : List (Nat × Packet)
  replays : SMap Nat
  retrains : List Nat
  retraining : Bool
  /-- Receive lanes failed and asked to be substituted. -/
  wanted : List LaneFault
  /-- Frames accepted, by number, of the half of the numbers before the next (R283). -/
  rxSeen : NSet
  /-- Credits that the neighbour holds, of each lane's reserve and of the pool. -/
  granted : SMap Nat
  grantedPool : Nat
  /-- Control frames sent, oldest first. -/
  control : List Control
  /-- Codewords of the last 1 ms that could not be corrected: time, and fibre and lane (R278). -/
  badWords : List (Nat × Nat)
  /-- Since when packets have waited for credits alone (R318). -/
  stallAt : Option Nat
  /-- Receive faults of the last 1 ms: time, and fibre and lane (R278). -/
  rxFails : List (Nat × Nat)
  /-- TIME exchange: last T_SEND of the neighbour, arrival time, last transmission (R314). -/
  timeEcho : Nat
  timeArr : Nat
  timeSent : Option Nat
  violationAt : Option Nat
  malformedAt : Option Nat
  unrepViolation : Nat
  unrepMalformed : Nat
  downAt : Nat
  deriving DecidableEq, Repr

structure Coords where
  chip : Nat
  planeMask : Nat
  buddy : Nat
  dedup : Nat
  mparts : Nat
  minPorts : Nat
  planPorts : Nat
  deriving DecidableEq, Repr

structure Fabric where
  ports : SMap Port
  reqs : SMap (Option Req)
  nextTag : Nat
  coords : Coords
  routes : SMap Nat
  /-- Greatest epoch bound to a machine partition since the last module reset (R312). -/
  epochs : SMap Nat
  timeSynced : Bool
  timeBad : Nat
  /-- Correction of module time still to be slewed in, ns, and when it was last set (R315). -/
  slew : Int
  slewAt : Nat
  /-- The rotation over ports of each engine (R298). -/
  portPtr : SMap Nat
  deriving DecidableEq, Repr

/-- One hopper in exchange (R328, R338, R339). -/
structure Hopper where
  cmd : Cmd
  rank : Nat
  chips : List Nat
  /-- Packets held of the contributions to the own shard, by rank, and of the sums, by shard: packet number and payload. -/
  contrib : SMap (List (Nat × List Byte))
  sums : SMap (List (Nat × List Byte))
  /-- The own shard has been summed; the shards whose sums are in staging. -/
  summed : Bool
  sumsDone : NSet
  /-- Packets not yet sent: target chip and payload. -/
  toSend : List (Nat × List Byte)
  /-- The engine has read the hopper and its fines; until then it only takes contributions. -/
  read : Bool
  deriving DecidableEq, Repr

/-- A mirror in progress (R364, R365): the step, pieces not yet sent (source, offset in the mirror slot, lines), and whether
the fines and the header have been sent. -/
structure Mirror where
  step : Nat
  todo : List (Nat × Nat × Nat)
  finesIn : Bool
  header : Bool
  deriving DecidableEq, Repr

/-- A vote in progress (R157, R357). -/
structure VoteRun where
  cmd : Cmd
  step : Nat
  forceFail : Bool
  sent : Bool
  deriving DecidableEq, Repr

structure Grader where
  tiles : Nat
  elements : Nat
  clip : Nat
  uflow : Nat
  amax : Nat
  flags : Nat
  recordedAt : Option Nat
  unreported : Nat
  deriving DecidableEq, Repr

/-- A tile report on its way to a grader (R348). -/
structure Report where
  p : Nat
  g : Nat
  clip : Nat
  uflow : Nat
  amax : Nat
  flags : Nat
  elements : Nat
  deriving DecidableEq, Repr

/-- Training work of one partition beside its dictionary entries. -/
structure Train where
  xq : List Cmd
  hopper : Option Hopper
  vote : Option VoteRun
  /-- The step whose vote has been sent and whose outcome is awaited. -/
  voteSent : Option Nat
  /-- Causes of R356 with no entry of their own: BED_SHORT, channel lost, FABRIC_SHORT, recut mismatch, buddy digest
  differs. -/
  bedShort : Bool
  chanLost : Bool
  fabricShort : Bool
  recutFail : Bool
  digestFail : Bool
  /-- Digest inbox: buddy comparison done for this step. -/
  digestSeen : Option Nat
  /-- Fines halves written in the step, address and bytes in the order of their commands; those in force; those that were in force
  for the step before (R365, R366). -/
  finesNew : List (Nat × Nat)
  finesOf : List (Nat × Nat)
  finesPrev : List (Nat × Nat)
  /-- Hoppers read in the step: identifier and content (R367). -/
  contribBytes : List (Nat × List Byte)
  /-- Corrected-error count when the step began, and whether it has reached its limit since (R368). -/
  ceBase : Nat
  ceFired : Bool
  /-- Stockpile slots granted since ADMIT (R363), and a grant not yet taken. -/
  stockGrants : Nat
  mirrorWait : Nat
  /-- Steps whose mirror is acknowledged, has failed, or waits to be sent; the mirror being sent (R364 to R366). -/
  mirrored : List Nat
  mirrorBad : List Nat
  mirrorQ : List Nat
  mirror : Option Mirror
  /-- The vote sent was ordered by a reset; an outcome that arrived before its XCHG_VOTE was issued: step and word (R361). -/
  cut : Bool
  lateOutcome : Option (Nat × Nat)
  /-- A SHADOW waits for its peer's record of this step (R389). -/
  shadowWait : Bool
  /-- A pseudo-channel was lost after the vote for this step had been sent, with the record of the loss (R266). -/
  lossAt : Option (Nat × Nat)
  /-- An outcome has arrived since the last loss (R264). -/
  commitSeen : Bool
  deriving DecidableEq, Repr

/-- The bed command in execution (R375 to R377): its region entries; of a BED_STREAM the writes sent, and whether its record
has been sent and acknowledged. -/
structure BedRun where
  cmd : Cmd
  regions : List Nat
  /-- Lines a controller returned poisoned that are not poisoned in the array (R247). -/
  bad : NSet
  sent : Nat
  record : Bool
  acked : Bool
  deriving DecidableEq, Repr

/-- The checkpoint agent (R381 to R384): boundary, CKPT_SEQ, the share (first stripe, stripes, stripes of the list), its
source, the digest, and the writes sent and acknowledged. -/
structure Ckpt where
  step : Nat
  seq : Nat
  first : Nat
  count : Nat
  total : Nat
  regions : List Nat
  /-- Odd step in overflow mode: written from working state (R238). -/
  fromWork : Bool
  digest : Nat
  sent : Nat
  acked : Nat
  poisoned : Nat
  deriving DecidableEq, Repr

structure Bed where
  q : List Cmd
  run : Option BedRun
  /-- Region entries (128 bits each) of the last BED_SNAPSHOT, its list address and its step. -/
  regions : List Nat
  listAddr : Nat
  /-- A storage checkpoint is due at the boundary entering this step, with its generation (R381). -/
  ckptDue : Option (Nat × Nat)
  ckpt : Option Ckpt
  deriving DecidableEq, Repr

structure Training where
  part : SMap Train
  bed : SMap Bed
  /-- Rotating pointer of the bed engine over the partitions (R143). -/
  bedPtr : Nat
  graders : SMap Grader
  reports : List Report
  /-- Collective lists by 16*p + entry (R326). -/
  collectives : SMap (List Nat)
  deriving DecidableEq, Repr

/-- A shift request waiting for its boundary (R408). -/
structure Shift where
  action : Nat
  mode : Nat
  tenancy : Nat
  confirm : Bool
  /-- AT_BOUNDARY: COMMIT or SKIP has arrived since the request (R408). -/
  committed : Bool
  deriving DecidableEq, Repr

/-- A teardown in progress (R409): end state code, confirmation wanted, when it began, abort at once, and its reshape. -/
structure Teardown where
  endState : Nat
  confirm : Bool
  startedAt : Nat
  drain : Bool
  cutoff : Bool
  torn : Bool
  tenancy : Nat
  deriving DecidableEq, Repr

structure Part where
  shift : Option Shift
  teardown : Option Teardown
  /-- Physical benches of the hosts in host order (R399, R402). -/
  hosts : List Nat
  /-- Resident tenant by host index (R403). -/
  resident : SMap Nat
  /-- Hosts to be replaced at the next step boundary (R117): host index, new bench. -/
  remap : List (Nat × Nat)
  /-- Range held while SUSPENDED (R36): base, bytes, bed first, bed positions. -/
  heldBase : Nat
  heldBytes : Nat
  heldBedY0 : Nat
  heldBed : Nat
  deriving DecidableEq, Repr

/-- A reset in progress (R437, R446): its partitions, each with the capture taken for it. `clear`: CLEAR_TALLIES. -/
structure ResetRun where
  domain : Nat
  cause : Nat
  clear : Bool
  /-- An armed re-fuse is applied at the end of this module reset (R514). -/
  refuse : Bool
  /-- This module reset has discarded an armed token (R514). -/
  discarded : Bool
  parts : List (Nat × Nat)
  engine : Nat
  chain : Nat
  startedAt : Nat
  deriving DecidableEq, Repr

/-- A section of a capture (R436): KIND, ENTRY_BYTES, EXACT, and the values each entry holds. -/
structure Section where
  kind : Nat
  size : Nat
  exact : Bool
  entries : List (List Nat)
  deriving DecidableEq, Repr

/-- A summary capture kept (R435, R436): its identifier, header and sections. -/
structure Capture where
  id : Nat
  header : Nat
  sections : List Section
  deriving DecidableEq, Repr

structure Faults where
  /-- Fault log by place, 1024-bit records with a marker for "holds a record" (R420). -/
  log : SMap (Option Nat)
  captures : List Capture
  run : Option ResetRun
  /-- Partition resets of a Function Level Reset that came while a partition reset was in progress: they run beside it and are
  reported after it (R443). -/
  next : Option ResetRun
  lastProof : SMap Nat
  /-- Times of the last RANGE_CHECK record by bench, and counts not written (R355, R418). -/
  rangeAt : SMap (Option Nat)
  rangeUnrep : SMap Nat
  deriving DecidableEq, Repr

/-- A kept answer: service kind (response 1 or abort 2), flags and payload. -/
structure Answer where
  kind : Nat
  payload : List Byte
  flags : Nat
  transfer : Nat
  deriving DecidableEq, Repr

structure ClientState where
  c : Client
  hdr : Nat
  answer : Answer
  heard : Nat
  deriving DecidableEq, Repr

/-- An open segmented transfer (R470 to R472). -/
structure Transfer where
  id : Nat
  owner : Option Client
  write : Bool
  index : Nat
  subindex : Nat
  data : List Byte
  segs : SMap (List Byte)
  got : NSet
  lastSeg : Option Nat
  length : Nat
  crc : Nat
  heard : Nat
  deriving DecidableEq, Repr

/-- What the module sends at its boundary beside fabric packets. -/
inductive OutMsg where
  | msix (vector : Nat)
  | t1s (dst : Client) (hdr : Nat) (payload : List Byte)
  | neighborAdvert (dst : BitVec 128)
  | echoReply (dst : BitVec 128) (data : List Byte)
  | bar2 (data : List Byte) (poisoned : Bool)
  | bar2Unsupported
  deriving DecidableEq, Repr

structure Mgmt where
  clients : List ClientState
  transfers : List Transfer
  /-- Transfers closed for idleness with their owner, whose next request is answered TRANSFER_TIMEOUT (R472). -/
  timedOut : List (Option Client × Nat)
  nextTransfer : Nat
  /-- Notices unanswered: SEQ, record, sends left, sent at (R473). -/
  notices : List (Nat × Nat × Nat × Nat)
  noticeSeq : Nat
  mbxCtrl : Nat
  mbxStatus : Nat
  mbxXfer : Nat
  mbxData : List Byte
  msixTable : SMap Nat
  msixPending : NSet
  out : List OutMsg
  /-- CONFIG area (R481): slot in force, and of the two slots the sequence number plus one (0: not valid) and the values that differ from the defaults. -/
  confSlot : Nat
  confSeq : SMap Nat
  confBody : SMap (SMap Nat)
  pcieLink : Bool
  perst : Bool
  /-- The response data object that the DOE mailbox holds (R511). -/
  doe : List Byte
  /-- AER errors that the endpoint has logged (R258). -/
  aer : Nat
  /-- The function is in D3hot, which stops BAR decoding (R516), and its Bus Master Enable, which governs MSI-X (R517). -/
  d3hot : Bool
  busMaster : Bool
  deriving DecidableEq, Repr

structure Security where
  /-- Image area: byte a of slot A at a, of slot B at 71303168 + a (R498). -/
  images : Memory
  pendingValid : Bool
  pendingSlot : Bool
  tried : Bool
  trialOk : Bool
  slotInForce : Bool
  /-- Slot the running image was booted from, and its descriptor (R504). -/
  runningSlot : Bool
  runningDesc : Nat
  imageDigest : List Byte
  /-- Slot the boot ROM has chosen, and the check the other one has failed (R499, R500). -/
  bootSlot : Bool
  bootFailed : Option Nat
  /-- Something has been staged since the last FW_INSTALL or power-up; its slot. -/
  staged : Bool
  stagedSlot : Bool
  identityKey : List Byte
  attestSeed : List Byte
  attestKey : List Byte
  identityLocked : Bool
  attestLocked : Bool
  aliasCert : List Byte
  deviceCert : List Byte
  report : List Byte
  token : Option Nat
  deriving DecidableEq, Repr

/-- A measured point (R542 to R546): last value, extremes, whether it is a measurement or its sensor is excluded, since when
each of its conditions has held (time plus one, by number; 0 where it does not), whether it is in warning or in fault, and when
it last left its warning. -/
structure Point where
  value : Nat
  min : Nat
  max : Nat
  valid : Bool
  excluded : Bool
  since : SMap Nat
  warn : Bool
  fault : Bool
  clearAt : Option Nat
  deriving DecidableEq, Repr

structure Env where
  points : SMap Point
  /-- An envelope shutdown has begun, and when; it runs once (R547, R549). -/
  shutAt : Option Nat
  shutPoint : Nat
  shutSeq : Nat
  /-- The rails from k = 4 upward are off after a shutdown or a trip. -/
  railsOff : Bool
  /-- When a rail that ramps was enabled (R537). -/
  railAt : SMap Nat
  /-- When the boot stage in progress began (R490). -/
  stageAt : Nat
  /-- MOD_FATAL_N is asserted (R532). -/
  fatalLow : Bool
  /-- What the lifetime counters of *Measurement entries* have not yet counted: ns powered, ns marginal, microjoules. -/
  uptime : Nat
  marginal : Nat
  energy : Nat
  deriving DecidableEq, Repr

/-- Everything of the module that is not a fuse. -/
structure Dev where
  powered : Bool
  time : Nat
  /-- How many free values have been drawn; advances with each draw (MODEL's own, log 5). -/
  draws : Nat
  dict : SMap Nat
  seqs : Seqs
  benches : Benches
  haul : SMap Chan
  /-- The error responses of haul engines whose stop is draining, oldest first (R187). -/
  haulStop : SMap (List HaulStop)
  tallies : Tallies
  mem : Mem
  fabric : Fabric
  training : Training
  parts : SMap Part
  faults : Faults
  mgmt : Mgmt
  sec : Security
  env : Env
  deriving DecidableEq, Repr

/-- The block: the waiting commands, first in, first out, the fuses and the module. -/
structure State where
  pending : List Instr
  fuses : Fuses
  dev : Dev
  deriving DecidableEq, Repr

/-- Why a run may stop. -/
inductive Fault where
  /-- Raised by MEMORY_ACCESS and SCRUB for a position beyond 3,145,727, which no pseudo-channel has (R230); safe. -/
  | noSuchPosition
  deriving DecidableEq, Repr

/-- Why a command has no meaning. -/
inductive Refusal where
  /-- Raised by an arm of `exec` whose meaning is not written; safe. -/
  | notModelled (mnemonic : String)
  deriving DecidableEq, Repr

/-! What the sparse tables read where nothing is listed: every unit idle, as a module reset leaves it (R444). -/

def Act.start : Act := { state := .resting, level := 0 }

def Bench.idle : Bench :=
  { matQ := [], vecQ := [], faces := Act.start, vec := Act.start, inbox := [], ranPass := false, replay := [],
    proof := none, scalar := [] }

def Slot.empty : Slot :=
  { state := .free, cmd := none, vals := [], sat := false, promoOvf := false, nonfiniteIn := false, poison := false,
    srcAddr := 0, ord := 0 }

def Cursor.idle : Cursor :=
  { state := .idle, pos := 0, expSeq := 0, atStart := true, atLink := false, skip := 0, ctl := none, held := none,
    doneSeq := 0, doneCount := 0, outst := [], haltReq := false, kind := 0xF, step := 0, segId := 0, seg0 := 0, proof := false, polledAt := 0 }

def Chan.idle : Chan :=
  { state := .idle, cur := none, queued := none, nRead := 0, nSent := 0, bytesDone := 0, data := [], bad := [],
    poison := false, guardSent := false, lastAcked := false, readback := none, ended := false, full := false, owed := [],
    spilled := false }

def Tally.zero : Tally := { count := 0, overflowed := false, ptr := 0 }

def Peek.none : Peek := { count := 0, state := 0, waiters := [] }

/-- No wait posted. -/
def Wait.none : Wait :=
  { vt := 0, pt := 16384, kind := 0, thresh := 0, timeout := 0, postedAt := 0, latch := false, ended := false }

def Port.fresh : Port :=
  { trainedAt := 0, waitFrom := 0, ident := .none, identDue := .none, lastIdent := .none, lastProbe := 0, txq := [],
    ptr := 0, reserve := [], pool := 0, split := [], nextFrame := 0, retry := [], replays := [], retrains := [], retraining := false,
    wanted := [], rxSeen := [], granted := [], grantedPool := 0, control := [], badWords := [], stallAt := .none, rxFails := [], timeEcho := 0, timeArr := 0, timeSent := .none, violationAt := .none,
    malformedAt := .none, unrepViolation := 0, unrepMalformed := 0, downAt := 0 }

def Coords.none : Coords :=
  { chip := 0xFFFF, planeMask := 0, buddy := 0xFFFF, dedup := 0, mparts := 0, minPorts := 16, planPorts := 0 }

def Grader.start : Grader :=
  { tiles := 0, elements := 0, clip := 0, uflow := 0, amax := 0, flags := 0, recordedAt := .none, unreported := 0 }

def Train.start : Train :=
  { xq := [], hopper := .none, vote := .none, voteSent := .none, bedShort := false, chanLost := false,
    fabricShort := false, recutFail := false, digestFail := false, digestSeen := .none, finesNew := [], finesOf := [], finesPrev := [],
    contribBytes := [], ceBase := 0, ceFired := false, stockGrants := 0, mirrorWait := 0, mirrored := [], mirrorBad := [], mirrorQ := [],
    mirror := .none, cut := false, lateOutcome := .none, shadowWait := false, lossAt := .none,
    commitSeen := false }

def Bed.start : Bed := { q := [], run := .none, regions := [], listAddr := 0, ckptDue := .none, ckpt := .none }

def Part.start : Part :=
  { shift := .none, teardown := .none, hosts := [], resident := [], remap := [], heldBase := 0, heldBytes := 0,
    heldBedY0 := 0, heldBed := 0 }

def Point.start : Point :=
  { value := 0, min := 0, max := 0, valid := false, excluded := false, since := [], warn := false, fault := false,
    clearAt := .none }

def Seqs.reset : Seqs := { cursors := [], gauges := [], taken := [] }

def Benches.reset : Benches :=
  { unit := [], store := [], storePoison := [], vregs := [], masks := [], slots := [], lanes := [], tilesSent := [],
    tilesRecv := [],
    credits := [], convFlight := [], creditFlight := [], unrepaired := [] }

def Tallies.reset : Tallies :=
  { cell := [], waits := [], flight := [], map := [], inFlight := [], payload := [], granted := [], peek := [] }

def Mem.reset : Mem :=
  { bedGib := 16, hbm := [], poison := [], pcState := [], pcBefore := [], retrainAt := [], retrainWaiting := [], heldWrites := [],
    held := [], carried := [], parityTimes := [], rowCe := [], remapping := [], softRemap := [], sparesUsed := [], pendingRepairs := [],
    retired := [], warned := [], reliefWanted := [], populating := [], reliefClear := [], tgRunning := [],
    tgResult := [], tgPassed := [] }

def Fabric.reset : Fabric :=
  { ports := [], reqs := [], nextTag := 0, coords := Coords.none, routes := [], epochs := [], timeSynced := false,
    timeBad := 0, slew := 0, slewAt := 0, portPtr := [] }

def Training.reset : Training :=
  { part := [], bed := [], bedPtr := 0, graders := [], reports := [], collectives := [] }

def Faults.reset : Faults :=
  { log := [], captures := [], run := .none, next := .none, lastProof := [], rangeAt := [], rangeUnrep := [] }

def Mgmt.reset : Mgmt :=
  { clients := [], transfers := [], timedOut := [], nextTransfer := 1, notices := [], noticeSeq := 0, mbxCtrl := 0,
    mbxStatus := 0, mbxXfer := 0, mbxData := [], msixTable := [], msixPending := [], out := [],
    confSlot := 0, confSeq := [(0, 1)], confBody := [], pcieLink := true, perst := false, doe := [], aer := 0,
    d3hot := false, busMaster := false }

/-- Keys, certificates and images are empty byte strings where manufacture gives them (DESIGN CHOICE, log 3). -/
def Security.reset : Security :=
  { images := [], pendingValid := false, pendingSlot := false, tried := false, trialOk := false, slotInForce := false,
    runningSlot := false
    runningDesc := pack [(512, 0), (32, 1), (32, 0x01000000), (16, 1), (8, 0), (8, 0), (32, 2), (32, 0), (4, 0), (2, 0), (282, 0), (32, 1), (32, 0x494B4649)]
    imageDigest := [], bootSlot := false, bootFailed := .none, staged := false, stagedSlot := false, identityKey := [],
    attestSeed := [], attestKey := [], identityLocked := true, attestLocked := false, aliasCert := [], deviceCert := [],
    report := [], token := .none }

def Env.reset : Env :=
  { points := [], shutAt := .none, shutPoint := 0, shutSeq := 0, railsOff := false, railAt := [], stageAt := 0, fatalLow := false,
    uptime := 0, marginal := 0, energy := 0 }

/-- Phases fitted of the 33 rails (*Rails*), one byte each, rail 0 lowest. -/
def phasesFitted : Nat :=
  pack ((([1, 4, 1, 1, 4] ++ List.flatten (List.replicate 4 [1, 3, 2, 24, 3, 2, 1])).map (fun n => (8, n))).reverse)

/-- The fuses of a module (DESIGN CHOICE, log 3: the spec gives a module's fuses no values of its own beyond level 1). -/
def Fuses.made : Fuses :=
  { serial := 1, hwRevision := 0x41000101, levels := 2, svnFloor := 0, keysRevoked := 0, refuses := 0, faceRepair := [],
    deviceSeed := [], keyDigests := [] }

/-- What differs from the cards' defaults once the module runs (R444, R490): MODULE_STATE 1 STANDBY, BOOT_STAGE 9 DONE, every rail
GOOD with its phases fitted, and T1S_NODE_ID, whose straps read 1 (DESIGN CHOICE, log 3). -/
def Dev.reset : Dev :=
  { powered := true, time := 0, draws := 0
    dict := [(key 0x1010 1, 1), (key 0x2000 1, 1), (key 0x3010 1, pack (List.replicate 33 (8, 2))),
             (key 0x3010 2, phasesFitted), (key 0x8030 1, 9)]
    seqs := Seqs.reset, benches := Benches.reset, haul := [], haulStop := [], tallies := Tallies.reset, mem := Mem.reset,
    fabric := Fabric.reset, training := Training.reset, parts := [], faults := Faults.reset, mgmt := Mgmt.reset,
    sec := Security.reset, env := Env.reset }

/-- The module right after a module reset has completed (R444), with nothing waiting. -/
def State.reset : State := { pending := [], fuses := Fuses.made, dev := Dev.reset }

end Sys2Proof.Machine
end

