-- ==== Sys2Proof/Machine/Ops.lean ====
section
/-! DEFINITION. Shared operations: how a meaning acts on the state, the dictionary's entries, what the module sends, fault
records with their notices, and checkpoint warnings. -/

namespace Sys2Proof.Machine

/-- A meaning that changes the module and neither its fuses nor the queue. A module without power does nothing (R490). -/
def onDev (f : Dev → Dev) (s : State) : Host.Outcome State Fault Refusal :=
  .next (if s.dev.powered then { s with dev := f s.dev } else s)

/-- A meaning that reads the fuses as well. -/
def onFused (f : Fuses → Dev → Dev) (s : State) : Host.Outcome State Fault Refusal :=
  .next (if s.dev.powered then { s with dev := f s.fuses s.dev } else s)

/-- A meaning that may blow fuses. -/
def onAll (f : Fuses → Dev → Fuses × Dev) (s : State) : Host.Outcome State Fault Refusal :=
  .next (if s.dev.powered then { s with fuses := (f s.fuses s.dev).1, dev := (f s.fuses s.dev).2 } else s)

/-! Dictionary entries by key. -/

def Dev.get (d : Dev) (k : Nat) : Nat := SMap.get (dfltOf k) d.dict k

def Dev.put (d : Dev) (k v : Nat) : Dev := { d with dict := SMap.set (dfltOf k) d.dict k v }

/-- The dies, the stacks and the ports run: from boot stage 6 on, until the rails go off (R490, R537, R547). -/
def Dev.live (d : Dev) : Bool :=
  d.powered && !d.env.railsOff && decide (6 ≤ d.get kBootStage) && decide (d.get kBootStage ≤ 9)

/-- A meaning of what the dies, the stacks or the ports do; without their power nothing happens. -/
def onDie (f : Dev → Dev) (s : State) : Host.Outcome State Fault Refusal :=
  .next (if s.dev.live then { s with dev := f s.dev } else s)

/-- As `onDie`, reading the fuses as well. -/
def onDieFused (f : Fuses → Dev → Dev) (s : State) : Host.Outcome State Fault Refusal :=
  .next (if s.dev.live then { s with dev := f s.fuses s.dev } else s)

/-- A 64-bit counter of telemetry goes up by `n`. -/
def Dev.bump (d : Dev) (k n : Nat) : Dev := d.put k ((d.get k + n) % 2 ^ 64)

/-- A free value (log 5): the next draw. -/
def Dev.draw (d : Dev) : BitVec 256 × Dev := (Config.freeValue d.draws, { d with draws := d.draws + 1 })

/-- What the module has sent beside fabric packets, oldest first (log 7). -/
def Dev.send (d : Dev) (m : OutMsg) : Dev := { d with mgmt := { d.mgmt with out := d.mgmt.out ++ [m] } }

/-- The vector-control mask bit of an MSI-X table entry, set where nothing was written (PRESUMED, log 8: PCI Express). -/
def msixDefault : Nat := 2 ^ 96

/-- Vector `v` is raised (R479): sent, or left pending while masked or while the function is no bus master (R517; PRESUMED, log 8). -/
def Dev.msix (d : Dev) (v : Nat) : Dev :=
  if bit (SMap.get msixDefault d.mgmt.msixTable v) 96 || !d.mgmt.busMaster
  then { d with mgmt := { d.mgmt with msixPending := NSet.add d.mgmt.msixPending v } }
  else d.send (.msix v)

/-- Set a status entry, raising a vector when it changes (R479). -/
def Dev.putRaise (d : Dev) (v k x : Nat) : Dev := if d.get k = x then d else (d.put k x).msix v

/-! Partitions. -/

/-- Codes of *Partition states* (R396). -/
def psEmpty : Nat := 0
def psLoading : Nat := 1
def psAdmitted : Nat := 2
def psQuiescing : Nat := 3
def psSuspended : Nat := 4
def psRestoring : Nat := 5

def Dev.pState (d : Dev) (p : Nat) : Nat := d.get (kPartState p)

def Dev.setPState (d : Dev) (p v : Nat) : Dev := d.putRaise 3 (kPartState p) v

/-- R397: RESTORING is treated as LOADING. -/
def Dev.loading (d : Dev) (p : Nat) : Bool := d.pState p = psLoading || d.pState p = psRestoring

def Dev.emptyOrLoading (d : Dev) (p : Nat) : Bool := d.pState p = psEmpty || d.loading p

def Dev.allEmpty (d : Dev) : Bool := (List.range 4).all (fun p => d.pState p = psEmpty)

/-- Some shift status byte of a partition (R413). -/
def Dev.shiftStatus (d : Dev) (p : Nat) : Nat := fld (d.get kShiftStatus) (8 * p + 7) (8 * p)

def Dev.setShift (d : Dev) (p v : Nat) : Dev :=
  d.putRaise 1 kShiftStatus (setFld (d.get kShiftStatus) (8 * p + 7) (8 * p) v)

def Dev.setPortState (d : Dev) (n v reason : Nat) : Dev := (d.putRaise 4 (kPortState n) v).put (kPortReason n) reason

def Dev.portAdmitted (d : Dev) (n : Nat) : Bool := d.get (kPortState n) = 4

def Dev.part (d : Dev) (p : Nat) : Part := SMap.get Part.start d.parts p

def Dev.setPart (d : Dev) (p : Nat) (x : Part) : Dev := { d with parts := SMap.set Part.start d.parts p x }

def Dev.train (d : Dev) (p : Nat) : Train := SMap.get Train.start d.training.part p

def Dev.setTrain (d : Dev) (p : Nat) (x : Train) : Dev :=
  { d with training := { d.training with part := SMap.set Train.start d.training.part p x } }

def Dev.bed (d : Dev) (p : Nat) : Bed := SMap.get Bed.start d.training.bed p

def Dev.setBed (d : Dev) (p : Nat) (x : Bed) : Dev :=
  { d with training := { d.training with bed := SMap.set Bed.start d.training.bed p x } }

/-- Bits of PARTITION_FLAGS (R394). -/
def pfCheckFail : Nat := 0
def pfSuspect : Nat := 1
def pfMiss : Nat := 2
def pfPoison : Nat := 3
def pfNonfinite : Nat := 4
def pfCkpt : Nat := 5

def Dev.flag (d : Dev) (p b : Nat) : Bool := bit (d.get (kPartitionFlags p)) b

def Dev.setFlag (d : Dev) (p b : Nat) (v : Bool) : Dev :=
  d.put (kPartitionFlags p) (setBitTo (d.get (kPartitionFlags p)) b v)

/-! Fault records (R415 to R421). -/

/-- What a record's header says of where a fault arose. -/
structure Where where
  ctx : Nat
  p : Nat
  e : Nat
  c : Nat
  bench : Nat
  site : Nat
  kind : Nat
  step : Nat
  segId : Nat
  seq : Nat
  capture : Nat
  deriving DecidableEq, Repr

/-- No context, no bench, no site, no segment. -/
def noWhere : Where :=
  { ctx := 0, p := 0, e := 0xFF, c := 0, bench := 0x7F, site := 0x1F, kind := 0xF, step := 0, segId := 0, seq := 0,
    capture := 0 }

def atPart (p : Nat) : Where := { noWhere with ctx := 1, p := p }

def atEngine (p e : Nat) : Where := { noWhere with ctx := 2, p := p, e := e }

def atSite (n : Nat) : Where := { noWhere with site := n }

/-- The context of a command (CTX 3); STEP, SEG_ID and CMD_SEQ read 0 with SEG_KIND 0xF (R415). -/
def atCmd (k : ChainId) (kind step segId seq : Nat) : Where :=
  let free := kind = 0xF
  { noWhere with ctx := 3, p := k.p, e := k.e, c := k.c, kind := kind, step := if free then 0 else step,
                 segId := if free then 0 else segId, seq := if free then 0 else seq }

def recordBits (time seq type cls : Nat) (w : Where) (body : List (Nat × Nat)) : Nat :=
  let width := (body.map Prod.fst).sum
  pack body * 2 ^ (1024 - width) +
  pack [(64, time), (32, seq), (32, w.step), (32, w.segId), (32, w.seq), (12, type), (3, cls), (4, w.kind), (2, w.ctx),
        (2, w.p), (8, w.e), (2, w.c), (7, w.bench), (5, w.site), (16, w.capture), (3, 0)]

/-- The 16-byte header of a Clelliul message (R466). -/
def clHeader (kind service seq index sub len seg transfer : Nat) (segmented last : Bool) : Nat :=
  pack [(8, 0xC1), (4, 1), (4, kind), (8, service), (16, seq), (16, index), (8, sub), (16, len), (16, seg), (16, transfer),
        (6, 0), (1, b2n segmented), (1, b2n last), (8, 0)]

/-- The module transmits on T1S only in the ACTIVE state (R463). -/
def Dev.sendT1s (d : Dev) (dst : Client) (hdr : Nat) (payload : List Byte) : Dev :=
  if d.get kT1sState = 2 then d.send (.t1s dst hdr payload) else d

/-- NOTICE_TARGET as a client: 16 address bytes in network order, then the port little-endian (R487). -/
def targetOf (v : Nat) : Client :=
  { addr := BitVec.ofNat 128 (ofBytes ((toBytes v 16).reverse)), port := BitVec.ofNat 16 (fld v 143 128) }

/-- R473: a notice is sent and kept until answered; a seventeenth gives up the oldest. -/
def Dev.notify (d : Dev) (r : Nat) : Dev :=
  if d.get kNoticeTarget = 0 then d
  else
    let seq := d.mgmt.noticeSeq
    let d := d.sendT1s (targetOf (d.get kNoticeTarget)) (clHeader 3 0x0A seq 0xA000 3 128 0 0 false false) (toBytes r 128)
    let kept := d.mgmt.notices ++ [(seq, r, d.get kNoticeRetries, d.time)]
    let d := d.bump kNoticesSent 1
    let d := if 16 < kept.length then d.bump kNoticesDropped 1 else d
    let kept := if 16 < kept.length then kept.drop 1 else kept
    { d with mgmt := { d.mgmt with notices := kept, noticeSeq := (seq + 1) % 2 ^ 16 } }

/-- A fault record is written (R420, R421) and takes the next FAULT_SEQ. -/
def Dev.record (d : Dev) (w : Where) (type cls : Nat) (body : List (Nat × Nat)) : Dev :=
  let seq := d.get kFaultSeqNext
  let r := recordBits d.time seq type cls w body
  let d := { d with faults := { d.faults with log := SMap.set none d.faults.log (seq % 4096) (some r) } }
  let d := (d.put kFaultSeqNext ((seq + 1) % 2 ^ 32)).bump kFaultRecords 1
  if bit (d.get kFaultNotifyMask) cls then (d.msix (8 + cls)).notify r else d

/-- The FAULT_SEQ of the record last written. -/
def Dev.lastSeq (d : Dev) : Nat := (d.get kFaultSeqNext + 2 ^ 32 - 1) % 2 ^ 32

/-- A checkpoint warning (R380, R419): one record; it is pending on the whole module, so in every partition's flags. -/
def Dev.ckptWarn (d : Dev) (w : Where) (cause related : Nat) : Dev :=
  let d := d.record w 0x508 1 [(8, cause), (32, related)]
  (List.range 4).foldl (fun d p => d.setFlag p pfCkpt true) d

end Sys2Proof.Machine
end

