-- ==== Sys2Proof/Machine/Hosts.lean ====
section
/-! DEFINITION. Where logical benches live: tenants and hosts (R402, R403), the places that hold a bench's state, the clears of a
released bench (R401), and the replacement of a fenced bench (R116, R117, R430). -/

namespace Sys2Proof.Machine

/-- Bytes of bench store (R108). -/
def storeBytes : Nat := 8388608

/-- Tenants per bench (R402). -/
def Dev.tenancy (d : Dev) (p : Nat) : Nat := if d.get (kPartTenancy p) = 0 then 1 else d.get (kPartTenancy p)

/-- The place of the saved image of a logical bench while another tenant is resident (R403). -/
def imagePlace (p l : Nat) : Nat := 96 + 96 * p + l

/-- The resident tenant of a host: its first tenant until a switch. -/
def Dev.residentOf (d : Dev) (p host : Nat) : Nat := SMap.get (host * d.tenancy p) (d.part p).resident host

/-- The physical bench that hosts a logical bench; 0x7F where the partition holds none. -/
def Dev.hostBench (d : Dev) (p l : Nat) : Nat := (d.part p).hosts.getD (l / d.tenancy p) 0x7F

def Dev.isResident (d : Dev) (p l : Nat) : Bool :=
  decide (l / d.tenancy p < (d.part p).hosts.length) && decide (d.residentOf p (l / d.tenancy p) = l)

/-- Where a logical bench's state is kept: its physical bench while it is resident, else its image. -/
def Dev.placeOf (d : Dev) (p l : Nat) : Nat := if d.isResident p l then d.hostBench p l else imagePlace p l

/-- The partition and logical bench resident on a physical bench. -/
def Dev.tenantAt (d : Dev) (b : Nat) : Option (Nat × Nat) :=
  (List.range 4).findSome? (fun p =>
    ((d.part p).hosts.findIdx? (fun x => decide (x = b))).map (fun h => (p, d.residentOf p h)))

/-- A fenced bench that no partition holds any more takes no traffic (R116). -/
def Dev.outOfUse (d : Dev) (b : Nat) : Bool := bit (d.get kBenchFenceMask) b && (d.tenantAt b).isNone

def Dev.bench (d : Dev) (pl : Nat) : Bench := SMap.get Bench.idle d.benches.unit pl

def Dev.setBench (d : Dev) (pl : Nat) (x : Bench) : Dev :=
  { d with benches := { d.benches with unit := SMap.set Bench.idle d.benches.unit pl x } }

/-- Everything of a bench that R401 sets to 0: bench store with its poison, slots, lanes, registers, inbox and queues. -/
def Dev.clearBench (d : Dev) (pl : Nat) : Dev :=
  { d with benches := { d.benches with
      unit := SMap.set Bench.idle d.benches.unit pl Bench.idle
      store := SMap.keep (fun a => decide (a / storeBytes ≠ pl)) d.benches.store
      storePoison := d.benches.storePoison.filter (fun a => decide (a / (storeBytes / 64) ≠ pl))
      vregs := SMap.keep (fun i => decide (i / 32 ≠ pl)) d.benches.vregs
      masks := SMap.keep (fun i => decide (i / 8 ≠ pl)) d.benches.masks
      slots := SMap.keep (fun i => decide (i / 8 ≠ pl)) d.benches.slots
      lanes := SMap.keep (fun i => decide (i / 32768 ≠ pl)) d.benches.lanes
      tilesSent := SMap.keep (fun i => decide (i / 256 ≠ pl)) d.benches.tilesSent
      tilesRecv := SMap.keep (fun i => decide (i / 256 ≠ pl)) d.benches.tilesRecv } }

/-- A table keyed by n * place + i takes what place `a` holds to place `b`, whose own entries go. -/
def rekey {α : Type} (n a b : Nat) (m : SMap α) : SMap α :=
  let rest := m.filter (fun x => decide (x.1 / n ≠ a) && decide (x.1 / n ≠ b))
  (m.filter (fun x => decide (x.1 / n = a))).foldl (fun r x => SMap.insert r (b * n + x.1 % n) x.2) rest

/-- The waiter identifier of a bench's points (kinds 0 to 2 of R208) names bench `b` in place of bench `a`. -/
def renamed (a b id : Nat) : Nat := if id / 4096 ≤ 2 ∧ fld id 11 5 = a then setFld id 11 5 b else id

/-- What the controller and the faces of a bench have in hand goes to the bench that replaces it: queues, tiles and inbox with
their counts, and posted waits, now named by the new bench. Bench store and registers stay behind, and the old bench is cleared
and rests (R116, R401; DESIGN CHOICE, log 129: the spec does not say what becomes of unfinished commands). -/
def Dev.takeOver (d : Dev) (a b : Nat) : Dev :=
  let x := d.bench a
  let d := { d with
    benches := { d.benches with
      slots := rekey 8 a b d.benches.slots
      tilesSent := rekey 256 a b d.benches.tilesSent
      tilesRecv := rekey 256 a b d.benches.tilesRecv }
    tallies := { d.tallies with
      waits := d.tallies.waits.foldl (fun (m : SMap Wait) (w : Nat × Wait) => SMap.set Wait.none m (renamed a b w.1) w.2) [] } }
  let y := d.bench b
  (d.setBench b { y with matQ := x.matQ, vecQ := x.vecQ, inbox := x.inbox }).clearBench a

/-- A host's bench is replaced, with its bit in the partition's mask (R117, R402). -/
def Dev.replaceHost (d : Dev) (p host b : Nat) : Dev :=
  let old := (d.part p).hosts.getD host 0x7F
  let m := setBitTo (setBitTo (d.get (kPartBenchMask p)) old false) b true
  ((d.setPart p { d.part p with hosts := (d.part p).hosts.set host b }).put (kPartBenchMask p) m).takeOver old b

/-- Replacements that wait take effect: at a step boundary, or while the partition is not ADMITTED (R117, R430). -/
def Dev.applyRemap (d : Dev) (p : Nat) : Dev :=
  let l := (d.part p).remap
  let d := l.foldl (fun d x => d.replaceHost p x.1 x.2) d
  d.setPart p { d.part p with remap := [] }

end Sys2Proof.Machine
end

