-- ==== Sys2Proof/Machine/Hbm.lean ====
section
/-! DEFINITION. Device memory: positions, the global interleave with relief (R230 to R237), reads and writes of working
offsets with poison marks (R257), what a partition may reach (R400), and the fault teardown that consumed poison begins
(R259, R410). -/

namespace Sys2Proof.Machine

/-- Positions of a pseudo-channel (R230). -/
def positions : Nat := 3145728

/-- Working and bed positions for a bed of so many GiB (R232). -/
def qwOf (bed : Nat) : Nat := 256 * (12288 - 256 * bed)
def qbOf (bed : Nat) : Nat := 65536 * bed - 256

def Dev.qw (d : Dev) : Nat := qwOf d.mem.bedGib
def Dev.qb (d : Dev) : Nat := qbOf d.mem.bedGib

/-- WORKING_BYTES (R233). -/
def Dev.workingBytes (d : Dev) : Nat := 768 * d.qw * 256

/-- Positions a relief takes in each of the other 63 pseudo-channels (R264). -/
def Dev.rq (d : Dev) : Nat := roundUp (d.qw + d.qb) 63

/-- BED_POSITIONS: the lowest over the stacks, recomputed as population ends (R237, R265). -/
def Dev.bedPositions (d : Dev) : Nat :=
  if (List.range 12).any (fun s => decide (d.get (kRelievedPc s) < 64) && !NSet.mem d.mem.populating s) then d.qb - d.rq else d.qb

/-- place() of R235: the physical home of position x of Ss.pck. -/
def Dev.place (d : Dev) (s k x : Nat) : Nat × Nat × Nat :=
  if d.get (kRelievedPc s) = k ∧ x < d.qw + d.qb then
    let k2 := if x % 63 ≥ k then x % 63 + 1 else x % 63
    (s, k2, d.qw + d.qb - d.rq + x / 63)
  else (s, k, x)

/-- Stack, pseudo-channel and position of a working offset before relief (R235). -/
def interleave (off : Nat) : Nat × Nat × Nat :=
  let g := off / 256
  let x := g / 768
  let c := (g % 768 + 389 * (x % 768)) % 768
  (c % 12, c / 12, x)

/-- Home of a working offset (R235). -/
def Dev.home (d : Dev) (off : Nat) : Nat × Nat × Nat :=
  let h := interleave off
  d.place h.1 h.2.1 h.2.2

/-- The byte key of a place, and of its 64-byte line. -/
def posKey (s k x byte : Nat) : Nat := ((12 * k + s) * positions + x) * 256 + byte

def Dev.byteKey (d : Dev) (off : Nat) : Nat :=
  let h := d.home off
  posKey h.1 h.2.1 h.2.2 (off % 256)

def Dev.lineKey (d : Dev) (off : Nat) : Nat := d.byteKey off / 64

def Dev.memByte (d : Dev) (off : Nat) : Byte := d.mem.hbm.byte (d.byteKey off)

def Dev.readMem (d : Dev) (off n : Nat) : List Byte := (List.range n).map (fun i => d.memByte (off + i))

/-- A number of n bytes, little-endian. -/
def Dev.readNum (d : Dev) (off n : Nat) : Nat := ofBytes (d.readMem off n)

/-- The first byte of each 64-byte line that a range touches. -/
def linesOf (off n : Nat) : List Nat :=
  if n = 0 then [] else (List.range ((off + n - 1) / 64 - off / 64 + 1)).map (fun i => 64 * (off / 64 + i))

def Dev.linePoisoned (d : Dev) (off : Nat) : Bool := NSet.mem d.mem.poison (d.lineKey off)

/-- The first poisoned line of a range. -/
def Dev.poisonIn (d : Dev) (off n : Nat) : Option Nat := (linesOf off n).find? (fun l => d.linePoisoned l)

def Dev.channelOf (d : Dev) (off : Nat) : Nat :=
  let h := d.home off
  12 * h.2.1 + h.1

def Dev.pc (d : Dev) (c : Nat) : PcState := SMap.get PcState.online d.mem.pcState c

/-- An access is answered with an error response: its pseudo-channel is LOST, or in TEST, where only the traffic generator is
served (R260; which answer that is in TEST, DESIGN CHOICE, log 142). -/
def PcState.errs (s : PcState) : Bool := decide (s = .lost) || decide (s = .test)

/-- The first line of a range whose pseudo-channel answers with an error response (R260). -/
def Dev.lostIn (d : Dev) (off n : Nat) : Option Nat :=
  (linesOf off n).find? (fun l => (d.pc (d.channelOf l)).errs)

/-- Row index and bank of a position (R231). -/
def rowOf (x : Nat) : Nat := x / 256
def bankOf (x : Nat) : Nat := (x / 4 % 64) ^^^ (rowOf x % 64)

/-- The key of a row. -/
def rowKey (s k bank row : Nat) : Nat := ((12 * k + s) * 64 + bank) * 12288 + row

/-- The row of a place is being copied to a spare (R250). -/
def Dev.rowMoves (d : Dev) (s k x : Nat) : Bool :=
  decide (SMap.get none d.mem.remapping (rowKey s k (bankOf x) (rowOf x)) ≠ none)

/-- Some line of a range lies where accesses are held: a pseudo-channel that retrains or is in relief population, a row that is
being remapped, a line whose own write is held (R247, R250, R262, R265). -/
def Dev.heldIn (d : Dev) (off n : Nat) : Bool :=
  (linesOf off n).any (fun l =>
    d.rowMoves (d.home l).1 (d.home l).2.1 (d.home l).2.2 ||
    decide (d.pc (d.channelOf l) = .retraining) ||
    decide (SMap.get none d.mem.heldWrites (d.lineKey l) ≠ none) ||
    (NSet.mem d.mem.populating (interleave l).1 && decide (d.get (kRelievedPc (interleave l).1) = (interleave l).2.1)))

def Dev.setMemByte (d : Dev) (off : Nat) (v : Byte) : Dev :=
  { d with mem := { d.mem with hbm := d.mem.hbm.setByte (d.byteKey off) v } }

def Dev.setBytesAt (d : Dev) (off : Nat) : List Byte → Dev
  | [] => d
  | b :: bs => (d.setMemByte off b).setBytesAt (off + 1) bs

def Dev.markLine (d : Dev) (off : Nat) (p : Bool) : Dev :=
  { d with mem := { d.mem with poison := NSet.put d.mem.poison (d.lineKey off) p } }

/-- R257: a poisoned write marks each line it touches; a clean write clears a line only when it writes all 64 bytes. -/
def Dev.markRange (d : Dev) (off n : Nat) (p : Bool) : Dev :=
  (linesOf off n).foldl (fun d l =>
    if p then d.markLine l true
    else if off ≤ l ∧ l + 64 ≤ off + n then d.markLine l false
    else d) d

/-- A write of working memory, of poisoned data or clean. -/
def Dev.writeMem (d : Dev) (off : Nat) (bs : List Byte) (p : Bool) : Dev :=
  (d.setBytesAt off bs).markRange off bs.length p

/-- A write of a number of n bytes, little-endian. -/
def Dev.writeNum (d : Dev) (off n v : Nat) : Dev := d.writeMem off (toBytes v n) false

/-! Accesses that wait (R245). -/

/-- Two ranges touch a line in common. -/
def sharesLine (a n b m : Nat) : Bool :=
  decide (0 < n) && decide (0 < m) && decide (a / 64 ≤ (b + m - 1) / 64) && decide (b / 64 ≤ (a + n - 1) / 64)

/-- An access must wait: some line of it is held, or an access that came before it to one of its lines waits. -/
def Dev.blocked (d : Dev) (off n : Nat) : Bool := d.heldIn off n || d.mem.held.any (fun h => sharesLine h.off h.len off n)

/-- The access joins the queue. -/
def Dev.hold (d : Dev) (off n : Nat) (what : HeldFor) : Dev :=
  { d with mem := { d.mem with held := d.mem.held ++ [{ off := off, len := n, what := what }] } }

/-- A record that the module writes for itself: held where its lines are, dropped by an error response. -/
def Dev.postMem (d : Dev) (off : Nat) (bs : List Byte) : Dev :=
  if d.blocked off bs.length then d.hold off bs.length (.post bs)
  else if (d.lostIn off bs.length).isSome then d else d.writeMem off bs false

/-! What a partition may reach. -/

def overlap (a n b m : Nat) : Bool := decide (a < b + m) && decide (b < a + n)

/-- A partition in any state from LOADING to RESTORING holds its working range, a SUSPENDED one its hold range (R399). -/
def Dev.heldRange (d : Dev) (q : Nat) : Nat × Nat :=
  let st := d.pState q
  if st = psEmpty then (0, 0)
  else if st = psSuspended then ((d.part q).heldBase, (d.part q).heldBytes)
  else (d.get (kPartMemBase q), d.get (kPartMemBytes q))

/-- Its bed range, first position and count: what it held when it was suspended, whatever is staged since (R36), else what its
entries name. -/
def Dev.bedRange (d : Dev) (q : Nat) : Nat × Nat :=
  if d.pState q = psSuspended then ((d.part q).heldBedY0, (d.part q).heldBed)
  else (d.get (kPartBedY0 q), d.get (kPartBedPositions q))

/-- R36: what another partition holds while SUSPENDED is in the range. -/
def Dev.inHeld (d : Dev) (p off n : Nat) : Bool :=
  (List.range 4).any (fun q => decide (q ≠ p) && decide (d.pState q = psSuspended) && decide (0 < (d.heldRange q).2) &&
    overlap off n (d.heldRange q).1 (d.heldRange q).2)

/-- The range every check of an allocation uses: the working range, or the hold range while SUSPENDED (R400). A partition
that is EMPTY is checked by its staged range (DEDUCED, log 9). -/
def Dev.allocBase (d : Dev) (p : Nat) : Nat :=
  if d.pState p = psSuspended then (d.part p).heldBase else d.get (kPartMemBase p)

def Dev.allocBytes (d : Dev) (p : Nat) : Nat :=
  if d.pState p = psSuspended then (d.part p).heldBytes else d.get (kPartMemBytes p)

def Dev.inAlloc (d : Dev) (p off n : Nat) : Bool :=
  decide (d.allocBase p ≤ off) && decide (off + n ≤ d.allocBase p + d.allocBytes p) && decide (off + n ≤ d.workingBytes) &&
  !d.inHeld p off n

/-- Step and serving work is accepted: the partition is ADMITTED, or QUIESCING from it (R38). -/
def Dev.mayStep (d : Dev) (p : Nat) : Bool := decide (d.pState p = psAdmitted) || decide (d.pState p = psQuiescing)

/-- A pseudo-channel retrains: every gauge armed meanwhile will be credited with the hold (R262). -/
def Dev.memHolds (d : Dev) : Bool := d.mem.pcState.any (fun x => decide (x.2 = .retraining))

/-! Teardown by a fault. -/

/-- A teardown is in progress: sequencers issue nothing further (R409). -/
def Dev.tearing (d : Dev) (p : Nat) : Bool := (d.part p).teardown.isSome

/-- The state a shift action ends in (R407): 1 SUSPEND, 2 RESHAPE, 3 END. -/
def shiftEnd (action : Nat) : Nat := if action = 1 then psSuspended else if action = 2 then psRestoring else psEmpty

/-- The partition that owns a haul channel (R124). -/
def Dev.haulOwner (d : Dev) (h c : Nat) : Nat := fld (d.get (kHaulOwner h)) (4 * c + 3) (4 * c)

/-- R190: each channel of the partition with a transfer in progress enters ABORTING and lets its data go. -/
def Dev.abortingChans (d : Dev) (p : Nat) : Dev :=
  { d with haul := d.haul.map (fun x =>
      if d.haulOwner (x.1 / 8) (x.1 % 8) = p ∧ x.2.cur ≠ none ∧ x.2.ended = false
      then (x.1, { x.2 with state := .aborting, data := [], bad := [] }) else x) }

/-- The checkpoint agent stops without a record (R384). -/
def Dev.stopAgent (d : Dev) (p : Nat) : Dev :=
  if (d.bed p).ckpt.isSome then (d.setBed p { d.bed p with ckpt := none }).put (kCkptState p) 5 else d

/-- R409 begins: QUIESCING, TEARING_DOWN, and no request pending any more. Replacements of fenced benches take effect, for the
partition is ADMITTED no longer (R117). -/
def Dev.startTeardown (d : Dev) (p endState : Nat) (confirm : Bool) (tenancy : Nat) : Dev :=
  let d := ((((d.setPState p psQuiescing).setShift p 3).abortingChans p).applyRemap p).stopAgent p
  d.setPart p { d.part p with
    shift := none
    teardown := some { endState := endState, confirm := confirm, startedAt := d.time, drain := false, cutoff := false,
                       torn := false, tenancy := tenancy } }

/-- A teardown by a fault (R410): recorded, without confirmation, into SUSPENDED; one in progress is joined. -/
def Dev.faultTeardown (d : Dev) (p causeType causeSeq : Nat) : Dev :=
  if d.pState p = psLoading ∨ d.pState p = psAdmitted ∨ d.pState p = psRestoring then
    (d.record (atPart p) 0x701 4 [(12, causeType), (32, causeSeq), (3, psSuspended)]).startTeardown p psSuspended false 0
  else if d.pState p = psQuiescing ∧ ¬ d.tearing p then
    match (d.part p).shift with
    | some sh => d.startTeardown p (shiftEnd sh.action) sh.confirm sh.tenancy
    | none => d.startTeardown p psSuspended false 0
  else d

/-- Poison consumed (R259): a record, the partition's vote fails, and its teardown begins. SPACE as in R165: 0 device memory,
1 bench store; UNIT the logical bench of the latter (DEDUCED, log 10). -/
def Dev.consumePoison (d : Dev) (w : Where) (addr space unit reader : Nat) : Dev :=
  let d := (d.bump kMemPoisonConsumed 1).record w 0x304 4 [(44, addr), (2, space), (16, unit), (4, reader)]
  let cause := d.lastSeq
  (d.setFlag w.p pfPoison true).faultTeardown w.p 0x304 cause

end Sys2Proof.Machine
end

