-- ==== Sys2Proof/Machine/Words.lean ====
section
/-! DEFINITION. Command words, descriptors, vector instructions and packet headers: the field maps of R126, R133, R134, R148 to
R150, R152, R153, R156 to R158, R164 and R290 as structures. For each map: reading a word, writing one, and the reserved fields,
whose lowest bit offends when nonzero (R16, R159). Bodies keep the bit numbers of the whole 64-byte word (R125). -/

namespace Sys2Proof.Machine

/-- The lowest bits of the reserved fields that are not 0, from the ranges (high, low) of a map. -/
def reservedBits (w : Nat) (l : List (Nat × Nat)) : List Nat :=
  (l.filter (fun r => fld w r.1 r.2 ≠ 0)).map Prod.snd

/-- *Command header* (R126). -/
structure CmdHeader where
  cmdSeq : Nat
  benchSel : Nat
  channel : Nat
  waitTo : Nat
  opcode : Nat
  waitKind : Nat
  sigEn : Nat
  waitTally : Nat
  sigTally : Nat
  waitThresh : Nat
  sigCount : Nat
  ordered : Nat
  deriving DecidableEq, Repr

/-- The fields of a word by *Command header*. -/
def headerOf (w : Nat) : CmdHeader :=
  { cmdSeq := fld w 127 96,
    benchSel := fld w 95 89,
    channel := fld w 88 86,
    waitTo := fld w 85 70,
    opcode := fld w 63 56,
    waitKind := fld w 55 54,
    sigEn := fld w 53 53,
    waitTally := fld w 52 41,
    sigTally := fld w 40 29,
    waitThresh := fld w 28 13,
    sigCount := fld w 12 5,
    ordered := fld w 4 4 }

/-- The bits of *Command header*, reserved fields 0. -/
def headerBits (x : CmdHeader) : Nat :=
  pack [(32, x.cmdSeq), (7, x.benchSel), (3, x.channel), (16, x.waitTo), (6, 0), (8, x.opcode),
        (2, x.waitKind), (1, x.sigEn), (12, x.waitTally), (12, x.sigTally), (16, x.waitThresh),
        (8, x.sigCount), (1, x.ordered), (4, 0)]

/-- Every field holds a value of its width. -/
def headerFits (x : CmdHeader) : Prop :=
  x.cmdSeq < 2 ^ 32 ∧ x.benchSel < 2 ^ 7 ∧ x.channel < 2 ^ 3 ∧ x.waitTo < 2 ^ 16 ∧ x.opcode < 2 ^ 8 ∧ x.waitKind < 2 ^ 2 ∧
  x.sigEn < 2 ^ 1 ∧ x.waitTally < 2 ^ 12 ∧ x.sigTally < 2 ^ 12 ∧ x.waitThresh < 2 ^ 16 ∧ x.sigCount < 2 ^ 8 ∧
  x.ordered < 2 ^ 1

def headerReserved : List (Nat × Nat) := [(69, 64), (3, 0)]

/-- *SEGMENT body* (R133). -/
structure SegmentBody where
  step : Nat
  segId : Nat
  dlMode : Nat
  rerunAllow : Nat
  rerunCap : Nat
  segKind : Nat
  deadline : Nat
  deriving DecidableEq, Repr

/-- The fields of a word by *SEGMENT body*. -/
def segmentOf (w : Nat) : SegmentBody :=
  { step := fld w 319 288,
    segId := fld w 287 256,
    dlMode := fld w 255 254,
    rerunAllow := fld w 253 222,
    rerunCap := fld w 221 218,
    segKind := fld w 217 214,
    deadline := fld w 191 128 }

/-- The bits of *SEGMENT body*, reserved fields 0, bits 127:0 of the word 0. -/
def segmentBits (x : SegmentBody) : Nat :=
  pack [(192, 0), (32, x.step), (32, x.segId), (2, x.dlMode), (32, x.rerunAllow), (4, x.rerunCap),
        (4, x.segKind), (22, 0), (64, x.deadline), (128, 0)]

/-- Every field holds a value of its width. -/
def segmentFits (x : SegmentBody) : Prop :=
  x.step < 2 ^ 32 ∧ x.segId < 2 ^ 32 ∧ x.dlMode < 2 ^ 2 ∧ x.rerunAllow < 2 ^ 32 ∧ x.rerunCap < 2 ^ 4 ∧ x.segKind < 2 ^ 4 ∧
  x.deadline < 2 ^ 64

def segmentReserved : List (Nat × Nat) := [(511, 320), (213, 192)]

/-- *LINK body* (R134). -/
structure LinkBody where
  nextValid : Nat
  halt : Nat
  nextAddr : Nat
  deriving DecidableEq, Repr

/-- The fields of a word by *LINK body*. -/
def linkOf (w : Nat) : LinkBody :=
  { nextValid := fld w 191 191,
    halt := fld w 190 190,
    nextAddr := fld w 189 152 }

/-- The bits of *LINK body*, reserved fields 0, bits 127:0 of the word 0. -/
def linkBits (x : LinkBody) : Nat :=
  pack [(320, 0), (1, x.nextValid), (1, x.halt), (38, x.nextAddr), (24, 0), (128, 0)]

/-- Every field holds a value of its width. -/
def linkFits (x : LinkBody) : Prop :=
  x.nextValid < 2 ^ 1 ∧ x.halt < 2 ^ 1 ∧ x.nextAddr < 2 ^ 38

def linkReserved : List (Nat × Nat) := [(511, 192), (151, 128)]

/-- *WAIT body* (R148). -/
structure WaitBody where
  timeoutNs : Nat
  kind : Nat
  tally : Nat
  thresh : Nat
  deriving DecidableEq, Repr

/-- The fields of a word by *WAIT body*. -/
def waitOf (w : Nat) : WaitBody :=
  { timeoutNs := fld w 255 192,
    kind := fld w 191 190,
    tally := fld w 189 178,
    thresh := fld w 177 146 }

/-- The bits of *WAIT body*, reserved fields 0, bits 127:0 of the word 0. -/
def waitBits (x : WaitBody) : Nat :=
  pack [(256, 0), (64, x.timeoutNs), (2, x.kind), (12, x.tally), (32, x.thresh), (18, 0), (128, 0)]

/-- Every field holds a value of its width. -/
def waitFits (x : WaitBody) : Prop :=
  x.timeoutNs < 2 ^ 64 ∧ x.kind < 2 ^ 2 ∧ x.tally < 2 ^ 12 ∧ x.thresh < 2 ^ 32

def waitReserved : List (Nat × Nat) := [(511, 256), (145, 128)]

/-- *SIGNAL body* (R148). -/
structure SignalBody where
  chip : Nat
  remote : Nat
  tally : Nat
  count : Nat
  deriving DecidableEq, Repr

/-- The fields of a word by *SIGNAL body*. -/
def signalOf (w : Nat) : SignalBody :=
  { chip := fld w 255 240,
    remote := fld w 191 191,
    tally := fld w 190 179,
    count := fld w 178 147 }

/-- The bits of *SIGNAL body*, reserved fields 0, bits 127:0 of the word 0. -/
def signalBits (x : SignalBody) : Nat :=
  pack [(256, 0), (16, x.chip), (48, 0), (1, x.remote), (12, x.tally), (32, x.count), (19, 0), (128, 0)]

/-- Every field holds a value of its width. -/
def signalFits (x : SignalBody) : Prop :=
  x.chip < 2 ^ 16 ∧ x.remote < 2 ^ 1 ∧ x.tally < 2 ^ 12 ∧ x.count < 2 ^ 32

def signalReserved : List (Nat × Nat) := [(511, 256), (239, 192), (146, 128)]

/-- *SELECT body* (R149). -/
structure SelectBody where
  dev : Nat
  rerun : Nat
  count : Nat
  decisionAddr : Nat
  deriving DecidableEq, Repr

/-- The fields of a word by *SELECT body*. -/
def selectOf (w : Nat) : SelectBody :=
  { dev := fld w 191 191,
    rerun := fld w 190 190,
    count := fld w 189 174,
    decisionAddr := fld w 171 128 }

/-- The bits of *SELECT body*, reserved fields 0, bits 127:0 of the word 0. -/
def selectBits (x : SelectBody) : Nat :=
  pack [(320, 0), (1, x.dev), (1, x.rerun), (16, x.count), (2, 0), (44, x.decisionAddr), (128, 0)]

/-- Every field holds a value of its width. -/
def selectFits (x : SelectBody) : Prop :=
  x.dev < 2 ^ 1 ∧ x.rerun < 2 ^ 1 ∧ x.count < 2 ^ 16 ∧ x.decisionAddr < 2 ^ 44

def selectReserved : List (Nat × Nat) := [(511, 192), (173, 172)]

/-- *MATMUL body* (R150). -/
structure MatmulBody where
  expHi : Nat
  expLo : Nat
  convPos : Nat
  chainId : Nat
  convSucc : Nat
  convOpen : Nat
  epiAddr : Nat
  epiStride : Nat
  epiOp : Nat
  epiShape : Nat
  epiFmt : Nat
  outAddr : Nat
  outStride : Nat
  outOrder : Nat
  scaleExp : Nat
  preAddr : Nat
  preStride : Nat
  preFmt : Nat
  tswAddr : Nat
  wAddr : Nat
  aAddr : Nat
  aFstride : Nat
  preEn : Nat
  kM1 : Nat
  rowsM1 : Nat
  colsM1 : Nat
  faceMask : Nat
  wfmt : Nat
  afmt : Nat
  ofmt : Nat
  accSlot : Nat
  promoteN : Nat
  deriving DecidableEq, Repr

/-- The fields of a word by *MATMUL body*. -/
def matmulOf (w : Nat) : MatmulBody :=
  { expHi := fld w 511 503,
    expLo := fld w 502 494,
    convPos := fld w 493 492,
    chainId := fld w 491 484,
    convSucc := fld w 483 477,
    convOpen := fld w 476 476,
    epiAddr := fld w 447 425,
    epiStride := fld w 424 408,
    epiOp := fld w 407 405,
    epiShape := fld w 404 403,
    epiFmt := fld w 402 399,
    outAddr := fld w 383 361,
    outStride := fld w 360 344,
    outOrder := fld w 343 343,
    scaleExp := fld w 342 335,
    preAddr := fld w 319 297,
    preStride := fld w 296 280,
    preFmt := fld w 279 276,
    tswAddr := fld w 275 256,
    wAddr := fld w 255 233,
    aAddr := fld w 232 210,
    aFstride := fld w 209 193,
    preEn := fld w 192 192,
    kM1 := fld w 191 172,
    rowsM1 := fld w 171 166,
    colsM1 := fld w 165 160,
    faceMask := fld w 159 156,
    wfmt := fld w 155 152,
    afmt := fld w 151 148,
    ofmt := fld w 147 144,
    accSlot := fld w 143 141,
    promoteN := fld w 140 137 }

/-- The bits of *MATMUL body*, reserved fields 0, bits 127:0 of the word 0. -/
def matmulBits (x : MatmulBody) : Nat :=
  pack [(9, x.expHi), (9, x.expLo), (2, x.convPos), (8, x.chainId), (7, x.convSucc), (1, x.convOpen),
        (28, 0), (23, x.epiAddr), (17, x.epiStride), (3, x.epiOp), (2, x.epiShape), (4, x.epiFmt), (15, 0),
        (23, x.outAddr), (17, x.outStride), (1, x.outOrder), (8, x.scaleExp), (15, 0), (23, x.preAddr),
        (17, x.preStride), (4, x.preFmt), (20, x.tswAddr), (23, x.wAddr), (23, x.aAddr), (17, x.aFstride),
        (1, x.preEn), (20, x.kM1), (6, x.rowsM1), (6, x.colsM1), (4, x.faceMask), (4, x.wfmt), (4, x.afmt),
        (4, x.ofmt), (3, x.accSlot), (4, x.promoteN), (9, 0), (128, 0)]

/-- Every field holds a value of its width. -/
def matmulFits (x : MatmulBody) : Prop :=
  x.expHi < 2 ^ 9 ∧ x.expLo < 2 ^ 9 ∧ x.convPos < 2 ^ 2 ∧ x.chainId < 2 ^ 8 ∧ x.convSucc < 2 ^ 7 ∧ x.convOpen < 2 ^ 1 ∧
  x.epiAddr < 2 ^ 23 ∧ x.epiStride < 2 ^ 17 ∧ x.epiOp < 2 ^ 3 ∧ x.epiShape < 2 ^ 2 ∧ x.epiFmt < 2 ^ 4 ∧
  x.outAddr < 2 ^ 23 ∧ x.outStride < 2 ^ 17 ∧ x.outOrder < 2 ^ 1 ∧ x.scaleExp < 2 ^ 8 ∧ x.preAddr < 2 ^ 23 ∧
  x.preStride < 2 ^ 17 ∧ x.preFmt < 2 ^ 4 ∧ x.tswAddr < 2 ^ 20 ∧ x.wAddr < 2 ^ 23 ∧ x.aAddr < 2 ^ 23 ∧
  x.aFstride < 2 ^ 17 ∧ x.preEn < 2 ^ 1 ∧ x.kM1 < 2 ^ 20 ∧ x.rowsM1 < 2 ^ 6 ∧ x.colsM1 < 2 ^ 6 ∧ x.faceMask < 2 ^ 4 ∧
  x.wfmt < 2 ^ 4 ∧ x.afmt < 2 ^ 4 ∧ x.ofmt < 2 ^ 4 ∧ x.accSlot < 2 ^ 3 ∧ x.promoteN < 2 ^ 4

def matmulReserved : List (Nat × Nat) := [(475, 448), (398, 384), (334, 320), (136, 128)]

/-- *VECTOR body* (R152). -/
structure VectorBody where
  addrStep : Nat
  progAddr : Nat
  progLen : Nat
  repeatM1 : Nat
  deriving DecidableEq, Repr

/-- The fields of a word by *VECTOR body*. -/
def vectorOf (w : Nat) : VectorBody :=
  { addrStep := fld w 255 233,
    progAddr := fld w 191 169,
    progLen := fld w 168 161,
    repeatM1 := fld w 160 137 }

/-- The bits of *VECTOR body*, reserved fields 0, bits 127:0 of the word 0. -/
def vectorBits (x : VectorBody) : Nat :=
  pack [(256, 0), (23, x.addrStep), (41, 0), (23, x.progAddr), (8, x.progLen), (24, x.repeatM1), (9, 0),
        (128, 0)]

/-- Every field holds a value of its width. -/
def vectorFits (x : VectorBody) : Prop :=
  x.addrStep < 2 ^ 23 ∧ x.progAddr < 2 ^ 23 ∧ x.progLen < 2 ^ 8 ∧ x.repeatM1 < 2 ^ 24

def vectorReserved : List (Nat × Nat) := [(511, 256), (232, 192), (136, 128)]

/-- *Channel descriptor* (R164). -/
structure Descriptor where
  dstAddr : Nat
  dstUnit : Nat
  dstSpace : Nat
  dstWM1 : Nat
  dstN1M1 : Nat
  dstN2M1 : Nat
  dstStride1 : Nat
  dstStride2 : Nat
  srcAddr : Nat
  srcUnit : Nat
  srcSpace : Nat
  srcWM1 : Nat
  srcN1M1 : Nat
  srcN2M1 : Nat
  srcStride1 : Nat
  srcStride2 : Nat
  transpose : Nat
  te : Nat
  readClass : Nat
  guardEn : Nat
  guardTally : Nat
  guardCount : Nat
  deriving DecidableEq, Repr

/-- The fields of a word by *Channel descriptor*. -/
def haulOf (w : Nat) : Descriptor :=
  { dstAddr := fld w 511 468,
    dstUnit := fld w 467 452,
    dstSpace := fld w 451 450,
    dstWM1 := fld w 449 444,
    dstN1M1 := fld w 443 424,
    dstN2M1 := fld w 423 404,
    dstStride1 := fld w 403 372,
    dstStride2 := fld w 371 340,
    srcAddr := fld w 339 296,
    srcUnit := fld w 295 280,
    srcSpace := fld w 279 278,
    srcWM1 := fld w 277 272,
    srcN1M1 := fld w 271 252,
    srcN2M1 := fld w 251 232,
    srcStride1 := fld w 231 200,
    srcStride2 := fld w 199 168,
    transpose := fld w 167 167,
    te := fld w 166 165,
    readClass := fld w 164 164,
    guardEn := fld w 163 163,
    guardTally := fld w 162 151,
    guardCount := fld w 150 143 }

/-- The bits of *Channel descriptor*, reserved fields 0, bits 127:0 of the word 0. -/
def haulBits (x : Descriptor) : Nat :=
  pack [(44, x.dstAddr), (16, x.dstUnit), (2, x.dstSpace), (6, x.dstWM1), (20, x.dstN1M1), (20, x.dstN2M1),
        (32, x.dstStride1), (32, x.dstStride2), (44, x.srcAddr), (16, x.srcUnit), (2, x.srcSpace),
        (6, x.srcWM1), (20, x.srcN1M1), (20, x.srcN2M1), (32, x.srcStride1), (32, x.srcStride2),
        (1, x.transpose), (2, x.te), (1, x.readClass), (1, x.guardEn), (12, x.guardTally),
        (8, x.guardCount), (15, 0), (128, 0)]

/-- Every field holds a value of its width. -/
def haulFits (x : Descriptor) : Prop :=
  x.dstAddr < 2 ^ 44 ∧ x.dstUnit < 2 ^ 16 ∧ x.dstSpace < 2 ^ 2 ∧ x.dstWM1 < 2 ^ 6 ∧ x.dstN1M1 < 2 ^ 20 ∧
  x.dstN2M1 < 2 ^ 20 ∧ x.dstStride1 < 2 ^ 32 ∧ x.dstStride2 < 2 ^ 32 ∧ x.srcAddr < 2 ^ 44 ∧ x.srcUnit < 2 ^ 16 ∧
  x.srcSpace < 2 ^ 2 ∧ x.srcWM1 < 2 ^ 6 ∧ x.srcN1M1 < 2 ^ 20 ∧ x.srcN2M1 < 2 ^ 20 ∧ x.srcStride1 < 2 ^ 32 ∧
  x.srcStride2 < 2 ^ 32 ∧ x.transpose < 2 ^ 1 ∧ x.te < 2 ^ 2 ∧ x.readClass < 2 ^ 1 ∧ x.guardEn < 2 ^ 1 ∧
  x.guardTally < 2 ^ 12 ∧ x.guardCount < 2 ^ 8

def haulReserved : List (Nat × Nat) := [(142, 128)]

/-- *XCHG_HOPPER body* (R156). -/
structure HopperBody where
  stagingAddr : Nat
  collective : Nat
  finesAddr : Nat
  keep : Nat
  hopperBytes : Nat
  step : Nat
  hopperAddr : Nat
  screen : Nat
  hopperId : Nat
  deriving DecidableEq, Repr

/-- The fields of a word by *XCHG_HOPPER body*. -/
def hopperOf (w : Nat) : HopperBody :=
  { stagingAddr := fld w 383 340,
    collective := fld w 339 324,
    finesAddr := fld w 319 276,
    keep := fld w 275 260,
    hopperBytes := fld w 255 224,
    step := fld w 223 192,
    hopperAddr := fld w 191 148,
    screen := fld w 147 144,
    hopperId := fld w 143 128 }

/-- The bits of *XCHG_HOPPER body*, reserved fields 0, bits 127:0 of the word 0. -/
def hopperBits (x : HopperBody) : Nat :=
  pack [(128, 0), (44, x.stagingAddr), (16, x.collective), (4, 0), (44, x.finesAddr), (16, x.keep), (4, 0),
        (32, x.hopperBytes), (32, x.step), (44, x.hopperAddr), (4, x.screen), (16, x.hopperId), (128, 0)]

/-- Every field holds a value of its width. -/
def hopperFits (x : HopperBody) : Prop :=
  x.stagingAddr < 2 ^ 44 ∧ x.collective < 2 ^ 16 ∧ x.finesAddr < 2 ^ 44 ∧ x.keep < 2 ^ 16 ∧ x.hopperBytes < 2 ^ 32 ∧
  x.step < 2 ^ 32 ∧ x.hopperAddr < 2 ^ 44 ∧ x.screen < 2 ^ 4 ∧ x.hopperId < 2 ^ 16

def hopperReserved : List (Nat × Nat) := [(511, 384), (323, 320), (259, 256)]

/-- *XCHG_VOTE body* (R157). -/
structure VoteBody where
  outcomeAddr : Nat
  step : Nat
  forceFail : Nat
  deriving DecidableEq, Repr

/-- The fields of a word by *XCHG_VOTE body*. -/
def voteOf (w : Nat) : VoteBody :=
  { outcomeAddr := fld w 255 212,
    step := fld w 191 160,
    forceFail := fld w 159 159 }

/-- The bits of *XCHG_VOTE body*, reserved fields 0, bits 127:0 of the word 0. -/
def voteBits (x : VoteBody) : Nat :=
  pack [(256, 0), (44, x.outcomeAddr), (20, 0), (32, x.step), (1, x.forceFail), (31, 0), (128, 0)]

/-- Every field holds a value of its width. -/
def voteFits (x : VoteBody) : Prop :=
  x.outcomeAddr < 2 ^ 44 ∧ x.step < 2 ^ 32 ∧ x.forceFail < 2 ^ 1

def voteReserved : List (Nat × Nat) := [(511, 256), (211, 192), (158, 128)]

/-- *BED body* (R158). -/
structure BedBody where
  step : Nat
  destChip : Nat
  regionList : Nat
  regionCount : Nat
  deriving DecidableEq, Repr

/-- The fields of a word by *BED body*. -/
def bedOf (w : Nat) : BedBody :=
  { step := fld w 255 224,
    destChip := fld w 223 208,
    regionList := fld w 191 148,
    regionCount := fld w 147 132 }

/-- The bits of *BED body*, reserved fields 0, bits 127:0 of the word 0. -/
def bedBits (x : BedBody) : Nat :=
  pack [(256, 0), (32, x.step), (16, x.destChip), (16, 0), (44, x.regionList), (16, x.regionCount), (4, 0),
        (128, 0)]

/-- Every field holds a value of its width. -/
def bedFits (x : BedBody) : Prop :=
  x.step < 2 ^ 32 ∧ x.destChip < 2 ^ 16 ∧ x.regionList < 2 ^ 44 ∧ x.regionCount < 2 ^ 16

def bedReserved : List (Nat × Nat) := [(511, 256), (207, 192), (131, 128)]

/-- *Vector instruction* (R153). -/
structure VectorInstr where
  vop : Nat
  vd : Nat
  va : Nat
  vb : Nat
  vc : Nat
  vmask : Nat
  maskEn : Nat
  vfmt : Nat
  vscale : Nat
  pd : Nat
  ps : Nat
  vstride : Nat
  vaddr : Nat
  deriving DecidableEq, Repr

/-- The fields of a word by *Vector instruction*. -/
def vinstrOf (w : Nat) : VectorInstr :=
  { vop := fld w 95 88,
    vd := fld w 87 83,
    va := fld w 82 78,
    vb := fld w 77 73,
    vc := fld w 72 68,
    vmask := fld w 67 65,
    maskEn := fld w 64 64,
    vfmt := fld w 63 60,
    vscale := fld w 59 52,
    pd := fld w 51 50,
    ps := fld w 49 48,
    vstride := fld w 38 23,
    vaddr := fld w 22 0 }

/-- The bits of *Vector instruction*, reserved fields 0. -/
def vinstrBits (x : VectorInstr) : Nat :=
  pack [(32, 0), (8, x.vop), (5, x.vd), (5, x.va), (5, x.vb), (5, x.vc), (3, x.vmask), (1, x.maskEn),
        (4, x.vfmt), (8, x.vscale), (2, x.pd), (2, x.ps), (9, 0), (16, x.vstride), (23, x.vaddr)]

/-- Every field holds a value of its width. -/
def vinstrFits (x : VectorInstr) : Prop :=
  x.vop < 2 ^ 8 ∧ x.vd < 2 ^ 5 ∧ x.va < 2 ^ 5 ∧ x.vb < 2 ^ 5 ∧ x.vc < 2 ^ 5 ∧ x.vmask < 2 ^ 3 ∧ x.maskEn < 2 ^ 1 ∧
  x.vfmt < 2 ^ 4 ∧ x.vscale < 2 ^ 8 ∧ x.pd < 2 ^ 2 ∧ x.ps < 2 ^ 2 ∧ x.vstride < 2 ^ 16 ∧ x.vaddr < 2 ^ 23

def vinstrReserved : List (Nat × Nat) := [(127, 96), (47, 39)]

/-- *Fabric packet header* (R290). -/
structure PacketHeader where
  dstChip : Nat
  srcChip : Nat
  mpart : Nat
  epoch : Nat
  ptype : Nat
  vl : Nat
  plane : Nat
  tag : Nat
  linesM1 : Nat
  poison : Nat
  guard : Nat
  guardTally : Nat
  guardCount : Nat
  status : Nat
  offset : Nat
  byteEnOrLinePoison : Nat
  deriving DecidableEq, Repr

/-- The fields of a word by *Fabric packet header*. -/
def packetOf (w : Nat) : PacketHeader :=
  { dstChip := fld w 255 240,
    srcChip := fld w 239 224,
    mpart := fld w 223 208,
    epoch := fld w 207 176,
    ptype := fld w 175 170,
    vl := fld w 169 168,
    plane := fld w 167 164,
    tag := fld w 163 148,
    linesM1 := fld w 147 142,
    poison := fld w 141 141,
    guard := fld w 140 140,
    guardTally := fld w 139 128,
    guardCount := fld w 127 120,
    status := fld w 119 112,
    offset := fld w 107 64,
    byteEnOrLinePoison := fld w 63 0 }

/-- The bits of *Fabric packet header*, reserved fields 0. -/
def packetBits (x : PacketHeader) : Nat :=
  pack [(16, x.dstChip), (16, x.srcChip), (16, x.mpart), (32, x.epoch), (6, x.ptype), (2, x.vl),
        (4, x.plane), (16, x.tag), (6, x.linesM1), (1, x.poison), (1, x.guard), (12, x.guardTally),
        (8, x.guardCount), (8, x.status), (4, 0), (44, x.offset), (64, x.byteEnOrLinePoison)]

/-- Every field holds a value of its width. -/
def packetFits (x : PacketHeader) : Prop :=
  x.dstChip < 2 ^ 16 ∧ x.srcChip < 2 ^ 16 ∧ x.mpart < 2 ^ 16 ∧ x.epoch < 2 ^ 32 ∧ x.ptype < 2 ^ 6 ∧ x.vl < 2 ^ 2 ∧
  x.plane < 2 ^ 4 ∧ x.tag < 2 ^ 16 ∧ x.linesM1 < 2 ^ 6 ∧ x.poison < 2 ^ 1 ∧ x.guard < 2 ^ 1 ∧ x.guardTally < 2 ^ 12 ∧
  x.guardCount < 2 ^ 8 ∧ x.status < 2 ^ 8 ∧ x.offset < 2 ^ 44 ∧ x.byteEnOrLinePoison < 2 ^ 64

def packetReserved : List (Nat × Nat) := [(111, 108)]

/-- A whole command word from its header and its body's bits. -/
def wordBits (h : CmdHeader) (body : Nat) : Nat := body + headerBits h

/-- Opcodes of R131 by their constructors' names. -/
def opSegment : Nat := 0x01
def opLink : Nat := 0x02
def opNop : Nat := 0x03
def opWait : Nat := 0x04
def opSignal : Nat := 0x05
def opSelect : Nat := 0x06
def opMatmul : Nat := 0x10
def opVector : Nat := 0x11
def opHaul : Nat := 0x20
def opHopper : Nat := 0x30
def opVote : Nat := 0x31
def opSnapshot : Nat := 0x40
def opRestore : Nat := 0x41
def opStream : Nat := 0x42

end Sys2Proof.Machine
end

