-- ==== Sys2Proof/Machine/TallyOps.lean ====
section
/-! DEFINITION. Tallies: translation (R209), waiters and their identifiers (R201, R208), evaluation at a home (R203), signals
(R196, R199, R211), the barrier agents' grants (R219 to R221) and clearing (R212, R213). -/

namespace Sys2Proof.Machine

/-- A translation table's entry (R209); the default maps v of partition p to 4096 p + v. -/
def Dev.mapEntry (d : Dev) (p v : Nat) : Nat := SMap.get (32768 + (4096 * p + v)) d.tallies.map (4096 * p + v)

/-- The physical tally of a virtual identifier. -/
def Dev.phys (d : Dev) (p v : Nat) : Option Nat :=
  let e := d.mapEntry p v
  if bit e 15 then some (fld e 13 0) else none

def Dev.mapped (d : Dev) (p v : Nat) : Bool := (d.phys p v).isSome

def Dev.tally (d : Dev) (t : Nat) : Tally := SMap.get Tally.zero d.tallies.cell t

def Dev.setTally (d : Dev) (t : Nat) (x : Tally) : Dev :=
  { d with tallies := { d.tallies with cell := SMap.set Tally.zero d.tallies.cell t x } }

/-- *Waiter identifier* (R208). -/
def waiterId (kind unit sub p : Nat) : Nat := pack [(4, kind), (7, unit), (3, sub), (2, p)]

def pointId (w : Waiter) : Nat := waiterId w.kind w.unit w.sub w.p

def Dev.waitAt (d : Dev) (id : Nat) : Wait := SMap.get Wait.none d.tallies.waits id

def Dev.setWait (d : Dev) (id : Nat) (w : Wait) : Dev :=
  { d with tallies := { d.tallies with waits := SMap.set Wait.none d.tallies.waits id w } }

/-- A wait is posted at the point. -/
def Dev.posted (d : Dev) (id : Nat) : Bool := decide (d.waitAt id ≠ Wait.none)

/-- *Barrier entry* (R219). -/
structure BarrierEntry where
  enable : Bool
  leaf : Nat
  release : Nat
  expect : Nat
  plane : Nat
  tree : Nat
  deriving DecidableEq, Repr

def barrierOf (w : Nat) : BarrierEntry :=
  { enable := bit w 63, leaf := fld w 62 51, release := fld w 50 39, expect := fld w 38 23, plane := fld w 22 19,
    tree := fld w 18 3 }

def Dev.barrier (d : Dev) (p slot : Nat) : BarrierEntry := barrierOf (d.get (kBarrier p slot))

/-- The slots of a partition whose BARRIER entry is not 0; every other slot is disabled. -/
def Dev.barrierSlots (d : Dev) (p : Nat) : List Nat :=
  (d.dict.filter (fun x => decide (kBarrier p 0 ≤ x.1) && decide (x.1 ≤ kBarrier p 63))).map (fun x => x.1 - kBarrier p 0)

/-- Enabled slots whose leaf tally is the virtual identifier. -/
def Dev.leafSlots (d : Dev) (p v : Nat) : List Nat :=
  (d.barrierSlots p).filter (fun i => (d.barrier p i).enable && decide ((d.barrier p i).leaf = v))

/-- The agent of a slot waits for its grant: the slot is enabled, no generation is in flight and none is granted (R219). -/
def Dev.agentWaits (d : Dev) (p slot : Nat) : Bool :=
  (d.barrier p slot).enable && !NSet.mem d.tallies.inFlight (64 * p + slot) &&
  decide (SMap.get none d.tallies.granted (64 * p + slot) = none)

/-- The step at which the stockpile's next grant is taken (R363): the exchange engine waits on STOCK_INPUT_TALLY while the
partition is ADMITTED with a stockpile. -/
def Dev.stockWaits (d : Dev) (p : Nat) : Bool :=
  decide (d.pState p = psAdmitted) && decide (d.get (kStockpileSlotBytes p) ≠ 0) &&
  decide (d.get (kStepBlockAddr p) ≠ 0) && decide ((d.train p).mirrorWait = 0)

/-- A consuming waiter at a tally: its identifier and threshold. -/
structure Taker where
  id : Nat
  thresh : Nat
  deriving DecidableEq, Repr

/-- The agents' and the stockpiles' own waits on a physical tally, which need no posting. On an OVERFLOWED tally they have ended,
until its clear (R199, R220). -/
def Dev.ownTakers (d : Dev) (t : Nat) : List Taker :=
  if (d.tally t).overflowed then []
  else (List.range 4).flatMap (fun p =>
    (if d.stockWaits p ∧ d.phys p (d.get (kStockInputTally p)) = some t
     then [{ id := waiterId 6 0 1 p, thresh := d.get (kStockInputSignals p) }] else []) ++
    ((d.barrierSlots p).filter (fun i => d.agentWaits p i && decide (d.phys p (d.barrier p i).leaf = some t))).map
      (fun i => { id := waiterId 9 i 0 p, thresh := (d.barrier p i).expect }))

/-- Posted waits on a tally that neither hold a release nor have ended, of one kind (1 consuming, 2 observing). -/
def Dev.waitsOn (d : Dev) (t kind : Nat) : List (Nat × Wait) :=
  d.tallies.waits.filter (fun x => decide (x.2.pt = t) && decide (x.2.kind = kind) && !x.2.latch && !x.2.ended)

/-- Consuming waiters in the order of the rotation: by identifier from the pointer upwards, then round; the agents last (R203,
R220). -/
def Dev.takers (d : Dev) (t : Nat) : List Taker :=
  let posted := (d.waitsOn t 1).map (fun x => { id := x.1, thresh := x.2.thresh : Taker })
  let own := d.ownTakers t
  let ptr := (d.tally t).ptr
  let all := ordered (fun x y => decide (x.id ≤ y.id)) (posted ++ own.filter (fun x => decide (x.id / 4096 = 6)))
  all.filter (fun x => decide (ptr ≤ x.id)) ++ all.filter (fun x => decide (x.id < ptr)) ++
    own.filter (fun x => decide (x.id / 4096 = 9))

/-- What a grant does at its waiter: a posted wait gets its latch; an agent takes the accumulated payload (R219, R221); the
stockpile counts a grant (R363). -/
def Dev.granted (d : Dev) (id : Nat) : Dev :=
  let p := id % 4
  if id / 4096 = 9 then
    let slot := 64 * p + fld id 11 5
    { d with tallies := { d.tallies with
        granted := SMap.set none d.tallies.granted slot (some (SMap.get 0 d.tallies.payload slot))
        payload := SMap.set 0 d.tallies.payload slot 0 } }
  else if id / 4096 = 6 ∧ fld id 4 2 = 1 then
    d.setTrain p { d.train p with mirrorWait := (d.train p).stockGrants + 1, stockGrants := (d.train p).stockGrants + 1 }
  else d.setWait id { d.waitAt id with latch := true }

/-- One candidate is granted if its threshold is at most COUNT; the pointer moves to the slot after it (R203). -/
def Dev.tryGrant (d : Dev) (t : Nat) (x : Taker) : Dev :=
  let c := d.tally t
  if x.thresh ≤ c.count then
    ((d.setTally t { c with count := c.count - x.thresh, ptr := x.id + 1 }).granted x.id).bump kConsumingGrants 1
  else d

/-- R203: observers first, against COUNT as it stands; then the consuming waiters one at a time. An OVERFLOWED tally
releases no one (R199). -/
def Dev.evaluate (d : Dev) (t : Nat) : Dev :=
  if (d.tally t).overflowed then d
  else
    let obs := (d.waitsOn t 2).filter (fun x => decide (x.2.thresh ≤ (d.tally t).count))
    let d := obs.foldl (fun d x => (d.setWait x.1 { x.2 with latch := true }).bump kObservingReleases 1) d
    (d.takers t).foldl (fun d x => d.tryGrant t x) d

/-- The waits present on an overflowed tally end as if their timeouts had expired (R199): they are marked here, and the row
that brought the overflow ends them (`Dev.endMarked`). -/
def Dev.endWaits (d : Dev) (t : Nat) : Dev :=
  { d with tallies := { d.tallies with
      waits := d.tallies.waits.map (fun x => if x.2.pt = t ∧ ¬ x.2.latch then (x.1, { x.2 with ended := true }) else x) } }

/-- A payload delivered with a signal joins the accumulator of each slot whose leaf tally it is (R221). -/
def Dev.deliver (d : Dev) (p v payload : Nat) : Dev :=
  (d.leafSlots p v).foldl (fun d i =>
    { d with tallies := { d.tallies with
        payload := SMap.set 0 d.tallies.payload (64 * p + i) (SMap.get 0 d.tallies.payload (64 * p + i) ||| payload) } }) d

/-- The context of a signaller: its chain when it is local, else the receiving partition (R199, *Fault record types*). -/
def signalWhere (s : Signal) : Where :=
  match s.cmd with
  | some c => atCmd c.k c.kind c.step c.segId c.seq
  | none => atPart s.p

/-- A signal reaches its home (R203): added, or saturating (R199), or dropped where unmapped (R211). -/
def Dev.applySignal (d : Dev) (s : Signal) : Dev :=
  match d.phys s.p s.vt with
  | none =>
    (d.bump kUnmappedSignals 1).record (atPart s.p) 0x203 0
      [(12, s.vt), (16, s.chip.getD d.fabric.coords.chip), (1, b2n s.guard)]
  | some t =>
    let d := (d.bump kTallySignals 1).deliver s.p s.vt s.payload
    let c := d.tally t
    if 0xFFFFFFFF < c.count + s.count then
      let d := d.setTally t { c with count := 0xFFFFFFFF, overflowed := true }
      let d := d.bump kTallyOverflows 1
      let d := d.record (signalWhere s) 0x202 2 [(12, s.vt), (14, t), (1, b2n s.chip.isSome), (16, s.chip.getD 0)]
      d.endWaits t
    else (d.setTally t { c with count := c.count + s.count }).evaluate t

/-- A local signal sets out for its home, under the epoch of its partition (R214). -/
def Dev.fly (d : Dev) (s : Signal) : Dev :=
  { d with tallies := { d.tallies with flight := d.tallies.flight ++ [{ s with epoch := d.get (kPartEpoch s.p) }] } }

/-- A plain local signal of a partition. -/
def localSignal (p vt count : Nat) : Signal :=
  { p := p, vt := vt, count := count, payload := 0, epoch := 0, chip := none, guard := false, cmd := none, completes := false }

/-- Physical tallies a partition maps. -/
def Dev.physOf (d : Dev) (p : Nat) : List Nat := (List.range 4096).filterMap (fun v => d.phys p v)

/-- R212, R213, R204: every mapped tally 0 and NORMAL with its pointer 0, every waiter of the partition withdrawn, signals on
their way dropped as stale, accumulated payloads discarded; with `gens` the barrier generations and what is in flight go too
(R440 keeps them). -/
def Dev.clearTallies (d : Dev) (p : Nat) (gens : Bool) : Dev :=
  let stale := (d.tallies.flight.filter (fun s => decide (s.p = p))).length
  let mine := d.physOf p
  let d := d.bump kStaleSignals stale
  let d := { d with tallies := { d.tallies with
      cell := SMap.keep (fun t => !mine.contains t) d.tallies.cell
      waits := SMap.keep (fun i => decide (i % 4 ≠ p)) d.tallies.waits
      flight := d.tallies.flight.filter (fun s => decide (s.p ≠ p))
      payload := SMap.keep (fun i => decide (i / 64 ≠ p)) d.tallies.payload } }
  if gens then
    let d := { d with tallies := { d.tallies with
        inFlight := d.tallies.inFlight.filter (fun i => decide (i / 64 ≠ p))
        granted := SMap.keep (fun i => decide (i / 64 ≠ p)) d.tallies.granted } }
    (List.range 64).foldl (fun d i => d.put (kBarrierGen p i) 0) d
  else d

/-- Every enabled slot's leaf tally is looked at again, after a release or a change of the slots. -/
def Dev.agentLook (d : Dev) (p slot : Nat) : Dev :=
  match d.phys p (d.barrier p slot).leaf with
  | some t => if (d.barrier p slot).enable then d.evaluate t else d
  | none => d

end Sys2Proof.Machine
end

