-- ==== Sys2Proof/Machine/FabricOps.lean ====
section
/-! DEFINITION. Fabric packets: building and queueing them (R290, R293, R298), the checks and effects of a request at its
destination (R292, R294, R295, R297, R300), requests and their tags (R294), and remote signals (R217). -/

namespace Sys2Proof.Machine

/-! Packet types (R291), lanes (R285) and response status (R294). -/

def ptWrite : Nat := 0x01
def ptWriteAck : Nat := 0x02
def ptReadReq : Nat := 0x03
def ptReadResp : Nat := 0x04
def ptSignal : Nat := 0x05
def ptSignalAck : Nat := 0x06
def ptExchange : Nat := 0x08
def ptExchangeAck : Nat := 0x09
def ptBarrier : Nat := 0x0A
def ptProbe : Nat := 0x10
def ptIdent : Nat := 0x11
def ptTime : Nat := 0x12

def vlData : Nat := 0
def vlCollective : Nat := 1
def vlManagement : Nat := 2
def vlReplay : Nat := 3

def stOk : Nat := 0
def stNotAdmitted : Nat := 1
def stAccessDenied : Nat := 2
def stMalformed : Nat := 4
def stTimeout : Nat := 5
def stNoRoute : Nat := 6
def stNotReady : Nat := 7
def stLocal : Nat := 0x80

def ackType (t : Nat) : Nat := t + 1

def isRequest (t : Nat) : Bool := t = ptWrite || t = ptReadReq || t = ptSignal || t = ptExchange

/-! Ports. -/

def Dev.port (d : Dev) (n : Nat) : Port := SMap.get Port.fresh d.fabric.ports n

def Dev.setPort (d : Dev) (n : Nat) (x : Port) : Dev :=
  { d with fabric := { d.fabric with ports := SMap.set Port.fresh d.fabric.ports n x } }

def Dev.chip (d : Dev) : Nat := d.fabric.coords.chip

def Dev.admittedPorts (d : Dev) : List Nat := (List.range 16).filter (fun n => d.portAdmitted n)

/-- A packet joins the queue of its lane on a port (R293). -/
def Dev.enqueue (d : Dev) (n vl : Nat) (pkt : Packet) : Dev :=
  let x := d.port n
  d.setPort n { x with txq := SMap.set [] x.txq vl (SMap.get [] x.txq vl ++ [pkt]) }

def packetHeader (p : Packet) : PacketHeader := packetOf p.hdr.toNat

/-- Payload lines, for LINES_M1. -/
def linesM1 (payload : List Byte) : Nat := payload.length / 64 - 1

def noHeader : PacketHeader :=
  { dstChip := 0, srcChip := 0, mpart := 0, epoch := 0, ptype := 0, vl := 0, plane := 0, tag := 0, linesM1 := 0,
    poison := 0, guard := 0, guardTally := 0, guardCount := 0, status := 0, offset := 0, byteEnOrLinePoison := 0 }

def packetFrom (h : PacketHeader) (payload : List Byte) : Packet :=
  { hdr := BitVec.ofNat 256 (packetBits h), payload := payload }

/-- DST_CHIP of a packet that no chip number addresses, ARRIVE, PROBE, IDENT and TIME: the spec gives none (free, log 23). -/
def Dev.freeChip (d : Dev) : Nat × Dev :=
  let r := d.draw
  (r.1.toNat % 2 ^ 16, r.2)

/-! The receive buffer (R285, R286). -/

/-- A port says something to its neighbour. -/
def Dev.tell (d : Dev) (n : Nat) (c : Control) : Dev := d.setPort n { d.port n with control := (d.port n).control ++ [c] }

/-- A packet has left the receive buffer: its credits go back, tagged as they came, on lanes that the port still grants (R286, R303,
R307). -/
def Dev.leaveBuffer (d : Dev) (n vl own shared : Nat) : Dev :=
  if d.portAdmitted n = false ∧ vl ≠ vlManagement then d
  else
    let x := d.port n
    (d.setPort n { x with granted := SMap.set 0 x.granted vl (SMap.get 0 x.granted vl + own)
                          grantedPool := x.grantedPool + shared }).tell n (.credits vl own shared)

/-! Bindings and routes. -/

/-- The partition bound to a machine partition (R312); MPART 0 is never bound. -/
def Dev.boundTo (d : Dev) (mpart : Nat) : Option Nat :=
  if mpart = 0 then none else (List.range 4).find? (fun p => decide (d.get (kPartMpart p) = mpart))

/-- A partition that has joined a job. -/
def Dev.isBound (d : Dev) (p : Nat) : Bool := decide (d.get (kPartMpart p) ≠ 0)

def Dev.route (d : Dev) (chip : Nat) : Nat := SMap.get 0xC000FFFF d.fabric.routes chip

/-- The usable ports for a chip (R298). -/
def Dev.usablePorts (d : Dev) (chip : Nat) : List Nat :=
  let e := d.route chip
  if bit e 31 = false ∨ chip = 0xFFFF then []
  else
    let own := d.admittedPorts.filter (fun n => bit e n)
    if own = [] ∧ bit e 30 = true then d.admittedPorts else own

/-- The engine whose command a request serves. -/
def reqEngine : ReqFor → Option Nat
  | .haulWrite h _ _ _ => some (0x10 + h)
  | .haulRead h _ _ => some (0x10 + h)
  | .haulReadback h _ => some (0x10 + h)
  | .signal c => some c.k.e
  | .exchange _ => some 0x20
  | .bedWrite _ => some 0x21
  | .digestRec _ kind => if kind = 2 then some 0x20 else if kind = 3 then some 0x21 else none
  | .mirror _ _ _ => none
  | .ckpt _ => none

/-- The rotation that a request moves on: that of its engine, a haul engine's one for every partition; the agents for mirrors,
checkpoints and the other digests have one each (DEDUCED, log 100). -/
def rotationOf (p : Nat) (what : ReqFor) : Nat :=
  match reqEngine what with
  | some e => if 0x10 ≤ e ∧ e < 0x20 then e else 64 * (p + 1) + e
  | none =>
    match what with
    | .mirror _ _ _ => 64 * (p + 1) + 0x30
    | .ckpt _ => 64 * (p + 1) + 0x31
    | _ => 64 * (p + 1) + 0x32

/-- The next port of a rotation, and the rotation moved on. -/
def Dev.pickPort (d : Dev) (r chip : Nat) : Option (Nat × Dev) :=
  let us := d.usablePorts chip
  let at_ := SMap.get 0 d.fabric.portPtr r
  let order := us.filter (fun n => decide (at_ ≤ n)) ++ us.filter (fun n => decide (n < at_))
  match order with
  | [] => none
  | n :: _ => some (n, { d with fabric := { d.fabric with portPtr := SMap.set 0 d.fabric.portPtr r ((n + 1) % 16) } })

/-! A request at its destination. -/

/-- An answer to a request: its status, and the lines of a read with the marks of the poisoned ones. -/
structure Reply where
  status : Nat
  data : List Byte
  lines : Nat
  deriving DecidableEq, Repr

def replyOf (status : Nat) : Reply := { status := status, data := [], lines := 0 }

/-- A byte lies in an enabled remote window with the right asked for (R300). -/
def Dev.windowHas (d : Dev) (p a right : Nat) : Bool :=
  (List.range 4).any (fun i =>
    let w := d.get (kRemoteWindow p i)
    let base := fld w 63 40 * 2 ^ 20
    bit w 0 && bit w right && decide (base ≤ a) && decide (a < base + fld w 39 16 * 2 ^ 20))

/-- Every byte of the range is open to remote access; windows are MiB-aligned and a request holds at most 4 KiB, so its
ends decide. -/
def Dev.windowOk (d : Dev) (p off n right : Nat) : Bool :=
  d.windowHas p off right && d.windowHas p (off + n - 1) right && decide (off + n ≤ d.workingBytes)

/-- The status of an access to a LOST pseudo-channel: an error response whose code the spec does not give (free, log 12). -/
def Dev.errorStatus (d : Dev) : Nat × Dev :=
  let r := d.draw
  (1 + r.1.toNat % 6, r.2)

/-- The first and last enabled bytes of a single-line WRITE. -/
def enabledRange (be : Nat) : Option (Nat × Nat) :=
  match lowestBit be 64, ((List.range 64).reverse).find? (fun i => bit be i) with
  | some lo, some hi => some (lo, hi + 1 - lo)
  | _, _ => none

/-- R292, one line: the enabled bytes, and the line's mark. -/
def Dev.writeEnabled (d : Dev) (off be : Nat) (bs : List Byte) (poison : Bool) : Dev :=
  let d := ((List.range 64).filter (fun i => bit be i)).foldl (fun d i => d.setMemByte (off + i) (bs.getD i 0#8)) d
  if poison then d.markLine off true else if be = 2 ^ 64 - 1 then d.markLine off false else d

/-- R292, whole lines with their marks. -/
def Dev.writeLines (d : Dev) (off n lp : Nat) (bs : List Byte) : Dev :=
  (List.range n).foldl (fun d i => d.writeMem (off + 64 * i) ((bs.drop (64 * i)).take 64) (bit lp i)) d

def Dev.readLines (d : Dev) (off n : Nat) : Reply :=
  { status := stOk, data := d.readMem off (64 * n),
    lines := ((List.range n).map (fun i => if d.linePoisoned (off + 64 * i) then 2 ^ i else 0)).sum }

/-- A signal of a request: applied as it arrives, or, of a request this module makes to itself, set out for its home. -/
def Dev.signalOf' (d : Dev) (own : Bool) (s : Signal) : Dev := if own then d.fly s else d.applySignal s

/-- The right a request asks of its range: 1 read, 2 write. -/
def PacketHeader.right (h : PacketHeader) : Nat := if h.ptype = ptReadReq then 1 else 2

/-- The bytes of memory that a request touches: none of a SIGNAL, or of a WRITE that writes nothing. One that only marks its line
touches the line (R292). -/
def PacketHeader.span (h : PacketHeader) : Option (Nat × Nat) :=
  if h.ptype = ptSignal then none
  else if h.ptype = ptReadReq ∨ h.linesM1 ≠ 0 then some (h.offset, 64 * (h.linesM1 + 1))
  else
    match enabledRange h.byteEnOrLinePoison with
    | some r => some (h.offset + r.1, r.2)
    | none => if h.poison = 1 then some (h.offset, 64) else none

/-- A request that is allowed must wait for its lines (R245, R262). -/
def Dev.mustHold (d : Dev) (p : Nat) (h : PacketHeader) : Bool :=
  match h.span with
  | some r => d.windowOk p r.1 r.2 h.right && d.blocked r.1 r.2
  | none => false

/-- The status with which a request is turned away: a byte without the right, or an error response (R260, R295, R300). -/
def Dev.denied (d : Dev) (p : Nat) (h : PacketHeader) : Option (Dev × Reply) :=
  match h.span with
  | none => none
  | some r =>
    if d.windowOk p r.1 r.2 h.right = false then some (d, replyOf stAccessDenied)
    else if (d.lostIn r.1 r.2).isSome then some (d.errorStatus.2, replyOf d.errorStatus.1)
    else none

/-- A request performed: its data, its marks and its signal (R215, R217, R292). -/
def Dev.perform (d : Dev) (own : Bool) (p : Nat) (h : PacketHeader) (payload : List Byte) : Dev × Reply :=
  let n := h.linesM1 + 1
  let guarded := fun (d : Dev) =>
    if h.guard = 1 then
      d.signalOf' own { p := p, vt := h.guardTally, count := h.guardCount, payload := 0, epoch := h.epoch, chip := some h.srcChip,
                        guard := true, cmd := none, completes := false }
    else d
  if h.ptype = ptSignal then
    (d.applySignal { p := p, vt := h.guardTally, count := ofBytes (payload.take 4), payload := 0, epoch := h.epoch,
                     chip := some h.srcChip, guard := false, cmd := none, completes := false }, replyOf stOk)
  else if h.ptype = ptReadReq then (d, d.readLines h.offset n)
  else if n = 1 then (guarded (d.writeEnabled h.offset h.byteEnOrLinePoison payload (h.poison = 1)), replyOf stOk)
  else (guarded (d.writeLines h.offset n h.byteEnOrLinePoison payload), replyOf stOk)

/-- A WRITE, READ_REQ or SIGNAL served for partition `p` (R292, R295, R300); `own`: the module's own request. -/
def Dev.serve (d : Dev) (own : Bool) (p : Nat) (h : PacketHeader) (payload : List Byte) : Dev × Reply :=
  match d.denied p h with
  | some r => r
  | none => d.perform own p h payload

/-! Requests. -/

/-- The port of a request that does not leave the module. -/
def ownPort : Nat := 16

/-- The next tag that no outstanding request holds, from `t` upwards. -/
def freeTag (reqs : SMap (Option Req)) : (fuel : Nat) → Nat → Nat
  | 0, t => t
  | n + 1, t => if SMap.get none reqs t = none then t else freeTag reqs n ((t + 1) % 2 ^ 16)

def Dev.setReq (d : Dev) (tag : Nat) (r : Option Req) : Dev :=
  { d with fabric := { d.fabric with reqs := SMap.set none d.fabric.reqs tag r } }

def Dev.req (d : Dev) (tag : Nat) : Option Req := SMap.get none d.fabric.reqs tag

/-- A SIGNAL that the module addresses to itself sets out for its home, and completes there (R196, R297). -/
def Dev.flyOwn (d : Dev) (q : Nat) (what : ReqFor) (h : PacketHeader) (payload : List Byte) : Dev :=
  d.fly { p := q, vt := h.guardTally, count := ofBytes (payload.take 4), payload := 0, epoch := 0, chip := some d.chip,
          guard := false, cmd := match what with | .signal c => some c | _ => none, completes := true }

/-- A request of partition `p`: queued on a port with a fresh tag; or answered at once, by the requester where no port is
usable (R298), by the module itself where it is addressed (R297), once its lines are not held. -/
def Dev.request (d : Dev) (p : Nat) (what : ReqFor) (h : PacketHeader) (payload : List Byte) : Dev × Option Reply :=
  let h := { h with srcChip := d.chip, mpart := d.get (kPartMpart p), epoch := d.get (kPartEpoch p),
                    linesM1 := if h.ptype = ptReadReq then h.linesM1 else linesM1 payload }
  if h.dstChip = d.chip ∧ h.dstChip ≠ 0xFFFF then
    match d.boundTo h.mpart with
    | none => (d, some (replyOf stNotAdmitted))
    | some q =>
      if h.ptype = ptSignal then (d.flyOwn q what h payload, none)
      else if d.mustHold q h then
        let tag := freeTag d.fabric.reqs 65536 d.fabric.nextTag
        let pkt := packetFrom { h with tag := tag } payload
        let span := h.span.getD (0, 0)
        let d := (d.hold span.1 span.2 (.own tag q pkt)).setReq tag
          (some { what := what, p := p, pkt := pkt, sentAt := d.time, port := ownPort, notReadyAt := none })
        ({ d with fabric := { d.fabric with nextTag := (tag + 1) % 2 ^ 16 } }, none)
      else
        let r := d.serve true q h payload
        (r.1, some r.2)
  else
    match d.pickPort (rotationOf p what) h.dstChip with
    | none => (d, some (replyOf stNoRoute))
    | some (n, d) =>
      let tag := freeTag d.fabric.reqs 65536 d.fabric.nextTag
      let pkt := packetFrom { h with plane := n, tag := tag } payload
      let d := (d.enqueue n h.vl pkt).setReq tag
        (some { what := what, p := p, pkt := pkt, sentAt := d.time, port := n, notReadyAt := none })
      ({ d with fabric := { d.fabric with nextTag := (tag + 1) % 2 ^ 16 } }, none)

/-- Requests of a partition still without an answer. -/
def Dev.outstandingOf (d : Dev) (p : Nat) : List (Nat × Req) :=
  d.fabric.reqs.filterMap (fun x => match x.2 with
    | some r => if r.p = p then some (x.1, r) else none
    | none => none)

/-- Some request satisfies the test. -/
def Dev.anyReq (d : Dev) (f : Req → Bool) : Bool :=
  d.fabric.reqs.any (fun x => match x.2 with | some r => f r | none => false)

/-- A packet that answers a request leaves on the port at which the request came (DEDUCED, log 13). -/
def Dev.respond (d : Dev) (n : Nat) (h : PacketHeader) (r : Reply) : Dev :=
  d.enqueue n h.vl (packetFrom
    { noHeader with
      dstChip := h.srcChip, srcChip := d.chip, mpart := h.mpart, epoch := h.epoch, ptype := ackType h.ptype, vl := h.vl,
      plane := n, tag := h.tag, linesM1 := linesM1 r.data, status := r.status, poison := if r.lines = 0 then 0 else 1,
      byteEnOrLinePoison := r.lines } r.data)

/-- A request can no longer be answered for its requester: it is forgotten (aborts, R441, are waited for instead). -/
def Dev.dropReqs (d : Dev) (f : Req → Bool) : Dev :=
  { d with fabric := { d.fabric with reqs := d.fabric.reqs.filter (fun x => match x.2 with | some r => !f r | none => true) } }

/-! Remote signals. -/

/-- One line that holds a number in its low bits. -/
def lineOf (v : Nat) : List Byte := toBytes v 64

/-- A SIGNAL with REMOTE 1 is sent (R217). -/
def Dev.requestSignal (d : Dev) (s : Signal) (c : Cmd) : Dev × Option Reply :=
  d.request s.p (.signal c)
    { noHeader with dstChip := s.chip.getD 0xFFFF, ptype := ptSignal, vl := vlData, guard := 1, guardTally := s.vt }
    (lineOf s.count)

end Sys2Proof.Machine
end

