-- ==== Sys2Proof/Machine/Num.lean ====
section
/-! DEFINITION. Numerics level 1 to the bit (spec 02): formats (R40, R41), exact values, the one rounding RNE, compensated
pairs (R45, R46) and the scalar operations of R70 to R72. A finite value is a sign, a natural significand and an integer
exponent; nothing is rounded except where a rule rounds. -/

namespace Sys2Proof.Machine

/-- The formats of R40 by name. -/
inductive Fmt where
  | fp32 | bf16 | binary16 | e4m3 | e5m2 | pair
  deriving DecidableEq, Repr

/-- Format code of a command word's field; none outside *Formats* (R40). -/
def Fmt.ofCode (c : Nat) : Option Fmt :=
  match c with
  | 0 => some .fp32 | 1 => some .bf16 | 2 => some .binary16 | 3 => some .e4m3 | 4 => some .e5m2 | 5 => some .pair
  | _ => none

def Fmt.bits : Fmt → Nat
  | .fp32 => 32 | .bf16 => 16 | .binary16 => 16 | .e4m3 => 8 | .e5m2 => 8 | .pair => 32

def Fmt.bytes (f : Fmt) : Nat := f.bits / 8

/-- Fraction bits; a PAIR is read through its BF16 halves. -/
def Fmt.frac : Fmt → Nat
  | .fp32 => 23 | .bf16 => 7 | .binary16 => 10 | .e4m3 => 3 | .e5m2 => 2 | .pair => 7

def Fmt.expBits : Fmt → Nat
  | .fp32 => 8 | .bf16 => 8 | .binary16 => 5 | .e4m3 => 4 | .e5m2 => 5 | .pair => 8

def Fmt.bias : Fmt → Nat
  | .fp32 => 127 | .bf16 => 127 | .binary16 => 15 | .e4m3 => 7 | .e5m2 => 15 | .pair => 127

/-- Magnitude bits of the largest finite value (R40). -/
def Fmt.maxFinite : Fmt → Nat
  | .fp32 => 0x7F7FFFFF | .bf16 => 0x7F7F | .binary16 => 0x7BFF | .e4m3 => 0x7E | .e5m2 => 0x7B | .pair => 0x7F7F

/-- The canonical NaN (R40, R43). -/
def Fmt.nan : Fmt → Nat
  | .fp32 => 0x7FC00000 | .bf16 => 0x7FC0 | .binary16 => 0x7E00 | .e4m3 => 0x7F | .e5m2 => 0x7E | .pair => 0x7FC00000

/-- The bits of +infinity; E4M3 has none, and an infinity converted to it becomes 0x7F (R67). -/
def Fmt.inf : Fmt → Nat
  | .fp32 => 0x7F800000 | .bf16 => 0x7F80 | .binary16 => 0x7C00 | .e4m3 => 0x7F | .e5m2 => 0x7C | .pair => 0x7F800000

/-- An exact value: NaN, a signed infinity, or (-1)^neg * m * 2^e. -/
inductive Val where
  | nan
  | inf (neg : Bool)
  | fin (neg : Bool) (m : Nat) (e : Int)
  deriving DecidableEq, Repr

def Val.zero : Val := .fin false 0 0

def Val.isNan : Val → Bool
  | .nan => true
  | _ => false

def Val.isFinite : Val → Bool
  | .fin _ _ _ => true
  | _ => false

def Val.isZero : Val → Bool
  | .fin _ m _ => m == 0
  | _ => false

def Val.neg : Val → Val
  | .nan => .nan
  | .inf s => .inf (!s)
  | .fin s m e => .fin (!s) m e

def Val.abs : Val → Val
  | .nan => .nan
  | .inf _ => .inf false
  | .fin _ m e => .fin false m e

/-- R41 for codes 0x0 to 0x4: decode the bits of one element. -/
def decodeScalar (f : Fmt) (b : Nat) : Val :=
  let w := f.bits
  let neg := (b >>> (w - 1)) % 2 == 1
  let fr := b % 2 ^ f.frac
  let ex := (b >>> f.frac) % 2 ^ f.expBits
  let ones := 2 ^ f.expBits - 1
  let emin : Int := 1 - (f.bias : Int) - (f.frac : Int)
  if ex = 0 then .fin neg fr emin
  else if f = .e4m3 ∧ ex = ones ∧ fr = 7 then .nan
  else if ¬ f = .e4m3 ∧ ex = ones then (if fr = 0 then .inf neg else .nan)
  else .fin neg (2 ^ f.frac + fr) (emin + (ex : Int) - 1)

/-- The integer nearest to m * 2^k, ties to even; `sticky` says the exact value lies a little above m * 2^k. -/
def rneScale (m : Nat) (k : Int) (sticky : Bool) : Nat :=
  if 0 ≤ k then m * 2 ^ k.toNat
  else
    let n := (-k).toNat
    let q := m / 2 ^ n
    let r := m % 2 ^ n
    let half := 2 ^ (n - 1)
    if r > half ∨ (r = half ∧ (sticky ∨ q % 2 = 1)) then q + 1 else q

/-- Magnitude bits of RNE of m * 2^e (plus a sliver when sticky) with unbounded exponent range above. -/
def roundMagBits (f : Fmt) (m : Nat) (e : Int) (sticky : Bool) : Nat :=
  if m = 0 then 0
  else
    let emin : Int := 1 - (f.bias : Int)
    let top : Int := (Nat.log2 m : Int) + e
    let ex : Int := if top < emin then emin else top
    let n := rneScale m (e - (ex - (f.frac : Int))) sticky
    (ex - emin).toNat * 2 ^ f.frac + n

def withSign (f : Fmt) (neg : Bool) (b : Nat) : Nat := if neg then b + 2 ^ (f.bits - 1) else b

/-- One RNE of a finite value to a format of codes 0x0 to 0x4, with the outcomes of R67 and the signed zero of R68. -/
def roundFin (f : Fmt) (neg : Bool) (m : Nat) (e : Int) (sticky : Bool) : Nat :=
  let b := roundMagBits f m e sticky
  if b ≤ f.maxFinite then withSign f neg b
  else match f with
    | .e4m3 => withSign f neg f.maxFinite
    | .e5m2 => withSign f neg f.maxFinite
    | _ => withSign f neg f.inf

/-- One RNE of a value to a format of codes 0x0 to 0x4 (R43, R67). -/
def roundScalar (f : Fmt) : Val → Nat
  | .nan => f.nan
  | .inf neg => if f = .e4m3 then f.nan else withSign f neg f.inf
  | .fin neg m e => roundFin f neg m e false

/-- R68: finite before conversion and the RNE result with unbounded exponent range exceeds the largest finite. -/
def clipsScalar (f : Fmt) : Val → Bool
  | .fin _ m e => decide (f.maxFinite < roundMagBits f m e false)
  | _ => false

/-- Exact sum of two finite values; the sum of opposite values is +0 and of two negative zeros is -0. -/
def addFin (s1 : Bool) (m1 : Nat) (e1 : Int) (s2 : Bool) (m2 : Nat) (e2 : Int) : Val :=
  let e := min e1 e2
  let a : Int := (if s1 then -1 else 1) * ((m1 * 2 ^ (e1 - e).toNat : Nat) : Int)
  let b : Int := (if s2 then -1 else 1) * ((m2 * 2 ^ (e2 - e).toNat : Nat) : Int)
  let t := a + b
  if t = 0 then .fin (s1 && s2) 0 0 else .fin (decide (t < 0)) t.natAbs e

/-- Exact sum; IEEE 754 rules for the non-finite (R64). -/
def Val.add : Val → Val → Val
  | .nan, _ => .nan
  | _, .nan => .nan
  | .inf a, .inf b => if a = b then .inf a else .nan
  | .inf a, .fin _ _ _ => .inf a
  | .fin _ _ _, .inf b => .inf b
  | .fin s1 m1 e1, .fin s2 m2 e2 => addFin s1 m1 e1 s2 m2 e2

def Val.sub (a b : Val) : Val := Val.add a (Val.neg b)

/-- Exact product; zero times infinity is NaN. -/
def Val.mul : Val → Val → Val
  | .nan, _ => .nan
  | _, .nan => .nan
  | .inf a, .inf b => .inf (a != b)
  | .inf a, .fin s m _ => if m = 0 then .nan else .inf (a != s)
  | .fin s m _, .inf b => if m = 0 then .nan else .inf (s != b)
  | .fin s1 m1 e1, .fin s2 m2 e2 => .fin (s1 != s2) (m1 * m2) (e1 + e2)

/-- Exact multiplication by a power of two. -/
def Val.scale (k : Int) : Val → Val
  | .nan => .nan
  | .inf s => .inf s
  | .fin s m e => .fin s m (e + k)

/-- Quotient rounded once by RNE to the format (R70, R71). -/
def divRound (f : Fmt) : Val → Val → Nat
  | .nan, _ => f.nan
  | _, .nan => f.nan
  | .inf _, .inf _ => f.nan
  | .inf a, .fin s _ _ => roundScalar f (.inf (a != s))
  | .fin s _ _, .inf b => roundScalar f (.fin (s != b) 0 0)
  | .fin s1 m1 e1, .fin s2 m2 e2 =>
    if m2 = 0 then (if m1 = 0 then f.nan else roundScalar f (.inf (s1 != s2)))
    else if m1 = 0 then roundScalar f (.fin (s1 != s2) 0 0)
    else
      let k := Nat.log2 m2 + 64
      let n := m1 * 2 ^ k
      let q := n / m2
      roundFin f (s1 != s2) (2 * q + (if n % m2 = 0 then 0 else 1)) (e1 - e2 - (k : Int) - 1) false

/-- Square root rounded once by RNE (R70); -0 gives -0. -/
def sqrtRound (f : Fmt) : Val → Nat
  | .nan => f.nan
  | .inf neg => if neg then f.nan else roundScalar f (.inf false)
  | .fin neg m e =>
    if m = 0 then withSign f neg 0
    else if neg then f.nan
    else
      let k := 128 + (e % 2).toNat
      let n := m * 2 ^ k
      let r := Nat.sqrt n
      roundFin f false (2 * r + (if r * r = n then 0 else 1)) ((e - (k : Int)) / 2 - 1) false

/-- Reciprocal square root, correctly rounded; rSqrt of a zero is the infinity of its sign (R72). -/
def rsqrtRound (f : Fmt) : Val → Nat
  | .nan => f.nan
  | .inf neg => if neg then f.nan else 0
  | .fin neg m e =>
    if m = 0 then roundScalar f (.inf neg)
    else if neg then f.nan
    else
      -- 1 / sqrt (m * 2^e) = sqrt (2^(2j) / m) * 2^(-j - e/2) with e made even
      let m2 := m * 2 ^ (e % 2).toNat
      let h := (e - e % 2) / 2
      let j := Nat.log2 m2 + 80
      let q := 2 ^ (2 * j) / m2
      let r := Nat.sqrt q
      let exact := r * r * m2 = 2 ^ (2 * j)
      roundFin f false (2 * r + (if exact then 0 else 1)) (-(j : Int) - h - 1) false

/-- The working precision, in bits, of the two transcendental functions. -/
def transBits : Nat := 256

/-- 2^(a / 2^n) for a < 2^n, as a floor scaled by 2^transBits, bit by bit: `root` is 2^(2^-i) in the same scale. -/
def exp2Frac (a : Nat) : (n : Nat) → (root acc : Nat) → Nat
  | 0, _, acc => acc
  | n + 1, root, acc =>
    let acc' := if (a >>> n) % 2 = 1 then acc * root / 2 ^ transBits else acc
    exp2Frac a n (Nat.sqrt (root * 2 ^ transBits)) acc'

/-- exp2 rounded by RNE. An integer argument is exact; every other value is irrational and is computed to 256 bits, far
beyond the distance at which a binary32 result could still be undecided (PRESUMED, log 20). -/
def exp2Round (f : Fmt) : Val → Nat
  | .nan => f.nan
  | .inf neg => if neg then 0 else roundScalar f (.inf false)
  | .fin neg m e =>
    if m = 0 then roundScalar f (.fin false 1 0)
    else if 0 ≤ e then
      let k := m * 2 ^ (min e.toNat 64)
      let k := min k 100000
      roundFin f false 1 (if neg then -(k : Int) else (k : Int)) false
    else
      let n := (-e).toNat
      if m ≥ 100000 * 2 ^ n then roundFin f false 1 (if neg then -100000 else 100000) false
      else
        let i : Int := if neg then -((m : Int)) else (m : Int)
        let fl : Int := i / (2 ^ n : Nat)
        let fr : Nat := (i % (2 ^ n : Nat)).toNat
        if fr = 0 then roundFin f false 1 fl false
        else
          let root := Nat.sqrt (2 ^ (2 * transBits + 1))
          let acc := exp2Frac fr n root (2 ^ transBits)
          roundFin f false (2 * acc + 1) (fl - (transBits : Int) - 1) false

/-- Binary digits of log2 of x / 2^transBits in [1, 2), by repeated squaring. -/
def log2Digits : (n : Nat) → (x acc : Nat) → Nat
  | 0, _, acc => acc
  | n + 1, x, acc =>
    let y := x * x / 2 ^ transBits
    if y ≥ 2 ^ (transBits + 1) then log2Digits n (y / 2) (2 * acc + 1) else log2Digits n y (2 * acc)

/-- log2 rounded by RNE; exact for powers of two, irrational otherwise (PRESUMED as for exp2, log 20). -/
def log2Round (f : Fmt) : Val → Nat
  | .nan => f.nan
  | .inf neg => if neg then f.nan else roundScalar f (.inf false)
  | .fin neg m e =>
    if m = 0 then roundScalar f (.inf true)
    else if neg then f.nan
    else
      let l := Nat.log2 m
      let ip : Int := (l : Int) + e
      if m = 2 ^ l then roundScalar f (.fin (decide (ip < 0)) ip.natAbs 0)
      else
        let digits := log2Digits 128 (m * 2 ^ transBits / 2 ^ l) 0
        let t : Int := ip * (2 ^ 129 : Nat) + (2 * digits + 1 : Nat)
        roundFin f (decide (t < 0)) t.natAbs (-129) false

/-- Strict order of two values that are not NaN; -0 and +0 are equal. -/
def Val.lt : Val → Val → Bool
  | .nan, _ => false
  | _, .nan => false
  | .inf a, .inf b => a && !b
  | .inf a, .fin _ _ _ => a
  | .fin _ _ _, .inf b => !b
  | .fin s1 m1 e1, .fin s2 m2 e2 =>
    match addFin s1 m1 e1 (!s2) m2 e2 with
    | .fin s m _ => s && m != 0
    | _ => false

/-- IEEE equality: NaN equals nothing, -0 equals +0. -/
def Val.eq (a b : Val) : Bool := !a.isNan && !b.isNan && !Val.lt a b && !Val.lt b a

def Val.signBit : Val → Bool
  | .nan => false
  | .inf s => s
  | .fin s _ _ => s

/-- IEEE 754-2019 minimum: a NaN gives NaN and -0 orders below +0 (R72). -/
def Val.minimum (a b : Val) : Val :=
  if a.isNan || b.isNan then .nan
  else if Val.lt a b then a else if Val.lt b a then b else if a.signBit then a else b

def Val.maximum (a b : Val) : Val :=
  if a.isNan || b.isNan then .nan
  else if Val.lt a b then b else if Val.lt b a then a else if a.signBit then b else a

/-- RNE to FP32, as FP32 bits. -/
def toFp32 (v : Val) : Nat := roundScalar .fp32 v

def ofFp32 (b : Nat) : Val := decodeScalar .fp32 b

/-- FP32 operations on bits, one RNE each. -/
def fp32Add (a b : Nat) : Nat := toFp32 (Val.add (ofFp32 a) (ofFp32 b))
def fp32Mul (a b : Nat) : Nat := toFp32 (Val.mul (ofFp32 a) (ofFp32 b))
def fp32Sub (a b : Nat) : Nat := toFp32 (Val.sub (ofFp32 a) (ofFp32 b))

/-- A finite exact result that rounds beyond FP32's range (R55, R61). -/
def overflowsFp32 (v : Val) : Bool := clipsScalar .fp32 v

/-- R45: an FP32 value, given by its bits, as PAIR. -/
def toPair (x : Nat) : Nat :=
  let v := ofFp32 x
  let head := roundScalar .bf16 v
  let hv := decodeScalar .bf16 head
  let tail := if hv.isFinite then roundScalar .bf16 (Val.sub v hv) else 0
  head * 2 ^ 16 + tail

/-- The exact value of a PAIR; a non-finite HEAD gives its value (R44, R46, R72). -/
def pairVal (b : Nat) : Val :=
  let hv := decodeScalar .bf16 (b / 2 ^ 16)
  if hv.isFinite then Val.add hv (decodeScalar .bf16 (b % 2 ^ 16)) else hv

/-- R46: a PAIR as FP32. -/
def pairToFp32 (b : Nat) : Nat := toFp32 (pairVal b)

/-- The value an element of any format stands for, a PAIR exactly (R72) . -/
def elemVal (f : Fmt) (b : Nat) : Val := if f = .pair then pairVal b else decodeScalar f b

/-- An element of any format taken as FP32: exactly, except that a PAIR is converted by R46 (R56, R59). -/
def elemToFp32 (f : Fmt) (b : Nat) : Nat := if f = .pair then pairToFp32 b else toFp32 (decodeScalar f b)

/-- Conversion of an exact value to any format: one RNE, a PAIR through FP32 and R45 (R66, R72). -/
def convert (f : Fmt) (v : Val) : Nat := if f = .pair then toPair (toFp32 v) else roundScalar f v

/-- R68, the PAIR rule included: clipped. `x` is the value before scaling, `v` the scaled value. -/
def clipped (f : Fmt) (x v : Val) : Bool :=
  x.isFinite &&
    (if f = .pair then clipsScalar .fp32 v || clipsScalar .bf16 (ofFp32 (toFp32 v)) else clipsScalar f v)

/-- R68: underflowed: finite and nonzero before conversion and the conversion gives zero (a PAIR: both halves). -/
def underflowed (f : Fmt) (x : Val) (b : Nat) : Bool :=
  x.isFinite && !x.isZero &&
    (if f = .pair then b / 2 ^ 16 % 2 ^ 15 = 0 && b % 2 ^ 15 = 0 else b % 2 ^ (f.bits - 1) = 0)

/-- The exponent floor(log2 |v|) of a nonzero finite value. -/
def Val.exponent : Val → Int
  | .fin _ m e => (Nat.log2 m : Int) + e
  | _ => 0

/-- A sum over a fixed binary tree: element 2i with element 2i + 1 at every level (R73, R333); an odd last element passes
up paired with nothing, which never happens for the power-of-two lengths the rules use. -/
def pairUp (add : Nat → Nat → Nat) : List Nat → List Nat
  | a :: b :: l => add a b :: pairUp add l
  | l => l

def treeSum (add : Nat → Nat → Nat) : (levels : Nat) → List Nat → Nat
  | 0, l => l.headD 0
  | n + 1, l => treeSum add n (pairUp add l)

end Sys2Proof.Machine
end

