-- ==== Sys2Proof/Machine/Malformed.lean ====
section
/-! DEFINITION. Malformed commands (R159, R192, R329): for every condition that holds, the lowest bit of the field that
offends. A condition that names no field, such as a panel beyond 8 MiB, offends in the address field concerned (DEDUCED, log
11). -/

namespace Sys2Proof.Machine

/-- Bit `b` offends when the condition holds. -/
def offend (c : Prop) [Decidable c] (b : Nat) : List Nat := if c then [b] else []

/-- Bytes per element of a format code. -/
def fmtSize (c : Nat) : Nat :=
  match Fmt.ofCode c with
  | some f => f.bytes
  | none => 1

/-- Formats a face takes only in pair mode: FP32 and PAIR (R48). -/
def wideFmt (c : Nat) : Bool := c = 0 || c = 5

/-- Pair mode applies when one operand is FP32 or PAIR (R151). -/
def MatmulBody.pairMode (m : MatmulBody) : Bool := wideFmt m.wfmt || wideFmt m.afmt

/-- LIFT_MAP (R122): first logical bench and count. -/
def Dev.liftFirst (d : Dev) (p e : Nat) : Nat := fld (d.get (kLiftMap p e)) 6 0
def Dev.liftCount (d : Dev) (p e : Nat) : Nat := fld (d.get (kLiftMap p e)) 14 8

/-- Which opcodes an engine accepts (R121, R131). -/
def accepts (e op : Nat) : Bool :=
  (1 ≤ op && op ≤ 6) ||
  (decide (e < 0x10) && (op = opMatmul || op = opVector)) ||
  (decide (0x10 ≤ e) && decide (e < 0x20) && op = opHaul) ||
  (e = 0x20 && (op = opHopper || op = opVote)) ||
  (e = 0x21 && (op = opSnapshot || op = opRestore || op = opStream))

/-- The header's conditions. -/
def headerOffences (d : Dev) (k : ChainId) (w : Nat) : List Nat :=
  let h := headerOf w
  let e : Nat := k.e
  let p : Nat := k.p
  let order := h.opcode = opSegment ∨ h.opcode = opLink
  List.flatten [
  offend (accepts e h.opcode = false) 56,
  reservedBits w headerReserved,
  offend (h.waitKind = 3) 54,
  offend (h.waitKind ≠ 0 ∧ h.waitThresh = 0) 13,
  offend (h.waitKind = 1 ∧ h.benchSel = 0x7F) 54,
  offend (h.sigEn = 1 ∧ h.sigCount = 0) 5,
  offend (0x10 ≤ e ∧ h.benchSel ≠ 0 ∨ e < 0x10 ∧ h.benchSel ≠ 0x7F ∧ d.liftCount p e ≤ h.benchSel) 89,
  offend (h.opcode ≠ opHaul ∧ h.channel ≠ 0 ∨ h.opcode = opHaul ∧ d.haulOwner (e - 0x10) h.channel ≠ p) 86,
  offend (order ∧ h.waitKind ≠ 0) 54, offend (order ∧ h.sigEn ≠ 0) 53, offend (order ∧ h.ordered ≠ 0) 4,
  offend (h.waitKind ≠ 0 ∧ d.mapped p h.waitTally = false) 41,
  offend (h.waitKind = 1 ∧ d.leafSlots p h.waitTally ≠ []) 41,
  offend (h.sigEn = 1 ∧ d.mapped p h.sigTally = false) 29]

def segmentOffences (w : Nat) : List Nat :=
  let b := segmentOf w
  reservedBits w segmentReserved ++ offend (2 ≤ b.dlMode) 254 ++ offend (b.dlMode = 0 ∧ b.deadline = 0) 128 ++
  offend (5 ≤ b.segKind) 214

def waitOffences (d : Dev) (p : Nat) (w : Nat) : List Nat :=
  let b := waitOf w
  reservedBits w waitReserved ++ offend (b.kind = 0 ∨ b.kind = 3) 190 ++ offend (b.thresh = 0) 146 ++
  offend (b.kind = 1 ∧ (headerOf w).benchSel = 0x7F) 89 ++ offend (d.mapped p b.tally = false) 178 ++
  offend (b.kind = 1 ∧ d.leafSlots p b.tally ≠ []) 178

def signalOffences (d : Dev) (p : Nat) (w : Nat) : List Nat :=
  let b := signalOf w
  reservedBits w signalReserved ++ offend (b.count = 0) 147 ++ offend (b.remote = 0 ∧ b.chip ≠ 0) 191 ++
  offend (b.chip = 0xFFFF) 240 ++ offend (b.remote = 0 ∧ d.mapped p b.tally = false) 179

/-- Conditions of SELECT but for guarded words that reach the LINK, which the sequencer finds as it reads. -/
def selectOffences (e w : Nat) : List Nat :=
  let b := selectOf w
  reservedBits w selectReserved ++ offend (b.count = 0) 174 ++
  offend (b.decisionAddr % 4 ≠ 0 ∨ b.dev = 0 ∧ 2 ^ 23 ≤ b.decisionAddr) 128 ++ offend (b.dev = 0 ∧ 0x10 ≤ e) 191

/-- One past the last byte of a block of rows 0 to `r` and `cols` columns (R151). -/
def blockEnd (base stride order size r cols : Nat) : Nat :=
  if order = 0 then base + r * 64 * stride + cols * size else base + (cols - 1) * 64 * stride + (r + 1) * size

/-- The last block row: row ROWS_M1 of the highest face taking part. -/
def MatmulBody.lastRow (m : MatmulBody) : Nat := 64 * Nat.log2 m.faceMask + m.rowsM1

/-- Conditions of a MATMUL on logical bench `l` of a partition with `n` logical benches. A PRE_FMT that no preload takes (R56)
offends only with PRE_EN 1 (DESIGN CHOICE, log 137). What relates CONV_POS to an output field offends in the lower of the
two. -/
def matmulOffences (l n w : Nat) : List Nat :=
  let m := matmulOf w
  let inner := m.convPos = 1 ∨ m.convPos = 2
  let k := m.kM1 + 1
  let cols := m.colsM1 + 1
  List.flatten [
  reservedBits w matmulReserved,
  offend (5 < m.ofmt) 144, offend (5 < m.afmt) 148, offend (5 < m.wfmt) 152, offend (5 < m.preFmt) 276,
  offend (5 < m.epiFmt) 399,
  offend (wideFmt m.wfmt = true ∧ wideFmt m.afmt = true) 148,
  offend (m.preEn = 1 ∧ (m.preFmt = 3 ∨ m.preFmt = 4)) 276,
  offend (9 ≤ m.promoteN) 137,
  offend (m.pairMode = true ∧ m.accSlot % 2 = 1) 141,
  offend (m.faceMask = 0) 156,
  offend (3 ≤ m.epiOp) 405,
  offend (m.epiShape ≠ 0 ∧ m.epiStride ≠ 0) 403,
  offend (signed 9 m.expHi < signed 9 m.expLo) 494,
  offend (inner ∧ (m.convSucc = l ∨ n ≤ m.convSucc)) 477,
  offend (inner ∧ m.tswAddr ≠ 0) 256, offend (inner ∧ m.scaleExp ≠ 0) 335, offend (inner ∧ m.outOrder ≠ 0) 343,
  offend (inner ∧ m.outStride ≠ 0) 344, offend (inner ∧ m.outAddr ≠ 0) 361, offend (inner ∧ m.epiFmt ≠ 0) 399,
  offend (inner ∧ m.epiShape ≠ 0) 403, offend (inner ∧ m.epiOp ≠ 0) 405, offend (inner ∧ m.epiStride ≠ 0) 408,
  offend (inner ∧ m.epiAddr ≠ 0) 425, offend (inner ∧ m.expLo ≠ 0) 492, offend (inner ∧ m.expHi ≠ 0) 492,
  offend (m.tswAddr % 2 = 1) 256,
  offend (storeBytes < m.wAddr + k * 64 * fmtSize m.wfmt) 233,
  offend (storeBytes < m.aAddr + 64 * Nat.log2 m.faceMask * m.aFstride + k * 64 * fmtSize m.afmt) 210,
  offend (m.preEn = 1 ∧ storeBytes < blockEnd m.preAddr m.preStride m.outOrder (fmtSize m.preFmt) m.lastRow cols) 297,
  offend (¬ inner ∧ storeBytes < blockEnd m.outAddr m.outStride m.outOrder (fmtSize m.ofmt) m.lastRow cols) 361,
  offend (¬ inner ∧ storeBytes < 8 * m.tswAddr + 16) 256,
  offend (¬ inner ∧ (m.epiOp = 1 ∨ m.epiOp = 2) ∧ storeBytes <
    (if m.epiShape = 0 then blockEnd m.epiAddr m.epiStride m.outOrder (fmtSize m.epiFmt) m.lastRow cols
     else if m.epiShape = 1 then m.epiAddr + (m.lastRow + 1) * fmtSize m.epiFmt
     else if m.epiShape = 2 then m.epiAddr + cols * fmtSize m.epiFmt
     else m.epiAddr + fmtSize m.epiFmt)) 425]

def vectorOffences (w : Nat) : List Nat :=
  let b := vectorOf w
  reservedBits w vectorReserved ++ offend (b.progLen = 0) 161 ++
  offend (b.progAddr % 16 ≠ 0 ∨ storeBytes < b.progAddr + 16 * b.progLen) 169

/-- One side of a descriptor (R165). -/
structure Side where
  addr : Nat
  unit : Nat
  space : Nat
  w : Nat
  n1 : Nat
  n2 : Nat
  s1 : Nat
  s2 : Nat
  deriving DecidableEq, Repr

def Descriptor.dst (x : Descriptor) : Side :=
  { addr := x.dstAddr, unit := x.dstUnit, space := x.dstSpace, w := x.dstWM1 + 1, n1 := x.dstN1M1 + 1,
    n2 := x.dstN2M1 + 1, s1 := x.dstStride1, s2 := x.dstStride2 }

def Descriptor.src (x : Descriptor) : Side :=
  { addr := x.srcAddr, unit := x.srcUnit, space := x.srcSpace, w := x.srcWM1 + 1, n1 := x.srcN1M1 + 1,
    n2 := x.srcN2M1 + 1, s1 := x.srcStride1, s2 := x.srcStride2 }

/-- T of R166. -/
def Side.total (s : Side) : Nat := s.w * s.n1 * s.n2

/-- The highest address of the pattern. -/
def Side.last (s : Side) : Nat := s.addr + (s.n2 - 1) * s.s2 + (s.n1 - 1) * s.s1 + s.w - 1

def Side.badUnit (s : Side) : Bool :=
  (s.space = 0 && s.unit ≠ 0) || (s.space = 1 && decide (95 < s.unit)) || (s.space = 2 && s.unit = 0xFFFF)

/-- Bytes per element of TE. -/
def teSize (te : Nat) : Nat := 2 ^ te

/-- The serving read class is granted to the partition (R243). -/
def Dev.serving (d : Dev) (p : Nat) : Bool := bit (d.get (kMemPolicy p)) 1

def haulOffences (d : Dev) (p w : Nat) : List Nat :=
  let x := haulOf w
  let a := x.src
  let z := x.dst
  let te := teSize x.te
  List.flatten [
  reservedBits w haulReserved,
  offend (a.space = 3) 278, offend (z.space = 3) 450, offend (a.space = 2 ∧ z.space = 2) 278,
  offend (a.badUnit = true) 280, offend (z.badUnit = true) 452,
  offend (a.total ≠ z.total ∨ 2 ^ 40 ≤ a.total) 232,
  offend (a.n2 = 1 ∧ a.s2 ≠ 0) 168, offend (a.n1 = 1 ∧ a.s1 ≠ 0) 200,
  offend (z.n2 = 1 ∧ z.s2 ≠ 0) 340, offend (z.n1 = 1 ∧ z.s1 ≠ 0) 372,
  offend (1 < z.n1 ∧ z.s1 < z.w) 372, offend (1 < z.n2 ∧ z.s2 < (z.n1 - 1) * z.s1 + z.w) 340,
  offend (a.space = 1 ∧ 2 ^ 23 ≤ a.last) 296, offend (z.space = 1 ∧ 2 ^ 23 ≤ z.last) 468,
  offend (x.transpose = 0 ∧ x.te ≠ 0 ∨ x.te = 3) 165,
  offend (x.transpose = 1 ∧ x.te ≠ 3 ∧ (a.w % te ≠ 0 ∨ z.w ≠ te ∨ z.n2 * te ≠ a.n1 * a.w)) 165,
  offend (x.transpose = 1 ∧ z.n1 ≠ a.n2) 232,
  offend (x.readClass = 1 ∧ d.serving p = false) 164,
  offend (x.guardEn = 1 ∧ x.guardCount = 0 ∨ x.guardEn = 0 ∧ x.guardCount ≠ 0) 143,
  offend (x.guardEn = 0 ∧ x.guardTally ≠ 0) 151]

/-- The list a collective entry holds: Q chips in rank order; empty for none (R326). -/
def Dev.collective (d : Dev) (p i : Nat) : List Nat := SMap.get [] d.training.collectives (16 * p + i)

def hopperOffences (d : Dev) (p w : Nat) : List Nat :=
  let b := hopperOf w
  let top := b.screen = 1 ∨ b.screen = 3
  List.flatten [
  reservedBits w hopperReserved,
  offend (b.hopperBytes < 4194304 ∨ 268435456 < b.hopperBytes ∨ b.hopperBytes % 65536 ≠ 0) 224,
  offend (b.hopperAddr % 65536 ≠ 0) 148, offend (4 < b.screen) 144,
  offend (15 < b.collective ∨ d.collective p b.collective = []) 324,
  offend (top ∧ (b.keep = 0 ∨ 0x7000 < b.keep)) 260,
  offend ((b.screen = 0 ∨ b.screen = 2 ∨ b.screen = 4) ∧ b.keep ≠ 0) 260,
  offend ((top ∨ b.screen = 2) ∧ b.finesAddr = 0) 276,
  offend ((b.screen = 0 ∨ b.screen = 4) ∧ b.finesAddr ≠ 0) 276,
  offend (b.finesAddr % 65536 ≠ 0) 276, offend (b.stagingAddr % 65536 ≠ 0) 340]

/-- Conditions of a bed command. An unaligned REGION_LIST is one of them (DESIGN CHOICE, log 137: the table does not list it). -/
def bedOffences (w : Nat) : List Nat :=
  let b := bedOf w
  let op := (headerOf w).opcode
  reservedBits w bedReserved ++ offend (b.regionCount = 0) 132 ++
  offend (op ≠ opStream ∧ b.destChip ≠ 0 ∨ b.destChip = 0xFFFF) 208 ++
  offend (b.regionList % 64 ≠ 0) 148

/-- Every offence of a word as a command of a chain, on logical bench `l` where the engine is a lift. -/
def offences (d : Dev) (k : ChainId) (l w : Nat) : List Nat :=
  let p : Nat := k.p
  let e : Nat := k.e
  let op := (headerOf w).opcode
  headerOffences d k w ++
  (if op = opSegment then segmentOffences w
   else if op = opLink then reservedBits w linkReserved
   else if op = opNop then offend (fld w 511 128 ≠ 0) 128
   else if op = opWait then waitOffences d p w
   else if op = opSignal then signalOffences d p w
   else if op = opSelect then selectOffences e w
   else if op = opMatmul then matmulOffences l (d.get (kPartLogicalBenches p)) w
   else if op = opVector then vectorOffences w
   else if op = opHaul then haulOffences d p w
   else if op = opHopper then hopperOffences d p w
   else if op = opVote then reservedBits w voteReserved
   else if op = opSnapshot ∨ op = opRestore ∨ op = opStream then bedOffences w
   else [])

/-- FIELD_BIT: the lowest of the offending bits (R159). -/
def lowestOf : List Nat → Option Nat
  | [] => none
  | b :: bs => match lowestOf bs with
    | none => some b
    | some c => some (if b < c then b else c)

end Sys2Proof.Machine
end

