-- ==== Sys2Proof/Machine/SeqOps.lean ====
section
/-! DEFINITION. Sequencers: lifts and the places of benches (R122, R123, R402, R403), cursors, faults of a chain (R159),
gauges (R144 to R146), the reports of commands in order (R128, R141) and the reading of the next word (R125, R130, R160). -/

namespace Sys2Proof.Machine

/-! Cursors. -/

/-- A chain by its numbers. -/
def chainOf (p e c : Nat) : ChainId :=
  ⟨⟨p % 4, Nat.mod_lt _ (by decide)⟩, ⟨e % 34, Nat.mod_lt _ (by decide)⟩, ⟨c % 4, Nat.mod_lt _ (by decide)⟩⟩

def chainIx (k : ChainId) : Nat := (34 * k.p + k.e) * 4 + k.c

def curKey (k : ChainId) (u : Nat) : Nat := chainIx k * 96 + u

def Dev.cursor (d : Dev) (k : ChainId) (u : Nat) : Cursor := SMap.get Cursor.idle d.seqs.cursors (curKey k u)

def Dev.setCursor (d : Dev) (k : ChainId) (u : Nat) (x : Cursor) : Dev :=
  { d with seqs := { d.seqs with cursors := SMap.set Cursor.idle d.seqs.cursors (curKey k u) x } }

def isLift (k : ChainId) : Bool := decide (k.e.val < 16)

/-- How many units read the chain: the benches of the lift, or one (R123). -/
def Dev.unitsOf (d : Dev) (k : ChainId) : Nat := if isLift k then d.liftCount k.p k.e else 1

/-- The logical bench of a lift-relative index. -/
def Dev.logicalOf (d : Dev) (k : ChainId) (u : Nat) : Nat := if isLift k then d.liftFirst k.p k.e + u else 0

/-- The unit exists and, on a bench, its tenant is resident. -/
def Dev.unitLive (d : Dev) (k : ChainId) (u : Nat) : Bool :=
  decide (u < d.unitsOf k) && (!isLift k || d.isResident k.p (d.logicalOf k u))

def Dev.unitPlace (d : Dev) (k : ChainId) (u : Nat) : Nat := d.placeOf k.p (d.logicalOf k u)

/-- Poll interval and default timeout as the chain took them at START (R161). -/
def Dev.takenOf (d : Dev) (k : ChainId) : Nat × Nat := SMap.get (1000, 60000000000) d.seqs.taken (chainIx k)

def cmdAt (k : ChainId) (u : Nat) (c : Cursor) (word : Nat) : Cmd :=
  { k := k, u := u, seq := c.expSeq, addr := c.pos, word := word, kind := c.kind, step := c.step, segId := c.segId,
    released := false }

/-- The command needs no wait, or has been released (R127). -/
def Cmd.free (c : Cmd) : Bool := c.released || decide ((headerOf c.word).waitKind = 0)

/-- Where a record places a command: its chain and, on a lift, its physical bench (R415, R416). -/
def Dev.whereCmd (d : Dev) (c : Cmd) : Where :=
  { atCmd c.k c.kind c.step c.segId c.seq with
    bench := if isLift c.k then d.hostBench c.k.p (d.logicalOf c.k c.u) else 0x7F }

/-- The waiter identifier of a chain's sequencer (R201, R208). -/
def Dev.seqWaiter (d : Dev) (k : ChainId) (u : Nat) : Nat :=
  if isLift k then waiterId 0 (d.hostBench k.p (d.logicalOf k u)) k.c k.p
  else if k.e.val < 0x20 then waiterId 3 (k.e.val - 0x10) k.c k.p
  else if k.e = 0x20 then waiterId 5 0 k.c k.p
  else waiterId 7 0 k.c k.p

/-- Every chain of a partition is HALTED, IDLE or FAULTED. -/
def Dev.chainsStill (d : Dev) (p : Nat) : Bool :=
  d.seqs.cursors.all (fun x => decide (x.1 / 13056 ≠ p) || (decide (x.2.state ≠ .running) && decide (x.2.state ≠ .polling)))

/-- Under DRAIN the teardown starts once every chain stands still (R408). -/
def Dev.drainCheck (d : Dev) (p : Nat) : Dev :=
  match (d.part p).shift with
  | some sh =>
    if sh.mode = 3 ∧ d.pState p = psQuiescing ∧ d.tearing p = false ∧ d.chainsStill p = true
    then d.startTeardown p (shiftEnd sh.action) sh.confirm sh.tenancy else d
  | none => d

/-- The chain becomes FAULTED: no unit of it reads further; commands issued before run on (R138, R159). -/
def Dev.faultChain (d : Dev) (k : ChainId) : Dev :=
  ((List.range (d.unitsOf k)).foldl (fun d u =>
    let c := d.cursor k u
    if c.state = .idle then d else d.setCursor k u { c with state := .faulted }) d).drainCheck k.p

def Dev.malformed (d : Dev) (c : Cmd) (fieldBit vinstr : Nat) : Dev :=
  (d.record (d.whereCmd c) 0x101 2 [(44, c.addr), (9, fieldBit), (8, vinstr)]).faultChain c.k

def Dev.accessViolation (d : Dev) (c : Cmd) (addr unit space write : Nat) : Dev :=
  (d.record (d.whereCmd c) 0x102 2 [(44, addr), (16, unit), (2, space), (1, write)]).faultChain c.k

/-- R556: the record and the chain; what else ends is the command's own. -/
def Dev.engineBusError (d : Dev) (c : Cmd) (addr unit space write status : Nat) : Dev :=
  (d.record (d.whereCmd c) 0x10B 2 [(44, addr), (16, unit), (2, space), (1, write), (8, status)]).faultChain c.k

/-! Gauges. -/

def Dev.gauge (d : Dev) (k : ChainId) : List Seg := SMap.get [] d.seqs.gauges (chainIx k)

def Dev.setGauge (d : Dev) (k : ChainId) (l : List Seg) : Dev :=
  { d with seqs := { d.seqs with gauges := SMap.set [] d.seqs.gauges (chainIx k) l } }

/-- The deadline a SEGMENT word sets (R144), scaled while a partition runs several tenants on a bench (R406). -/
def Dev.deadlineOf (d : Dev) (p : Nat) (b : SegmentBody) : Nat :=
  if b.dlMode = 1 then b.deadline
  else d.time + (if 1 < d.tenancy p then b.deadline * d.get (kShrinkDlScale p) / 16 else b.deadline)

/-- What tenancy adds to a deadline: an extension of the one that was armed (R406, R425). -/
def Dev.tenancyAdds (d : Dev) (p : Nat) (b : SegmentBody) : Nat :=
  if b.dlMode = 1 then 0 else d.deadlineOf p b - (d.time + b.deadline)

/-- The gauge of a segment is armed at the first read of its SEGMENT word (R144). -/
def Dev.armSeg (d : Dev) (k : ChainId) (seq : Nat) (b : SegmentBody) : Dev :=
  if (d.gauge k).any (fun s => decide (s.seq0 = seq)) then d
  else
    let s : Seg :=
      { seq0 := seq, endSeq := none, deadline := d.deadlineOf k.p b, extended := d.tenancyAdds k.p b, missed := false, hung := false,
        kind := b.segKind, step := b.step, segId := b.segId, rerunAllow := b.rerunAllow, rerunCap := b.rerunCap,
        reruns := 0, selected := [], doneBy := [], heldAt := none, recutExtended := false }
    d.setGauge k (d.gauge k ++ [s])

def mapSeg (l : List Seg) (seq0 : Nat) (f : Seg → Seg) : List Seg := l.map (fun s => if s.seq0 = seq0 then f s else s)

/-- A segment whose commands are complete on every unit is disarmed; one reported missed writes SEGMENT_LATE (R145, R424). -/
def Dev.segDone (d : Dev) (k : ChainId) (u endSeq : Nat) : Dev :=
  match (d.gauge k).find? (fun s => decide (s.endSeq = some endSeq)) with
  | none => d
  | some s =>
    let done := u :: s.doneBy
    if (List.range (d.unitsOf k)).all (fun i => done.contains i) then
      let d := d.setGauge k ((d.gauge k).filter (fun x => decide (x.seq0 ≠ s.seq0)))
      if s.missed then
        d.record (atCmd k s.kind s.step s.segId endSeq) 0x105 0 [(64, s.deadline), (64, d.time)]
      else d
    else d.setGauge k (mapSeg (d.gauge k) s.seq0 (fun x => { x with doneBy := done }))

/-! Completion records of haul channels (R178 to R181). -/

/-- REC_SEQ of the next record is HAUL_CQ_TAIL. -/
def Dev.cqFull (d : Dev) (h ch : Nat) : Bool :=
  decide ((d.get (kHaulCqTail h ch) + 2 ^ 32 - d.get (kHaulCqHead h ch)) % 2 ^ 32 = d.get (kHaulCqEntries h ch))

def Dev.haulRecordBits (d : Dev) (e : HaulEnd) (p seq transpose : Nat) : Nat :=
  let r := d.get (kHaulCqTail e.h e.ch)
  pack [(64, d.time), (44, e.addr), (16, e.unit), (4, 0), (32, seq), (32, r), (40, e.bytes), (8, e.status), (4, e.h),
        (3, e.ch), (2, p), (1, b2n e.guardSent), (1, b2n e.poison), (1, transpose), (2, e.space), (1, 0),
        (1, if (r / d.get (kHaulCqEntries e.h e.ch)) % 2 = 0 then 1 else 0)]

def Dev.chan (d : Dev) (h ch : Nat) : Chan := SMap.get Chan.idle d.haul (8 * h + ch)

def Dev.setChan (d : Dev) (h ch : Nat) (x : Chan) : Dev := { d with haul := SMap.set Chan.idle d.haul (8 * h + ch) x }

/-- The record is written in the ring, or in the spill entry where a teardown finds the queue full, and after it each
later one of the teardown (R191). -/
def Dev.haulRecord (d : Dev) (e : HaulEnd) (p seq transpose : Nat) : Dev :=
  let r := d.get (kHaulCqTail e.h e.ch)
  let bits := d.haulRecordBits e p seq transpose
  let c := d.chan e.h e.ch
  let d :=
    if d.cqFull e.h e.ch ∨ c.spilled then
      (d.put (kHaulCqSpill e.h e.ch)
        (if c.spilled then d.get (kHaulCqSpill e.h e.ch) % 2 ^ 256 + bits * 2 ^ 256 else bits)).setChan e.h e.ch
        { c with spilled := true }
    else d.postMem (d.get (kHaulCqBase e.h e.ch) + 32 * (r % d.get (kHaulCqEntries e.h e.ch))) (toBytes bits 32)
  d.put (kHaulCqTail e.h e.ch) ((r + 1) % 2 ^ 32)

/-! Reports (R141). -/

def setOutst (l : List Outst) (seq : Nat) (f : Outst → Outst) : List Outst := l.map (fun o => if o.seq = seq then f o else o)

/-- The command is reported: its header signal sets out, its record is written, CHAIN_DONE_SEQ advances; a control command that
stood unreported is complete (R128, R140). -/
def Dev.report (d : Dev) (k : ChainId) (u : Nat) (o : Outst) : Dev :=
  let h := headerOf o.word
  let c := d.cursor k u
  let d := match o.haul with
    | some e => d.haulRecord e k.p o.seq (haulOf o.word).transpose
    | none => d
  let d := if h.sigEn = 1 then
      d.fly { localSignal k.p h.sigTally h.sigCount with cmd := some { cmdAt k u c o.word with seq := o.seq, addr := o.addr } }
    else d
  d.setCursor k u { c with
    doneSeq := o.seq, doneCount := c.doneCount + 1, outst := c.outst.drop 1
    held := if c.held = some o.seq then none else c.held }

/-- What the head of a chain's reports can do: a LINK word that has become the oldest ends its segment here; a SIGNAL that
has been executed is sent; a finished command is reported unless its channel's queue is full. -/
def Dev.flushHead (d : Dev) (k : ChainId) (u : Nat) (o : Outst) : Option (Dev × Option Signal) :=
  let op := (headerOf o.word).opcode
  let c := d.cursor k u
  let mark := { c with outst := setOutst c.outst o.seq (fun x => { x with fired := true }) }
  if op = opLink ∧ o.fired = false then some ((d.setCursor k u mark).segDone k u o.seq, none)
  else if op = opSignal ∧ o.fin = false ∧ o.ready = true ∧ o.fired = false then
    let b := signalOf o.word
    some (d.setCursor k u mark,
      some { p := k.p, vt := b.tally, count := b.count, payload := 0, epoch := 0, chip := if b.remote = 1 then some b.chip else none,
             guard := false, cmd := some { cmdAt k u c o.word with seq := o.seq, addr := o.addr }, completes := true })
  else if o.fin = true then
    match o.haul with
    | some e => if d.cqFull e.h e.ch ∧ d.tearing k.p = false then none else some (d.report k u o, none)
    | none => some (d.report k u o, none)
  else none

/-- A record whose turn has come finds its queue full: the channel is held by it, which counts once (R181, R195). -/
def Dev.noteFull (d : Dev) (k : ChainId) (o : Outst) : Dev :=
  match o.haul with
  | none => d
  | some e =>
    let c := d.chan e.h e.ch
    if o.fin = true ∧ c.full = false ∧ d.cqFull e.h e.ch = true ∧ d.tearing k.p = false
    then (d.setChan e.h e.ch { c with full := true }).bump kHaulCqFullEvents 1 else d

/-- Local SIGNALs set out at once, remote ones are handed to the sender; the channel of a record that has been written is let
go. -/
def Dev.flush (send : Dev → Signal → Dev) (free : Dev → Nat → Nat → Dev) : (fuel : Nat) → Dev → ChainId → Nat → Dev
  | 0, d, _, _ => d
  | n + 1, d, k, u =>
    match (d.cursor k u).outst with
    | [] => d
    | o :: _ =>
      let d := d.noteFull k o
      match d.flushHead k u o with
      | none => d
      | some (d, none) =>
        Dev.flush send free n (match o.haul with | some e => free d e.h e.ch | none => d) k u
      | some (d, some s) => Dev.flush send free n (if s.chip.isSome then send d s else d.fly s) k u

/-! Reading the next word. -/

/-- A word is read: it is the row's, or the row has no further effect. -/
inductive Fetched where
  | word (c : Cmd)
  | done (d : Dev)
  deriving DecidableEq, Repr

/-- The cursor may read its next word: RUNNING, no control command or proof block incomplete, not at a LINK word, its tenant
resident and no teardown begun (R140, R409, R427). -/
def Dev.mayRead (d : Dev) (k : ChainId) (u : Nat) : Bool :=
  let c := d.cursor k u
  decide (c.state = .running) && decide (c.ctl = none) && decide (c.held = none) && !c.proof && !c.atLink && d.unitLive k u && !d.tearing k.p

def pushOutst (c : Cursor) (seq word addr : Nat) (fin : Bool) : Cursor :=
  { c with outst := c.outst ++ [{ seq := seq, word := word, addr := addr, ready := false, fin := fin, fired := false,
                                  haul := none }] }

/-- Past the word: the next address and the next CMD_SEQ (R130). -/
def Cursor.advance (c : Cursor) : Cursor := { c with pos := c.pos + 64, expSeq := (c.expSeq + 1) % 2 ^ 32 }

/-- A word that is skipped or passed over counts in the sequence and is reported in its turn, without a signal. -/
def Cursor.pass (c : Cursor) : Cursor :=
  { (pushOutst c c.expSeq 0 c.pos true).advance with skip := c.skip - 1 }

/-- The guarded words of a SELECT reach the LINK (R149). -/
def Dev.reachesLink (d : Dev) (pos count : Nat) : Bool :=
  (List.range count).any (fun i => decide ((headerOf (d.readNum (pos + 64 * (i + 1)) 64)).opcode = opLink))

/-- R129: an ORDERED command waits until every earlier command of its chain on this unit has completed. -/
def Dev.orderOk (d : Dev) (c : Cmd) : Bool :=
  decide ((headerOf c.word).ordered = 0) || decide ((d.cursor c.k c.u).outst = [])

/-- Commands a matrix or vector queue holds (R140). -/
def unitQueue : Nat := 4

/-- The unit queue that a command goes to has room (R140). A channel holds one command in progress and one queued (R177). -/
def Dev.hasRoom (d : Dev) (c : Cmd) : Bool :=
  let h := headerOf c.word
  let b := d.bench (d.unitPlace c.k c.u)
  if h.opcode = opMatmul then decide (b.matQ.length < unitQueue)
  else if h.opcode = opVector then decide (b.vecQ.length < unitQueue)
  else if h.opcode = opHaul then decide ((d.chan (c.k.e.val - 0x10) h.channel).queued = none)
  else true

/-- The decision word of a SELECT lies where accesses are held: the command waits for it (R262). -/
def Dev.ctlHeld (d : Dev) (c : Cmd) : Bool :=
  let b := selectOf c.word
  decide ((headerOf c.word).opcode = opSelect) && decide (b.dev = 1) && d.heldIn b.decisionAddr 4

/-- Step and serving work wait for admission (R38): the segment kinds STEP_PHASE and SERVING_BATCH are not read before the
partition is ADMITTED (DESIGN CHOICE, log 133). -/
def Dev.kindHeld (d : Dev) (p word : Nat) : Bool :=
  let kind := (segmentOf word).segKind
  decide ((headerOf word).opcode = opSegment) && (decide (kind = 1) || decide (kind = 3)) && !d.mayStep p

/-- The chain has an issuable command on the unit (R140). -/
def Dev.issuable (d : Dev) (k : ChainId) (u : Nat) : Bool :=
  let c := d.cursor k u
  let word := d.readNum c.pos 64
  let cmd := cmdAt k u c word
  d.mayRead k u && !d.heldIn c.pos 64 &&
    (decide (0 < c.skip) || (d.hasRoom cmd && d.orderOk cmd && !d.ctlHeld cmd && !d.kindHeld k.p word))

/-- No chain of a lower number has an issuable command on the unit (R121, R140). The bed engine serves the chains of all partitions
(R143); at a haul engine the order is that of one partition's chains (DEDUCED, log 134). -/
def Dev.turn (d : Dev) (k : ChainId) (u : Nat) : Bool :=
  (List.range k.c).all (fun c =>
    (if k.e = 0x21 then List.range 4 else [(k.p : Nat)]).all (fun p => !d.issuable (chainOf p k.e c) u))

/-- The next word of a cursor, checked for the row of opcode `op` (R125, R130, R159, R160, R556). -/
def Dev.fetch (d : Dev) (k : ChainId) (u op : Nat) : Fetched :=
  let c := d.cursor k u
  let p : Nat := k.p
  if d.mayRead k u = false ∨ d.turn k u = false then .done d
  else
    let word := d.readNum c.pos 64
    let cmd := cmdAt k u c word
    let h := headerOf word
    let order := h.opcode = opSegment ∨ h.opcode = opLink
    if d.inAlloc p c.pos 64 = false then .done (d.accessViolation cmd c.pos 0 0 0)
    else if d.heldIn c.pos 64 then .done d
    else if (d.lostIn c.pos 64).isSome then .done (d.engineBusError cmd c.pos 0 0 0 0x80)
    else if d.linePoisoned c.pos then .done ((d.faultChain k).consumePoison (d.whereCmd cmd) c.pos 0 0 7)
    else if h.cmdSeq ≠ c.expSeq then
      .done ((d.record (d.whereCmd cmd) 0x103 2 [(44, c.pos), (32, c.expSeq), (32, h.cmdSeq)]).faultChain k)
    else if d.kindHeld p word then .done d
    else if 0 < c.skip ∧ h.opcode ≠ opSegment then .done (d.setCursor k u c.pass)
    else if isLift k = true ∧ ¬ order ∧ c.atStart = false ∧ h.benchSel ≠ 0x7F ∧ h.benchSel ≠ u ∧
        h.benchSel < d.unitsOf k then .done (d.setCursor k u c.pass)
    else
      let bad := offences d k (d.logicalOf k u) word ++
        offend (c.atStart ≠ decide (h.opcode = opSegment)) 56 ++
        offend (h.opcode = opSelect ∧ d.reachesLink c.pos (selectOf word).count = true) 174
      match lowestOf bad with
      | some b => .done (d.malformed cmd b 0xFF)
      | none => if h.opcode = op then .word cmd else .done d

end Sys2Proof.Machine
end

