-- ==== Sys2Proof/Machine/ChanOps.lean ====
section
/-! DEFINITION. The ends of haul transfers: where a channel rests (R182), the records it owes (R177 to R181, R191), aborts
(R190, R439) and engine stops (R187). -/

namespace Sys2Proof.Machine

/-! Requests of a channel. -/

def isHaulReq (h ch : Nat) : ReqFor → Bool
  | .haulWrite h' c _ _ => h' = h && c = ch
  | .haulRead h' c _ => h' = h && c = ch
  | _ => false

def isHaulRead (h ch n : Nat) : ReqFor → Bool
  | .haulRead h' c i => h' = h && c = ch && decide (i < n)
  | _ => false

def isReadback (h ch : Nat) : ReqFor → Bool
  | .haulReadback h' c => h' = h && c = ch
  | _ => false

def Dev.haulFlight (d : Dev) (h ch : Nat) : Nat :=
  (d.fabric.reqs.filter (fun x => match x.2 with | some r => isHaulReq h ch r.what | none => false)).length

def Dev.paused (d : Dev) (h ch : Nat) : Bool := bit (d.get (kHaulPause h)) ch

def Dev.haulStops (d : Dev) (h : Nat) : List HaulStop := SMap.get [] d.haulStop h

def Dev.setHaulStops (d : Dev) (h : Nat) (l : List HaulStop) : Dev := { d with haulStop := SMap.set [] d.haulStop h l }

/-- Where a channel without a transfer rests (R182, R183, R187). -/
def Dev.restState (d : Dev) (h ch : Nat) : ChanState :=
  if (d.chan h ch).owed ≠ [] then .closing
  else if d.paused h ch then .paused else if d.haulStops h ≠ [] then .stopped else .idle

/-- What a channel keeps after a transfer; while a record is owed it stays CLOSING with what it had written. -/
def Dev.chanRest (d : Dev) (h ch : Nat) : Dev :=
  let c := d.chan h ch
  let owes := decide (c.owed ≠ [])
  d.setChan h ch { Chan.idle with
    state := d.restState h ch, queued := c.queued, owed := c.owed, spilled := c.spilled, full := owes
    bytesDone := if owes then c.bytesDone else 0 }

/-- The record a transfer owes. -/
def Chan.ending (c : Chan) (h ch status addr unit space : Nat) (guard : Bool) : HaulEnd :=
  { h := h, ch := ch, status := status, poison := c.poison, bytes := c.bytesDone, addr := addr, unit := unit, space := space,
    guardSent := guard }

/-- The record of a command that never started (R177, R187, R190). -/
def abortedEnd (h ch : Nat) : HaulEnd :=
  { h := h, ch := ch, status := 0x10, poison := false, bytes := 0, addr := 0, unit := 0, space := 0, guardSent := false }

/-- A record is written outside the order of reports, for its command is never reported (R450); a full queue holds it and its
channel, outside a teardown (R181, R191, R195). -/
def Dev.oweRecord (d : Dev) (cmd : Cmd) (e : HaulEnd) : Dev :=
  let c := d.chan e.h e.ch
  if (d.cqFull e.h e.ch ∨ c.owed ≠ []) ∧ d.tearing cmd.k.p = false then
    (d.setChan e.h e.ch { c with
      owed := c.owed ++ [(cmd, e)], full := true
      bytesDone := if c.cur = none ∧ c.owed = [] then e.bytes else c.bytesDone
      state := if c.cur = none then .closing else c.state }).bump kHaulCqFullEvents 1
  else d.haulRecord e cmd.k.p cmd.seq (haulOf cmd.word).transpose

/-- The record of a command that ended in error, with its counts. -/
def Dev.owe (d : Dev) (cmd : Cmd) (e : HaulEnd) : Dev :=
  let d := if e.status = 0x10 then d.bump kHaulAbortedTransfers 1 else d
  (if e.poison then d.bump kHaulPoisonedTransfers 1 else d).oweRecord cmd e

/-- A transfer ends in error. -/
def Dev.endBad (d : Dev) (h ch status addr unit space : Nat) (guard : Bool) : Dev :=
  let c := d.chan h ch
  match c.cur with
  | none => d
  | some cmd => (d.chanRest h ch).owe cmd (c.ending h ch status addr unit space guard)

/-- The command queued behind ends ABORTED, its wait withdrawn (R177, R187, R190). -/
def Dev.dropQueued (d : Dev) (h ch : Nat) : Dev :=
  let c := d.chan h ch
  match c.queued with
  | none => d
  | some cmd =>
    let d := d.setWait (waiterId 4 h ch cmd.k.p) Wait.none
    (d.setChan h ch { c with queued := none }).owe cmd (abortedEnd h ch)

/-- Records that waited for a slot alone are written as slots are free; the channel is let go with the last of them. -/
def Dev.payOwed : (fuel : Nat) → Dev → Nat → Nat → Dev
  | 0, d, _, _ => d
  | n + 1, d, h, ch =>
    let c := d.chan h ch
    match c.owed with
    | [] => d
    | (cmd, e) :: rest =>
      if d.cqFull h ch ∧ d.tearing cmd.k.p = false then d
      else
        let d := (d.setChan h ch { c with owed := rest }).haulRecord e cmd.k.p cmd.seq (haulOf cmd.word).transpose
        Dev.payOwed n (if rest = [] ∧ (d.chan h ch).cur = none then d.chanRest h ch else d) h ch

/-! Aborts (R190, R191, R439). -/

/-- An ABORTING transfer ends once nothing of it is in flight; the command queued behind it ends after it. -/
def Dev.abortEnd (d : Dev) (h ch : Nat) : Dev :=
  if (d.chan h ch).state = .aborting ∧ d.haulFlight h ch = 0 ∧ d.anyReq (fun r => isReadback h ch r.what) = false
  then (d.endBad h ch 0x10 0 0 0 false).dropQueued h ch else d

/-- A channel's transfer goes into ABORTING, its queue is emptied; one whose transfer has ended has its record still to write. -/
def Dev.abortChan (d : Dev) (h ch : Nat) : Dev :=
  let c := d.chan h ch
  if c.ended then d
  else if c.cur = none then d.dropQueued h ch
  else (d.setChan h ch { c with state := .aborting, data := [], bad := [] }).abortEnd h ch

/-- Channels of a partition on one engine, or on all (0xFF). -/
def Dev.channelsOf (d : Dev) (p engine : Nat) : List (Nat × Nat) :=
  ((List.range 128).map (fun i => (i / 8, i % 8))).filter (fun x =>
    decide (d.haulOwner x.1 x.2 = p) && (decide (engine = 0xFF) || decide (engine = 0x10 + x.1)))

def Dev.abortHauls (d : Dev) (p engine : Nat) : Dev :=
  (d.channelsOf p engine).foldl (fun d x => (Dev.payOwed 2 d x.1 x.2).abortChan x.1 x.2) d

/-- No channel of the partition still executes; what is left of an ended transfer is its record. -/
def Dev.haulsStill (d : Dev) (p engine : Nat) : Bool :=
  (d.channelsOf p engine).all (fun x =>
    let c := d.chan x.1 x.2
    c.ended || (decide (c.cur = none) && decide (c.queued = none) && (decide (c.owed = []) || !d.tearing p)))

/-- Records of finished transfers whose report never comes, with the chain that ends (R177, R191, R450). -/
def Dev.payChain (d : Dev) (k : ChainId) (u : Nat) : Dev :=
  ((d.cursor k u).outst.filterMap (fun (o : Outst) => o.haul.map (fun e => (e, o)))).foldl
    (fun d x =>
      let cmd := { cmdAt k u (d.cursor k u) x.2.word with seq := x.2.seq, addr := x.2.addr }
      let c := d.chan x.1.h x.1.ch
      (d.setChan x.1.h x.1.ch { c with cur := none, ended := false, full := false }).chanRest x.1.h x.1.ch |>.oweRecord cmd x.1) d

/-! Engine stops (R187). -/

/-- Steps 3 to 5, once the drain has ended: each partition charged pays once. -/
def Dev.endStop (d : Dev) (h : Nat) : Dev :=
  let stops := d.haulStops h
  let charged := (List.range 4).filterMap (fun p => stops.find? (fun s => decide (s.p = p)))
  let d := charged.foldl (fun d s => d.record (atEngine s.p (0x10 + h)) 0x109 2
    [(44, s.addr), (16, s.unit), (2, s.space), (1, b2n s.write), (8, s.status)]) d
  let d := d.setHaulStops h []
  (List.range 8).foldl (fun d ch =>
    let c := d.chan h ch
    let pay := fun (cmd : Cmd) (go : Dev) =>
      match charged.find? (fun s => decide (s.p = (cmd.k.p : Nat))) with
      | some s => ((d.endBad h ch 0x20 s.addr s.unit s.space false).dropQueued h ch).faultChain cmd.k
      | none => go
    match c.state, c.cur with
    | .stopped, none => d.setChan h ch { c with state := d.restState h ch }
    | .stopped, some cmd => pay cmd (d.setChan h ch { c with state := if d.paused h ch then .paused else .active })
    | .paused, some cmd => pay cmd d
    | _, _ => d) d

/-- An error response stops the engine (step 1); a last write refused ends its transfer with it. -/
def Dev.stopEngine (d : Dev) (h ch : Nat) (s : HaulStop) : Dev :=
  let d := if d.haulStops h = [] then d.bump kHaulEngineStops 1 else d
  let d := d.setHaulStops h (d.haulStops h ++ [s])
  let d := (List.range 8).foldl (fun d i =>
    let c := d.chan h i
    if c.state = .idle ∨ c.state = .active ∨ c.state = .pausing then d.setChan h i { c with state := .stopped } else d) d
  match (d.chan h ch).state, (d.chan h ch).cur with
  | .closing, some cmd => ((d.endBad h ch 0x20 s.addr s.unit s.space false).dropQueued h ch).faultChain cmd.k
  | _, _ => d

end Sys2Proof.Machine
end

