-- ==== Sys2Proof/Machine/Matrix.lean ====
section
/-! DEFINITION. Bench store (R108, R111) and the arithmetic of a matrix tile: passes (R49 to R53), promotion (R54, R55),
preload (R56), pair mode (R60, R61), non-finite values (R63 to R65), the epilogue (R59, R98), output conversion (R66 to R68)
and the tile status word (R69). -/

namespace Sys2Proof.Machine

/-! Bench store of a place. -/

def storeKey (pl a : Nat) : Nat := pl * storeBytes + a % storeBytes

/-- Where device memory keeps the image of a tenant that is not resident (R403), by its place; bench store comes first in it
(DESIGN CHOICE, log 108). -/
def Dev.imageAt (d : Dev) (pl : Nat) : Nat := d.get (kTenantSaveBase ((pl - 96) / 96)) + 9 * 2 ^ 20 * ((pl - 96) % 96)

/-- A byte of the store of a physical bench, or of the image in device memory (R405). -/
def Dev.storeByte (d : Dev) (pl a : Nat) : Byte :=
  if pl < 96 then d.benches.store.byte (storeKey pl a) else d.memByte (d.imageAt pl + a % storeBytes)

def Dev.readStore (d : Dev) (pl a n : Nat) : List Byte := (List.range n).map (fun i => d.storeByte pl (a + i))

def Dev.storeNum (d : Dev) (pl a n : Nat) : Nat := ofBytes (d.readStore pl a n)

def Dev.storePoisoned (d : Dev) (pl a : Nat) : Bool :=
  if pl < 96 then NSet.mem d.benches.storePoison (storeKey pl a / 64) else d.linePoisoned (d.imageAt pl + a % storeBytes)

/-- The first poisoned line of a range of bench store. -/
def Dev.storePoisonIn (d : Dev) (pl a n : Nat) : Option Nat := (linesOf a n).find? (fun l => d.storePoisoned pl l)

def Dev.setStoreByte (d : Dev) (pl a : Nat) (v : Byte) : Dev :=
  if pl < 96 then { d with benches := { d.benches with store := d.benches.store.setByte (storeKey pl a) v } }
  else d.setMemByte (d.imageAt pl + a % storeBytes) v

def Dev.setStore (d : Dev) (pl a : Nat) : List Byte → Dev
  | [] => d
  | b :: bs => (d.setStoreByte pl a b).setStore pl (a + 1) bs

def Dev.markStore (d : Dev) (pl a : Nat) (p : Bool) : Dev :=
  if pl < 96 then { d with benches := { d.benches with storePoison := NSet.put d.benches.storePoison (storeKey pl a / 64) p } }
  else d.markLine (d.imageAt pl + a % storeBytes) p

/-- R111: a read finds `n` bits of a 64-bit word in error. One is corrected, in the array too, and counted; more poison the line,
which is then treated by R100. No command of the table brings such an error to bench store (log 150). -/
def Dev.storeWordError (d : Dev) (pl a n : Nat) : Dev :=
  if n = 0 then d else if n = 1 then d.bump kBenchStoreCorrected 1 else d.markStore pl a true

/-- R111: poisoned data marks each line it touches; clean data clears a line only when it writes all 64 bytes. -/
def Dev.writeStore (d : Dev) (pl a : Nat) (bs : List Byte) (p : Bool) : Dev :=
  (linesOf a bs.length).foldl (fun d l =>
    if p then d.markStore pl l true
    else if a ≤ l ∧ l + 64 ≤ a + bs.length then d.markStore pl l false
    else d) (d.setStore pl a bs)

/-! One lane of a face. -/

/-- R63, one product. -/
def Special.meet (s : Special) : Val → Special
  | .nan => .nan
  | .inf neg =>
    match s, neg with
    | .none, false => .pinf
    | .none, true => .ninf
    | .pinf, false => .pinf
    | .ninf, true => .ninf
    | _, _ => .nan
  | .fin _ _ _ => s

/-- EMAX: the largest exponent among the nonzero finite products (R50). -/
def emaxOf : List Val → Option Int
  | [] => none
  | v :: vs =>
    let r := emaxOf vs
    if v.isFinite ∧ ¬ v.isZero then
      match r with
      | none => some v.exponent
      | some e => some (if e < v.exponent then v.exponent else e)
    else r

/-- A term of the sum at scale 2^enew, in units of 2^-14. -/
def laneTerm (enew : Int) : Val → Int
  | .fin neg m e =>
    let t : Int := (rneScale m (e + 14 - enew) false : Nat)
    if neg then -t else t
  | _ => 0

/-- The lane's range, in units of 2^-14. -/
def laneMax : Int := 128 * 16384 - 1
def laneMin : Int := -(128 * 16384)

/-- One pass of one lane (R51): the lane after it and whether it saturated. -/
def lanePass (l : Lane) (ps : List Val) : Lane × Bool :=
  let sp := ps.foldl Special.meet l.special
  if sp ≠ .none then ({ l with special := sp }, false)
  else
    match emaxOf ps with
    | none => (l, false)
    | some emax =>
      let enew : Int := if l.empty then emax else if l.eref < emax then emax else l.eref
      let a : Int :=
        if l.empty then 0
        else
          let r : Int := (rneScale l.acc.natAbs (l.eref - enew) false : Nat)
          if l.acc < 0 then -r else r
      let s := a + (ps.map (laneTerm enew)).sum
      let s' := if laneMax < s then laneMax else if s < laneMin then laneMin else s
      ({ acc := s', eref := enew, empty := false, special := .none }, decide (s' ≠ s))

/-- The value a lane promotes. -/
def Lane.value (l : Lane) : Val :=
  match l.special with
  | .none => .fin (decide (l.acc < 0)) l.acc.natAbs (l.eref - 14)
  | .pinf => .inf false
  | .ninf => .inf true
  | .nan => .nan

/-- A buffer value with the flags its tile has raised. -/
structure Buf where
  bits : Nat
  sat : Bool
  ovf : Bool
  deriving DecidableEq, Repr

/-- RNE to FP32 of an exact sum of two FP32 values; PROMO_OVF when a finite sum leaves the range. -/
def sumFp32 (a b : Val) : Nat × Bool :=
  let v := Val.add a b
  (toFp32 v, overflowsFp32 v)

/-- R55, R64: the lane after promotion, whose EREF stays, and the buffer. -/
def promote (l : Lane) (b : Buf) : Lane × Buf :=
  if l.empty ∧ l.special = .none then (l, b)
  else
    let r := sumFp32 (ofFp32 b.bits) l.value
    ({ l with acc := 0, empty := true }, { b with bits := r.1, ovf := b.ovf || r.2 })

/-- All passes of one output element: groups of products in order, promoted after every `n` and after the last (R54). The
lane as they leave it, and the buffer. -/
def laneRun (n : Nat) : Lane → Buf → Nat → List (List Val) → Lane × Buf
  | l, b, _, [] => (l, b)
  | l, b, i, g :: gs =>
    let r := lanePass l g
    let b := { b with sat := b.sat || r.2 }
    if (i + 1) % n = 0 ∨ gs = [] then
      let q := promote r.1 b
      laneRun n q.1 q.2 (i + 1) gs
    else laneRun n r.1 b (i + 1) gs

/-- Promotion interval (R54). -/
def promoteN (v : Nat) : Nat := if v = 0 then 2 else v

/-- The value of an operand element: head or tail half in pair mode (R45, R60), the element itself otherwise. -/
def operandVal (fmt bits : Nat) (tail : Bool) : Val :=
  if wideFmt fmt then
    let pr := if fmt = 5 then bits else toPair bits
    decodeScalar .bf16 (if tail then pr % 2 ^ 16 else pr / 2 ^ 16)
  else
    match Fmt.ofCode fmt with
    | some f => decodeScalar f bits
    | none => .zero

/-- An operand as stored, for NONFINITE_IN (R65). -/
def elemFinite (fmt bits : Nat) : Bool :=
  match Fmt.ofCode fmt with
  | some f => (elemVal f bits).isFinite
  | none => true

def elemBits (fmt bits : Nat) : Nat :=
  match Fmt.ofCode fmt with
  | some f => elemToFp32 f bits
  | none => 0

/-- Element (k, i) of a K-outer panel (R84). -/
def Dev.panelElem (d : Dev) (pl base fmt k i : Nat) : Nat := d.storeNum pl (base + (64 * k + i) * fmtSize fmt) (fmtSize fmt)

def MatmulBody.panelA (m : MatmulBody) (f : Nat) : Nat := m.aAddr + 64 * f * m.aFstride

/-- The groups of 64 products of element (m, n) of face f. -/
def Dev.productGroups (d : Dev) (pl : Nat) (b : MatmulBody) (f m n : Nat) (tail : Bool) : List (List Val) :=
  let k := b.kM1 + 1
  (List.range (roundUp k 64)).map (fun g =>
    (List.range (if k - 64 * g < 64 then k - 64 * g else 64)).map (fun j =>
      Val.mul (operandVal b.afmt (d.panelElem pl (b.panelA f) b.afmt (64 * g + j) m) tail)
              (operandVal b.wfmt (d.panelElem pl b.wAddr b.wfmt (64 * g + j) n) tail)))

/-- Address of element (r, n) of a block (R151). -/
def blockAddr (base stride order size r n : Nat) : Nat :=
  if order = 0 then base + r * 64 * stride + n * size else base + n * 64 * stride + r * size

/-- The FP32 buffer before the first pass (R56). -/
def Dev.preload (d : Dev) (pl : Nat) (b : MatmulBody) (r n : Nat) : Nat :=
  if b.preEn = 1 then
    elemBits b.preFmt (d.storeNum pl (blockAddr b.preAddr b.preStride b.outOrder (fmtSize b.preFmt) r n) (fmtSize b.preFmt))
  else 0

/-- One element of a tile after its final promotion and, in pair mode, H + T (R61): its value and flags, and the lanes of the
head and of the tail passes. -/
structure TileElem where
  buf : Buf
  head : Lane
  tail : Lane
  deriving DecidableEq, Repr

/-- The value of an element whose buffers hold `h` and `t` after the final promotion (R61). -/
def pairSum (h t : Buf) : Buf :=
  let r := sumFp32 (ofFp32 h.bits) (ofFp32 t.bits)
  { bits := r.1, sat := h.sat || t.sat, ovf := h.ovf || t.ovf || r.2 }

def Buf.zero : Buf := { bits := 0, sat := false, ovf := false }

/-- Level 1's arithmetic, whatever NUMERICS_LEVEL holds: the spec gives no other level's (DESIGN CHOICE, log 128). -/
def Dev.tileElem (d : Dev) (pl : Nat) (b : MatmulBody) (f m n : Nat) : TileElem :=
  let start : Buf := { bits := d.preload pl b (64 * f + m) n, sat := false, ovf := false }
  let h := laneRun (promoteN b.promoteN) Lane.start start 0 (d.productGroups pl b f m n false)
  if b.pairMode then
    let t := laneRun (promoteN b.promoteN) Lane.start Buf.zero 0 (d.productGroups pl b f m n true)
    { buf := pairSum h.2 t.2, head := h.1, tail := t.1 }
  else { buf := h.2, head := h.1, tail := Lane.start }

/-- Faces taking part, ascending. -/
def MatmulBody.faces (b : MatmulBody) : List Nat := (List.range 4).filter (fun f => bit b.faceMask f)

/-- Face, row and column of every element of the block. -/
def MatmulBody.cells (b : MatmulBody) : List (Nat × Nat × Nat) :=
  b.faces.flatMap (fun f => (List.range (b.rowsM1 + 1)).flatMap (fun m =>
    (List.range (b.colsM1 + 1)).map (fun n => (f, m, n))))

/-- Every cell of the faces taking part. -/
def MatmulBody.allCells (b : MatmulBody) : List (Nat × Nat × Nat) :=
  b.faces.flatMap (fun f => (List.range 64).flatMap (fun m => (List.range 64).map (fun n => (f, m, n))))

def cellKey (f m n : Nat) : Nat := 4096 * f + 64 * m + n

/-- The slot's values before the block's own: all 4,096 preload values per face (R88), which the zero products outside ROWS and
COLS leave as they are (R85), but for the H + T of pair mode. -/
def Dev.preloaded (d : Dev) (pl : Nat) (b : MatmulBody) : SMap Nat :=
  if b.preEn = 1 then
    b.allCells.foldl (fun m c =>
      let v : Buf := { bits := d.preload pl b (64 * c.1 + c.2.1) c.2.2, sat := false, ovf := false }
      SMap.set 0 m (cellKey c.1 c.2.1 c.2.2) (if b.pairMode then (pairSum v Buf.zero).bits else v.bits)) []
  else []

/-- Some operand or preload element the tile consumes is a NaN or an infinity (R65). -/
def Dev.nonfiniteIn (d : Dev) (pl : Nat) (b : MatmulBody) : Bool :=
  (List.range (b.kM1 + 1)).any (fun k =>
    (List.range (b.colsM1 + 1)).any (fun n => !elemFinite b.wfmt (d.panelElem pl b.wAddr b.wfmt k n)) ||
    b.faces.any (fun f => (List.range (b.rowsM1 + 1)).any (fun m =>
      !elemFinite b.afmt (d.panelElem pl (b.panelA f) b.afmt k m)))) ||
  (decide (b.preEn = 1) && b.cells.any (fun c =>
    !elemFinite b.preFmt (d.storeNum pl (blockAddr b.preAddr b.preStride b.outOrder (fmtSize b.preFmt) (64 * c.1 + c.2.1) c.2.2)
      (fmtSize b.preFmt))))

/-- The first poisoned line among the panels the feeders read and the preload elements (R100). -/
def Dev.operandPoison (d : Dev) (pl : Nat) (b : MatmulBody) : Option Nat :=
  let k := b.kM1 + 1
  let reads :=
    [(b.wAddr, k * 64 * fmtSize b.wfmt)] ++ b.faces.map (fun f => (b.panelA f, k * 64 * fmtSize b.afmt)) ++
    (if b.preEn = 1 then b.allCells.map (fun c =>
      (blockAddr b.preAddr b.preStride b.outOrder (fmtSize b.preFmt) (64 * c.1 + c.2.1) c.2.2, fmtSize b.preFmt)) else [])
  reads.findSome? (fun r => d.storePoisonIn pl r.1 r.2)

/-- The slot of a bench. -/
def Dev.slot (d : Dev) (pl i : Nat) : Slot := SMap.get Slot.empty d.benches.slots (8 * pl + i)

def Dev.setSlot (d : Dev) (pl i : Nat) (x : Slot) : Dev :=
  { d with benches := { d.benches with slots := SMap.set Slot.empty d.benches.slots (8 * pl + i) x } }

/-- The place in start order of a tile that starts now. -/
def Dev.nextOrd (d : Dev) (pl : Nat) : Nat :=
  1 + (List.range 8).foldl (fun m i => if m < (d.slot pl i).ord then (d.slot pl i).ord else m) 0

/-- The elements of a tile that a command computes, by cell. -/
def Dev.tileElems (d : Dev) (pl : Nat) (c : Cmd) : List (Nat × TileElem) :=
  let b := matmulOf c.word
  b.cells.map (fun x => (cellKey x.1 x.2.1 x.2.2, d.tileElem pl b x.1 x.2.1 x.2.2))

/-- The slot after every pass of a command: its values and flags; HELD where a running sum is to come, else DRAIN (R88). -/
def Dev.tileOf (d : Dev) (pl : Nat) (c : Cmd) : Slot :=
  let b := matmulOf c.word
  let es := d.tileElems pl c
  { state := if b.convPos = 2 ∨ b.convPos = 3 then .held else .drain
    cmd := some c
    vals := es.foldl (fun m e => SMap.set 0 m e.1 e.2.buf.bits) (d.preloaded pl b)
    sat := es.any (fun e => e.2.buf.sat)
    promoOvf := es.any (fun e => e.2.buf.ovf)
    nonfiniteIn := d.nonfiniteIn pl b
    poison := (d.operandPoison pl b).isSome
    srcAddr := (d.operandPoison pl b).getD 0
    ord := d.nextOrd pl }

/-- The lanes as a tile's passes leave them (R51, R52): those of the faces taking part start EMPTY with SPECIAL NONE, head and
tail alike (R56, R61, R63). -/
def Dev.setLanes (d : Dev) (pl : Nat) (b : MatmulBody) (es : List (Nat × TileElem)) : Dev :=
  let mine := fun (i : Nat) => decide (i / 32768 = pl) && bit b.faceMask (i % 16384 / 4096)
  let kept := SMap.keep (fun i => !mine i) d.benches.lanes
  { d with benches := { d.benches with
      lanes := es.foldl (fun m e =>
        SMap.set Lane.start (SMap.set Lane.start m (32768 * pl + e.1) e.2.head) (32768 * pl + 16384 + e.1) e.2.tail) kept } }

/-- The weights of the last group of 64, row by row, then the activations of each face, column by column: what FILL replays
(R92). -/
def Dev.passOperands (d : Dev) (pl : Nat) (b : MatmulBody) : List Nat :=
  let first := b.kM1 / 64 * 64
  let ks := (List.range (b.kM1 + 1 - first)).map (fun j => first + j)
  let panel := fun (base fmt n : Nat) => ks.flatMap (fun k => (List.range n).map (fun i => d.panelElem pl base fmt k i))
  panel b.wAddr b.wfmt (b.colsM1 + 1) ++ b.faces.flatMap (fun f => panel (b.panelA f) b.afmt (b.rowsM1 + 1))

/-- The dummy operand that FILL gives at place `i` of its replay (R92). -/
def Bench.dummy (b : Bench) (i : Nat) : Nat := if b.ranPass then b.replay.getD i 0 else 0x5A5A

/-! Drain. -/

/-- The epilogue operand of element (r, n) (R98): its address and size, where there is an epilogue. -/
def MatmulBody.epiAt (b : MatmulBody) (r n : Nat) : Option (Nat × Nat) :=
  let z := fmtSize b.epiFmt
  if b.epiOp = 0 then none
  else if b.epiShape = 0 then some (blockAddr b.epiAddr b.epiStride b.outOrder z r n, z)
  else if b.epiShape = 1 then some (b.epiAddr + r * z, z)
  else if b.epiShape = 2 then some (b.epiAddr + n * z, z)
  else some (b.epiAddr, z)

/-- The epilogue of one element (R59): the FP32 result and whether it overflowed. -/
def Dev.epilogue (d : Dev) (pl : Nat) (b : MatmulBody) (r n x : Nat) : Nat × Bool :=
  match b.epiAt r n with
  | none => (x, false)
  | some (a, z) =>
    let y := ofFp32 (elemBits b.epiFmt (d.storeNum pl a z))
    let v := if b.epiOp = 1 then Val.add (ofFp32 x) y else Val.mul (ofFp32 x) y
    (toFp32 v, overflowsFp32 v)

def Dev.epiNonfinite (d : Dev) (pl : Nat) (b : MatmulBody) : Bool :=
  b.cells.any (fun c =>
    match b.epiAt (64 * c.1 + c.2.1) c.2.2 with
    | none => false
    | some (a, z) => !elemFinite b.epiFmt (d.storeNum pl a z))

def Dev.epiPoison (d : Dev) (pl : Nat) (b : MatmulBody) : Option Nat :=
  b.cells.findSome? (fun c =>
    match b.epiAt (64 * c.1 + c.2.1) c.2.2 with
    | none => none
    | some (a, z) => d.storePoisonIn pl a z)

/-- One drained element: its address, its bits, and what the status word counts of it. -/
structure Drained where
  addr : Nat
  bits : Nat
  mag : Nat
  clip : Bool
  uflow : Bool
  window : Bool
  inf : Bool
  nan : Bool
  ovf : Bool
  deriving DecidableEq, Repr

/-- Output conversion of an epilogue result (R66 to R69). -/
def drainElem (b : MatmulBody) (r n x : Nat) (ovf : Bool) : Drained :=
  let f := (Fmt.ofCode b.ofmt).getD .fp32
  let v := ofFp32 x
  let scaled := Val.scale (signed 8 b.scaleExp) v
  let bits := convert f scaled
  let out := if f = .pair then decodeScalar .bf16 (bits / 2 ^ 16) else decodeScalar f bits
  { addr := blockAddr b.outAddr b.outStride b.outOrder f.bytes r n
    bits := bits
    mag := if v.isFinite then x % 2 ^ 31 else 0
    clip := clipped f v scaled
    uflow := underflowed f v bits
    window := v.isFinite && !v.isZero && (decide (v.exponent < signed 9 b.expLo) || decide (signed 9 b.expHi < v.exponent))
    inf := !out.isNan && !out.isFinite
    nan := out.isNan
    ovf := ovf }

/-- Every element of a block, drained from the values of its slot. -/
def Dev.drainAll (d : Dev) (pl : Nat) (b : MatmulBody) (vals : SMap Nat) : List Drained :=
  b.cells.map (fun c =>
    let r := 64 * c.1 + c.2.1
    let e := d.epilogue pl b r c.2.2 (SMap.get 0 vals (cellKey c.1 c.2.1 c.2.2))
    drainElem b r c.2.2 e.1 e.2)

def maxOf : List Nat → Nat
  | [] => 0
  | x :: xs => if x < maxOf xs then maxOf xs else x

/-- *Tile status word* (R69). -/
def tswOf (es : List Drained) (sat ovf nonfin : Bool) : Nat :=
  pack [(32, maxOf (es.map Drained.mag)), (16, (es.filter Drained.clip).length), (16, (es.filter Drained.uflow).length),
        (58, 0), (1, b2n (es.any Drained.window)), (1, b2n sat), (1, b2n (ovf || es.any Drained.ovf)), (1, b2n nonfin),
        (1, b2n (es.any Drained.inf)), (1, b2n (es.any Drained.nan))]

/-- Clean pieces that write every byte of a line between them clear its mark (R111; DEDUCED, log 127: the pieces of one tile, or
of one vector store, are one write). -/
def Dev.cleanLines (d : Dev) (pl : Nat) (pieces : List (Nat × Nat)) : Dev :=
  let whole := fun (l : Nat) => (List.range 64).all (fun i =>
    pieces.any (fun x => decide ((l + i + storeBytes - x.1 % storeBytes) % storeBytes < x.2)))
  (pieces.flatMap (fun x => linesOf x.1 x.2)).foldl (fun d l =>
    if d.storePoisoned pl l ∧ whole l = true then d.markStore pl l false else d) d

/-- The elements and the status word are written; poison marks every line written (R97, R99, R100), clean elements clear each
line they fill (R111). -/
def Dev.writeTile (d : Dev) (pl : Nat) (b : MatmulBody) (es : List Drained) (tsw : Nat) (poison : Bool) : Dev :=
  let z := fmtSize b.ofmt
  let d := es.foldl (fun d e => d.writeStore pl e.addr (toBytes e.bits z) poison) d
  let d := if poison then d else d.cleanLines pl (es.map (fun e => (e.addr, z)))
  d.writeStore pl (8 * b.tswAddr) (toBytes tsw 16) poison

end Sys2Proof.Machine
end

