-- ==== Sys2Proof/Machine/HaulOps.lean ====
section
/-! DEFINITION. Haul channels at work (R162 to R189): the pieces of the two byte streams, reading and writing them, and how a
channel goes on. A channel keeps at most 64 fabric requests outstanding (DESIGN CHOICE, log 17). -/

namespace Sys2Proof.Machine

/-! Streams (R166). -/

/-- A run of consecutive bytes of a stream at consecutive addresses. `need`: how many pieces of the source must have been read
before it can be written; `blk`: its transposition block. -/
structure Piece where
  place : Nat
  len : Nat
  addr : Nat
  need : Nat
  blk : Nat
  deriving DecidableEq, Repr

/-- The base of unit `i` of a side, in stream order. -/
def Side.unitAddr (s : Side) (i : Nat) : Nat := s.addr + (i / s.n1) * s.s2 + (i % s.n1) * s.s1

/-- Stream bytes [a, z) of a side, cut at its units. -/
def Side.run (s : Side) (a z blk : Nat) : List Piece :=
  if z ≤ a then []
  else (List.range ((z - 1) / s.w - a / s.w + 1)).map (fun i =>
    let u := a / s.w + i
    let lo := max a (u * s.w)
    { place := lo, len := min z ((u + 1) * s.w) - lo, addr := s.unitAddr u + (lo - u * s.w), need := 0, blk := blk })

/-- Rows and elements per row of a transposed source (R173). -/
def Descriptor.rows (x : Descriptor) : Nat := x.src.n2
def Descriptor.cols (x : Descriptor) : Nat := x.src.n1 * x.src.w / teSize x.te

/-- Blocks of up to 64 by 64 elements in the order of R174: first row, rows, first element, elements. -/
def Descriptor.blocks (x : Descriptor) : List (Nat × Nat × Nat × Nat) :=
  (List.range (roundUp x.cols 64)).flatMap (fun bc =>
    (List.range (roundUp x.rows 64)).map (fun br =>
      (64 * br, min 64 (x.rows - 64 * br), 64 * bc, min 64 (x.cols - 64 * bc))))

/-- Neighbouring pieces become one where the test allows. -/
def mergePieces (ok : Piece → Piece → Bool) : List Piece → List Piece
  | [] => []
  | p :: ps =>
    match mergePieces ok ps with
    | [] => [p]
    | q :: qs =>
      if p.addr + p.len = q.addr ∧ p.place + p.len = q.place ∧ p.blk = q.blk ∧ ok p q = true
      then { q with place := p.place, addr := p.addr, len := p.len + q.len } :: qs else p :: q :: qs

/-- Whole lines travel together, up to 64 of them (R292). -/
def wholeLines (p q : Piece) : Bool :=
  decide (p.addr % 64 = 0) && decide (p.len % 64 = 0) && decide (q.len % 64 = 0) && decide (p.len + q.len ≤ 4096)

/-- The bytes of a destination row of a block that lie in one line (R174). -/
def sameLine (p q : Piece) : Bool := decide (p.addr / 64 = (q.addr + q.len - 1) / 64)

/-- A piece cut at the line it crosses. -/
def splitLine (p : Piece) : List Piece :=
  let n := 64 - p.addr % 64
  if p.len ≤ n then [p]
  else [{ p with len := n }, { p with place := p.place + n, addr := p.addr + n, len := p.len - n }]

/-- The source in the order it is read (R171, R174). -/
def Descriptor.readPieces (x : Descriptor) : List Piece :=
  let s := x.src
  let l :=
    if x.transpose = 0 then s.run 0 s.total 0
    else x.blocks.zipIdx.flatMap (fun b =>
      (List.range b.1.2.1).flatMap (fun i =>
        let at_ := ((b.1.1 + i) * x.cols + b.1.2.2.1) * teSize x.te
        s.run at_ (at_ + b.1.2.2.2 * teSize x.te) b.2))
  if s.space = 2 then mergePieces wholeLines l else l

/-- The destination in the order it is written: unit by unit, each cut at the line it crosses and written only once the whole
unit has been read (R171); a transposed block by its rows' lines (R174). -/
def Descriptor.writePieces (x : Descriptor) : List Piece :=
  let s := x.dst
  let l :=
    if x.transpose = 0 then s.run 0 s.total 0
    else mergePieces sameLine (x.blocks.zipIdx.flatMap (fun b =>
      (List.range b.1.2.2.2).flatMap (fun i =>
        let at_ := ((b.1.2.2.1 + i) * x.rows + b.1.1) * teSize x.te
        s.run at_ (at_ + b.1.2.1 * teSize x.te) b.2)))
  let rs := x.readPieces
  let l := l.map (fun p => { p with
    need := if x.transpose = 0 then (rs.filter (fun r => decide (r.place < p.place + p.len))).length
            else (rs.filter (fun r => decide (r.blk ≤ p.blk))).length })
  l.flatMap splitLine

/-- How many pieces travel with `p`: neighbours that continue it in whole lines. -/
def follow (p : Piece) : List Piece → Nat
  | [] => 0
  | q :: qs =>
    if p.addr + p.len = q.addr ∧ p.place + p.len = q.place ∧ p.blk = q.blk ∧ wholeLines p q = true
    then follow { p with len := p.len + q.len } qs + 1 else 0

/-- Pieces of the destination that one write takes from piece `i` on: to a REMOTE destination whole lines go together (R292). -/
def Descriptor.packet (x : Descriptor) (ws : List Piece) (i : Nat) : Nat :=
  match ws.drop i with
  | [] => 0
  | p :: ps => if x.dst.space = 2 then follow p ps + 1 else 1

/-- `m` pieces of the destination from `i` on as one. -/
def joined (ws : List Piece) (i m : Nat) : Piece :=
  let l := (ws.drop i).take m
  let p := (l.head?).getD { place := 0, len := 0, addr := 0, need := 0, blk := 0 }
  { p with len := (l.map Piece.len).sum }

/-- The source place of destination stream byte `j` (R166, R173). -/
def Descriptor.sourceOf (x : Descriptor) (j : Nat) : Nat :=
  if x.transpose = 0 then j
  else
    let te := teSize x.te
    let e := j / te
    (e % x.rows * x.cols + e / x.rows) * te + j % te

/-- The 64-byte line of the read-back (R175). -/
def Descriptor.backLine (x : Descriptor) : Nat := x.dst.unitAddr (x.dst.n1 * x.dst.n2 - 1) / 64 * 64

/-- Requests one channel keeps outstanding (log 17). -/
def haulWindow : Nat := 64

/-! Reading and writing one piece. -/

def Dev.takeBytes (d : Dev) (h ch place : Nat) (bs : List Byte) (bad : List Nat) : Dev :=
  let c := d.chan h ch
  d.setChan h ch { c with
    data := bs.zipIdx.foldl (fun m x => SMap.insert m (place + x.2) x.1) c.data
    bad := bad.foldl NSet.add c.bad }

/-- One piece of the source is read, or requested (R171, R189). -/
def Dev.readPiece (d : Dev) (h ch i : Nat) (cmd : Cmd) (x : Descriptor) (p : Piece) : Dev × Option HaulStop :=
  let c := d.chan h ch
  let d := d.setChan h ch { c with nRead := i + 1 }
  let s := x.src
  let places := fun (f : Nat → Bool) => ((List.range p.len).filter (fun b => f (p.addr + b))).map (fun b => p.place + b)
  if s.space = 0 then
    match d.lostIn p.addr p.len with
    | some a => (d, some { addr := a, unit := 0, space := 0, write := false, status := stLocal, p := cmd.k.p })
    | none => (d.takeBytes h ch p.place (d.readMem p.addr p.len) (places d.linePoisoned), none)
  else if s.space = 1 then
    let pl := d.placeOf cmd.k.p s.unit
    (d.takeBytes h ch p.place (d.readStore pl p.addr p.len) (places (d.storePoisoned pl)), none)
  else
    let first := p.addr / 64 * 64
    let lines := (p.addr + p.len - 1) / 64 - p.addr / 64
    match d.request cmd.k.p (.haulRead h ch i)
      { noHeader with dstChip := s.unit, ptype := ptReadReq, vl := vlData, offset := first, linesM1 := lines } [] with
    | (d, none) => (d, none)
    | (d, some r) =>
      if r.status ≠ stOk then
        (d, some { addr := first, unit := s.unit, space := 2, write := false, status := r.status, p := cmd.k.p })
      else
        (d.takeBytes h ch p.place ((r.data.drop (p.addr - first)).take p.len)
          (places (fun a => bit r.lines ((a - first) / 64))), none)

/-- Bytes of a piece are written and acknowledged. -/
def Dev.ackBytes (d : Dev) (h ch n : Nat) (x : Descriptor) : Dev :=
  let c := d.chan h ch
  let d := (d.setChan h ch { c with bytesDone := c.bytesDone + n }).bump kHaulBytes n
  if x.transpose = 1 then d.bump kHaulTransposedBytes n else d

/-- `m` pieces of the destination from `i` on are written, or sent; the last write of a guarded transfer carries the guard
(R175, R189, R292). -/
def Dev.writePiece (d : Dev) (h ch i m : Nat) (cmd : Cmd) (x : Descriptor) (p : Piece) (last : Bool) : Dev × Option HaulStop :=
  let c := d.chan h ch
  let s := x.dst
  let src := (List.range p.len).map (fun b => x.sourceOf (p.place + b))
  let bs := src.map (fun j => SMap.get 0 c.data j)
  let badAt := fun b => NSet.mem c.bad (x.sourceOf (p.place + b))
  let poison := (List.range p.len).any badAt
  let guard := last && decide (x.guardEn = 1)
  let d := d.setChan h ch { c with
    nSent := i + m, poison := c.poison || poison, guardSent := guard
    data := src.foldl (fun m j => SMap.erase m j) c.data }
  let done := fun (d : Dev) =>
    let d := d.ackBytes h ch p.len x
    let d := if guard then d.fly { localSignal cmd.k.p x.guardTally x.guardCount with guard := true, cmd := some cmd } else d
    if last then d.setChan h ch { d.chan h ch with lastAcked := true } else d
  if s.space = 0 then
    match d.lostIn p.addr p.len with
    | some a => (d, some { addr := a, unit := 0, space := 0, write := true, status := stLocal, p := cmd.k.p })
    | none => (done (d.writeMem p.addr bs poison), none)
  else if s.space = 1 then (done (d.writeStore (d.placeOf cmd.k.p s.unit) p.addr bs poison), none)
  else
    let first := p.addr / 64 * 64
    let skip := p.addr - first
    let n := roundUp (skip + p.len) 64
    let payload := List.replicate skip 0#8 ++ bs ++ List.replicate (64 * n - skip - p.len) 0#8
    let marks := ((List.range n).map (fun l =>
      if (List.range p.len).any (fun b => badAt b && decide ((skip + b) / 64 = l)) then 2 ^ l else 0)).sum
    let en := ((List.range p.len).map (fun b => 2 ^ (skip + b))).sum
    match d.request cmd.k.p (.haulWrite h ch i m)
      { noHeader with
        dstChip := s.unit, ptype := ptWrite, vl := vlData, offset := first, poison := b2n poison, guard := b2n guard
        guardTally := if guard then x.guardTally else 0, guardCount := if guard then x.guardCount else 0
        byteEnOrLinePoison := if n = 1 then en else marks } payload with
    | (d, none) => (d, none)
    | (d, some r) =>
      if r.status ≠ stOk then
        (d, some { addr := first, unit := s.unit, space := 2, write := true, status := r.status, p := cmd.k.p })
      else
        let d := d.ackBytes h ch p.len x
        (if last then d.setChan h ch { d.chan h ch with lastAcked := true } else d, none)

/-- The read-back is made: of a REMOTE destination by a request, of another when the channel reports it (R175). -/
def Dev.readBack (d : Dev) (h ch : Nat) (cmd : Cmd) (x : Descriptor) : Dev :=
  if x.dst.space ≠ 2 then d
  else
    match d.request cmd.k.p (.haulReadback h ch)
      { noHeader with dstChip := x.dst.unit, ptype := ptReadReq, vl := vlData, offset := x.backLine } [] with
    | (d, none) => d
    | (d, some r) => d.setChan h ch { d.chan h ch with readback := some (r.status, decide (r.lines ≠ 0)) }

/-! The work of a channel. -/

/-- What the channel does next: a read, a write of `m` pieces, nothing until a hold or a response ends, or nothing at all. -/
inductive HaulMove where
  | read (i : Nat) (p : Piece)
  | write (i m : Nat) (p : Piece) (last : Bool)
  | wait
  | rest
  deriving DecidableEq, Repr

/-- The next read that the state lets the channel make (R171, R183, R187). -/
def Dev.nextRead (d : Dev) (h ch : Nat) (x : Descriptor) : HaulMove :=
  let c := d.chan h ch
  let rs := x.readPieces
  match rs[c.nRead]? with
  | none => .rest
  | some r =>
    let inBlock := decide (x.transpose = 1) && decide (c.nRead ≠ 0) &&
      decide ((rs[c.nRead - 1]?).map Piece.blk = some r.blk)
    if c.state ≠ .active ∧ ¬ (c.state = .pausing ∧ inBlock = true) then .rest
    else if d.haulFlight h ch < haulWindow ∧ (x.src.space ≠ 0 ∨ d.heldIn r.addr r.len = false) then .read c.nRead r
    else .wait

/-- How many pieces the next write takes now. A packet waits to be whole while reads may still fill it; a channel that reads no
more writes the units it has (R171, R183, R187), but a STOPPED one not the last write (DEDUCED, log 126). -/
def Dev.writeNow (d : Dev) (h ch : Nat) (x : Descriptor) (ws : List Piece) : Nat :=
  let c := d.chan h ch
  let n := x.packet ws c.nSent
  let ready := ((ws.drop c.nSent).take n).takeWhile (fun w =>
    decide (w.need ≤ c.nRead) && !d.anyReq (fun r => isHaulRead h ch w.need r.what))
  let r := ready.length
  let last := decide (c.nSent + n = ws.length)
  if c.state = .paused then 0
  else if c.state = .active then if r = n then n else 0
  else if d.anyReq (fun r => isHaulRead h ch (x.readPieces.length) r.what) ∧ r < n then 0
  else if c.state = .stopped ∧ last then min r (n - 1) else r

/-- The next write if its bytes have come, else the next read, as the state lets it (R171, R175, R183, R187). -/
def Dev.nextMove (d : Dev) (h ch : Nat) (x : Descriptor) : HaulMove :=
  let c := d.chan h ch
  let ws := x.writePieces
  let flight := d.haulFlight h ch
  let m := d.writeNow h ch x ws
  if ws.length ≤ c.nSent then .rest
  else if m = 0 then d.nextRead h ch x
  else
    let w := joined ws c.nSent m
    let last := decide (c.nSent + m = ws.length)
    if (x.dst.space ≠ 0 ∨ d.heldIn w.addr w.len = false) ∧ flight < haulWindow ∧ (last = false ∨ flight = 0)
    then .write c.nSent m w last else .wait

/-- The channel works on until it must wait: for responses, a held line, a pause, a stop or its end. -/
def Dev.haulRun : (fuel : Nat) → Dev → Nat → Nat → Cmd → Dev
  | 0, d, _, _, _ => d
  | n + 1, d, h, ch, cmd =>
    let x := haulOf cmd.word
    match d.nextMove h ch x with
    | .wait => d
    | .rest =>
      let c := d.chan h ch
      if c.state = .pausing ∧ d.haulFlight h ch = 0 then d.setChan h ch { c with state := .paused } else d
    | .read i p =>
      match d.readPiece h ch i cmd x p with
      | (d, none) => Dev.haulRun n d h ch cmd
      | (d, some s) => d.stopEngine h ch s
    | .write i m p last =>
      let d := if last then d.setChan h ch { d.chan h ch with state := .closing } else d
      match d.writePiece h ch i m cmd x p last with
      | (d, some s) => d.stopEngine h ch s
      | (d, none) =>
        if last then if (d.chan h ch).lastAcked then d.readBack h ch cmd x else d
        else Dev.haulRun n d h ch cmd

/-- Enough for every piece of a descriptor. -/
def Descriptor.fuel (x : Descriptor) : Nat := x.readPieces.length + x.writePieces.length + 1

/-- The transfer of a channel that is at work goes on. -/
def Dev.haulOn (d : Dev) (h ch : Nat) : Dev :=
  match (d.chan h ch).cur with
  | none => d
  | some cmd =>
    if (d.chan h ch).state = .active ∨ (d.chan h ch).state = .pausing ∨ (d.chan h ch).state = .stopped
    then Dev.haulRun (haulOf cmd.word).fuel d h ch cmd else d

/-- A channel starts its queued command (R127, R182). -/
def Dev.haulStart (d : Dev) (h ch : Nat) : Dev :=
  let c := d.chan h ch
  match c.queued with
  | none => d
  | some cmd =>
    if c.state = .idle ∧ c.cur = none ∧ cmd.free ∧ d.tearing cmd.k.p = false then
      (d.setChan h ch { c with state := .active, cur := some cmd, queued := none }).haulOn h ch
    else d

/-- Channels of an engine whose drain a stop awaits: requests in flight, or units read that a hold keeps from being written. -/
def Dev.stopsWait (d : Dev) (h : Nat) : Bool :=
  (List.range 8).any (fun ch =>
    let c := d.chan h ch
    decide (c.state = .stopped) && (decide (d.haulFlight h ch ≠ 0) ||
      match c.cur with | some cmd => decide (d.nextMove h ch (haulOf cmd.word) ≠ .rest) | none => false))

/-- A stop that has drained is resolved, and the engine's channels go on. -/
def Dev.haulDrain (d : Dev) (h : Nat) : Dev :=
  if d.haulStops h = [] ∨ d.stopsWait h = true then d
  else (List.range 8).foldl (fun d ch => (d.haulStart h ch).haulOn h ch) (d.endStop h)

/-- One channel goes on, with the engine's stop if one is draining. -/
def Dev.kickHaul (d : Dev) (h ch : Nat) : Dev := (((d.haulStart h ch).haulOn h ch).haulDrain h).haulDrain h

/-- The record of an ended transfer has been written: the channel takes its next command, or at a teardown drops it (R181, R182,
R190). -/
def Dev.chanFree (d : Dev) (h ch : Nat) : Dev :=
  let c := d.chan h ch
  if c.ended = false then d
  else
    let d := (d.setChan h ch { c with cur := none, ended := false }).chanRest h ch
    if d.tearing (d.haulOwner h ch) then d.dropQueued h ch else d.kickHaul h ch

/-- Every channel goes on: after held accesses have been released. -/
def Dev.kickHauls (d : Dev) : Dev :=
  (List.range 128).foldl (fun d i => if (d.chan (i / 8) (i % 8)).cur.isSome then d.kickHaul (i / 8) (i % 8) else d) d

end Sys2Proof.Machine
end

