-- ==== Sys2Proof/Machine/StepOps.lean ====
section
/-! DEFINITION. The step in flight of a training partition: its vote (R31, R356 to R358, R361), recut triggers (R368, R369),
digest records (R370, R372), and what a missed deadline does (R423). -/

namespace Sys2Proof.Machine

/-- A partition with a step control block is a training partition (DEDUCED, log 14: the spec names no other mark). -/
def Dev.isTraining (d : Dev) (p : Nat) : Bool :=
  decide (d.pState p = psAdmitted) && decide (d.get (kStepBlockAddr p) ≠ 0)

/-- The step control block as one number (R341). -/
def Dev.stepBlock (d : Dev) (p : Nat) : Nat := d.readNum (d.get (kStepBlockAddr p)) 64

/-- The step in flight: that of the vote in progress, else STEP of the step control block of a partition that is ADMITTED or
QUIESCING (DEDUCED, log 14). -/
def Dev.stepInFlight (d : Dev) (p : Nat) : Option Nat :=
  match (d.train p).vote with
  | some v => some v.step
  | none =>
    if (d.pState p = psAdmitted ∨ d.pState p = psQuiescing) ∧ d.get (kStepBlockAddr p) ≠ 0
    then some (fld (d.stepBlock p) 511 480) else none

def Dev.isMember (d : Dev) (p : Nat) : Bool := decide (d.get (kRole p) = 0)

/-- The vote for step `n` has been sent. -/
def Dev.voted (d : Dev) (p n : Nat) : Bool := decide ((d.train p).voteSent = some n)

/-! Digests. STATE_DIGEST holds step, POISONED and digest; CONTRIB_DIGEST step and digest (R394). -/

def stateStep (v : Nat) : Nat := fld v 31 0
def stateBad (v : Nat) : Bool := decide (fld v 63 32 ≠ 0)
def stateDigest (v : Nat) : Nat := fld v 575 64
def contribStep (v : Nat) : Nat := fld v 31 0
def contribDigest (v : Nat) : Nat := fld v 543 32

def Dev.digestStep (d : Dev) (p n : Nat) : Bool :=
  decide (d.get (kDigestInterval p) ≠ 0) && decide (n % d.get (kDigestInterval p) = 0)

/-- *Digest record* (R370). -/
structure DigestRecord where
  digest : Nat
  step : Nat
  src : Nat
  kind : Nat
  poisoned : Bool
  deriving DecidableEq, Repr

def digestRecordOf (w : Nat) : DigestRecord :=
  { digest := fld w 1023 512, step := fld w 511 480, src := fld w 479 464, kind := fld w 463 456, poisoned := bit w 455 }

def digestRecordBits (x : DigestRecord) : Nat :=
  pack [(512, x.digest), (32, x.step), (16, x.src), (8, x.kind), (1, b2n x.poisoned), (455, 0)]

/-- The record in a place of a partition's inbox. -/
def Dev.inboxRecord (d : Dev) (p place : Nat) : DigestRecord :=
  digestRecordOf (d.readNum (d.get (kDigestInbox p) + 128 * place) 128)

/-- Two digests agree; a POISONED one matches none (R371). -/
def digestsAgree (a b : Nat) (badA badB : Bool) : Bool := decide (a = b) && !badA && !badB

/-! Recut (R368, R369). -/

/-- The deadline of the segment of a command moves by `ns`; what is added counts as an extension (R425). -/
def Dev.extendSeg (d : Dev) (c : Cmd) (ns : Nat) : Dev :=
  d.setGauge c.k ((d.gauge c.k).map (fun s =>
    if s.segId = c.segId ∧ s.step = c.step ∧ s.kind = c.kind
    then { s with deadline := s.deadline + ns, extended := s.extended + ns } else s))

/-- The deadline of the vote's segment is extended once by RECUT_ALLOW while a recut is pending. -/
def Dev.recutExtend (d : Dev) (p : Nat) : Dev :=
  match (d.train p).vote with
  | some v =>
    if d.get (kRecutState p) = 1 ∧ (d.gauge v.cmd.k).any (fun s => decide (s.segId = v.cmd.segId) && !s.recutExtended) then
      let d := d.extendSeg v.cmd (d.get (kRecutAllow p))
      d.setGauge v.cmd.k ((d.gauge v.cmd.k).map (fun s =>
        if s.segId = v.cmd.segId then { s with recutExtended := true } else s))
    else d
  | none => d

/-- A recut trigger occurs (R368). -/
def Dev.recutTrigger (d : Dev) (p trigger : Nat) : Dev :=
  match d.stepInFlight p with
  | none => d
  | some n =>
    if bit (d.get (kRecutTriggers p)) trigger = false ∨ d.isMember p = false then d
    else if d.voted p n then d.bump kRecutTriggersLate 1
    else if d.get (kRecutState p) ≠ 0 then d
    else
      let d := (d.put (kRecutState p) 1).bump kRecutsPending 1
      (d.record (atPart p) 0x503 0 [(4, trigger), (16, d.get (kPeerChip p)), (32, n)]).recutExtend p

/-- Corrections counted since the step began have reached the limit, once a step (trigger 1). -/
def Dev.ceTrigger (d : Dev) : Dev :=
  (List.range 4).foldl (fun d p =>
    let now := d.get kBenchStoreCorrected + d.get kMemOuterCorrected
    if d.isTraining p ∧ (d.train p).ceFired = false ∧ d.get (kRecutCeLimit p) ≤ now - (d.train p).ceBase
    then (d.setTrain p { d.train p with ceFired := true }).recutTrigger p 1 else d) d

/-- SUSPECT is set (R355). -/
def Dev.suspect (d : Dev) (p : Nat) : Dev := (d.setFlag p pfSuspect true).recutTrigger p 0

/-- A step begins: what is counted or awaited for one step starts afresh (R368). -/
def Dev.beginStep (d : Dev) (p : Nat) : Dev :=
  let d := d.put (kRecutState p) 0
  let d := d.setTrain p { d.train p with
    ceBase := d.get kBenchStoreCorrected + d.get kMemOuterCorrected, ceFired := false
    bedShort := false, chanLost := false, fabricShort := false, recutFail := false, digestFail := false
    digestSeen := none, voteSent := none, contribBytes := [], finesNew := [] }
  match d.stepInFlight p with
  | some n =>
    if d.get (kAuditInterval p) ≠ 0 ∧ n % d.get (kAuditInterval p) = 0 then d.recutTrigger p 2 else d
  | none => d

/-- The digest records awaited in the inbox are compared as far as they are known (R369, R372). -/
def Dev.inboxCheck (d : Dev) (p : Nat) : Dev :=
  match d.stepInFlight p with
  | none => d
  | some n =>
    if d.isMember p = false ∨ d.voted p n then d
    else
      let own := d.get (kStateDigest p)
      let r := d.inboxRecord p 0
      let d :=
        if d.digestStep p n ∧ d.get (kMirrorSourceChip p) ≠ 0xFFFF ∧ (d.train p).digestSeen ≠ some n ∧ stateStep own = n ∧
            r.kind = 1 ∧ r.src = d.get (kMirrorSourceChip p) ∧ r.step = n then
          if digestsAgree (stateDigest own) r.digest (stateBad own) r.poisoned
          then d.setTrain p { d.train p with digestSeen := some n }
          else
            ((d.setTrain p { d.train p with digestSeen := some n, digestFail := true }).bump kDigestMismatches 1).record
              (atPart p) 0x505 3 [(2, 1), (16, r.src), (256, stateDigest own), (256, r.digest)]
        else d
      let c := d.inboxRecord p 1
      let mine := d.get (kContribDigest p)
      match (d.train p).vote with
      | none => d
      | some v =>
      if d.get (kRecutState p) = 1 ∧ c.kind = 2 ∧ c.src = d.get (kPeerChip p) ∧ c.step = n ∧
          contribStep mine = n then
        if digestsAgree (contribDigest mine) c.digest false c.poisoned then d.put (kRecutState p) 2
        else
          (((d.put (kRecutState p) 3).setTrain p { d.train p with recutFail := true }).bump kRecutMismatches 1).record
            (d.whereCmd v.cmd) 0x504 3 [(16, c.src), (256, contribDigest mine), (256, c.digest)]
      else d

/-! The vote. -/

/-- Fewer ports are ADMITTED than MIN_PORTS (R310). -/
def Dev.fabricIsShort (d : Dev) : Bool :=
  decide (((List.range 16).filter (fun n => d.portAdmitted n)).length < d.fabric.coords.minPorts)

/-- Some cause of *Causes of a fail vote* holds for step `n` (R356). -/
def Dev.failCause (d : Dev) (p n : Nat) (force : Bool) : Bool :=
  let t := d.train p
  let own := d.get (kStateDigest p)
  d.flag p pfCheckFail || d.flag p pfMiss || d.flag p pfPoison || t.mirrorBad.contains n || t.recutFail || t.digestFail ||
  t.bedShort || (d.digestStep p n && decide (stateStep own = n) && stateBad own) || t.chanLost || t.fabricShort ||
  d.fabricIsShort || force

/-- The partition mirrors its stockpile, whatever its role (R364); MIRROR_BASE 0 is none (R394). -/
def Dev.mirrors (d : Dev) (p : Nat) : Bool :=
  decide (d.fabric.coords.buddy ≠ 0xFFFF) && decide (d.get (kStockpileSlotBytes p) ≠ 0) && decide (d.get (kMirrorBase p) ≠ 0)

/-- Every cause is known for step `n` (R357); an XCHG_VOTE at work stands behind the exchange of its step. -/
def Dev.causesKnown (d : Dev) (p n : Nat) : Bool :=
  let t := d.train p
  (!d.mirrors p || t.mirrored.contains n) && decide (d.get (kRecutState p) ≠ 1) &&
  (!d.digestStep p n ||
    (decide (stateStep (d.get (kStateDigest p)) = n) &&
     (decide (d.get (kMirrorSourceChip p) = 0xFFFF) || decide (t.digestSeen = some n))))

/-- *Vote word* (R358). -/
def Dev.voteWord (d : Dev) (p n : Nat) (fail abandon : Bool) : Nat :=
  let own := d.get (kStateDigest p)
  let ds := d.digestStep p n
  let have_ := ds && decide (stateStep own = n)
  let fp := stateDigest own % 1024
  pack [(1, b2n fail), (1, b2n (d.flag p pfNonfinite)), (1, b2n abandon), (1, b2n (d.flag p pfCkpt)), (1, b2n ds),
        (3, n % 8), (3, 7 - n % 8), (1, 0), (10, if have_ then fp else 0), (10, if have_ then 1023 - fp else 0)]

/-- The vote is sent: the word goes as the payload of a signal of 1 to the leaf tally of the vote slot (R221, R358). -/
def Dev.sendVote (d : Dev) (p n : Nat) (fail abandon : Bool) : Dev :=
  let word := d.voteWord p n fail abandon
  let d := if fail then d.bump kFailVotes 1 else d
  let d := if d.flag p pfNonfinite then d.bump kNonfiniteVotes 1 else d
  let d := d.setTrain p { d.train p with
    voteSent := some n, vote := (d.train p).vote.map (fun v => { v with sent := true }) }
  let d := match (d.train p).vote with
    | some v => d.setGauge v.cmd.k ((d.gauge v.cmd.k).map (fun (s : Seg) =>
        if s.segId = v.cmd.segId ∧ s.step = v.cmd.step then { s with heldAt := some d.time } else s))
    | none => d
  d.fly { localSignal p (d.barrier p (d.get (kVoteSlot p))).leaf 1 with payload := word }

/-- The vote of a running XCHG_VOTE is sent at the first of the moments of R357. -/
def Dev.voteIfDue (d : Dev) (p : Nat) : Dev :=
  let d := d.inboxCheck p
  match (d.train p).vote with
  | none => d
  | some v =>
    if v.sent ∨ d.isMember p = false then d
    else
      let late := (d.gauge v.cmd.k).any (fun s =>
        decide (s.segId = v.cmd.segId) && decide (s.step = v.cmd.step) && decide (s.deadline ≤ d.time)) && !d.memHolds
      if d.failCause p v.step v.forceFail ∨ late then d.sendVote p v.step true false
      else if d.causesKnown p v.step then d.sendVote p v.step false false
      else d

/-- A fail vote with ABANDON for the step in flight, if its vote has not been sent (R361, R439, R443). -/
def Dev.abandonVote (d : Dev) (p : Nat) : Dev :=
  match d.stepInFlight p with
  | none => d
  | some n => if d.voted p n ∨ d.isMember p = false then d else d.sendVote p n true true

/-! Misses. -/

/-- The batch of a serving partition is void (R423): its miss tally, and the teardown under DRAIN (R408, R412). -/
def Dev.servingMiss (d : Dev) (p : Nat) : Dev :=
  let v := d.get (kServingMissTally p)
  let d := if bit v 15 then d.fly (localSignal p (v % 4096) 1) else d
  match (d.part p).shift with
  | some sh =>
    if sh.mode = 3 ∧ d.pState p = psQuiescing ∧ d.tearing p = false then
      d.startTeardown p (shiftEnd sh.action) sh.confirm sh.tenancy
    else d
  | none => d

/-- A STEP_PHASE or EVALUATION deadline is missed (R423). -/
def Dev.stepMiss (d : Dev) (p : Nat) : Dev := (d.setFlag p pfMiss true).voteIfDue p

end Sys2Proof.Machine
end

