-- ==== Sys2Proof/Machine/Operands.lean ====
section
/-! DEFINITION. Operand forms of the vector unit: the 32-, 16- and 8-bit views of a register (R153), masks (R153, R555), the
bench-store lanes of LD and ST, and the conditions that make an instruction malformed (R154, R159, R555). -/

namespace Sys2Proof.Machine

/-- Lanes of a vector register (R112). -/
def lanes : Nat := 1024

def Dev.vreg (d : Dev) (pl r : Nat) : List Word32 := SMap.get (List.replicate lanes 0#32) d.benches.vregs (32 * pl + r)

def Dev.setVreg (d : Dev) (pl r : Nat) (x : List Word32) : Dev :=
  { d with benches := { d.benches with vregs := SMap.set (List.replicate lanes 0#32) d.benches.vregs (32 * pl + r) x } }

def Dev.vmaskReg (d : Dev) (pl m : Nat) : Nat := SMap.get 0 d.benches.masks (8 * pl + m)

def Dev.setVmask (d : Dev) (pl m x : Nat) : Dev :=
  { d with benches := { d.benches with masks := SMap.set 0 d.benches.masks (8 * pl + m) x } }

/-- Elements per lane of a view with elements of so many bits. -/
def perLane (bits : Nat) : Nat := 32 / bits

/-- Element q of a lane. -/
def laneElem (bits : Nat) (w : Word32) (q : Nat) : Nat := fld w.toNat (bits * q + bits - 1) (bits * q)

/-- The elements of a register in a view, in the order of R153. -/
def viewOf (bits : Nat) (r : List Word32) : List Nat :=
  r.flatMap (fun w => (List.range (perLane bits)).map (laneElem bits w))

/-- A lane put together from its elements. -/
def packLane (bits : Nat) : List Nat → Nat
  | [] => 0
  | e :: es => e % 2 ^ bits + 2 ^ bits * packLane bits es

/-- A register put together from `n` lanes of elements of a view. -/
def packView (bits : Nat) : (n : Nat) → List Nat → List Word32
  | 0, _ => []
  | n + 1, es => BitVec.ofNat 32 (packLane bits (es.take (perLane bits))) :: packView bits n (es.drop (perLane bits))

/-- Lane i takes part: no mask is applied, or its bit is 1 (R153). -/
def laneOn (maskEn mask i : Nat) : Bool := maskEn = 0 || bit mask i

/-- Masked-out lanes keep the old register. -/
def mergeLanes (on : Nat → Bool) (old new : List Word32) : List Word32 :=
  (List.zip old new).zipIdx.map (fun x => if on x.2 then x.1.2 else x.1.1)

/-- The block of 1,024 elements that part `pd` names replaced, element by element, where its lane takes part (R555). -/
def putPart (bits pd : Nat) (on : Nat → Bool) (old : List Word32) (new : List Nat) : List Word32 :=
  let es := viewOf bits old
  let block := (List.zip ((es.drop (1024 * pd)).take 1024) new).zipIdx.map (fun x => if on x.2 then x.1.2 else x.1.1)
  packView bits lanes (es.take (1024 * pd) ++ block ++ es.drop (1024 * (pd + 1)))

/-- The block of 1,024 elements that part `ps` names. -/
def getPart (bits ps : Nat) (r : List Word32) : List Nat := ((viewOf bits r).drop (1024 * ps)).take 1024

/-- The bench-store address of a lane of LD or ST: the pitch is VSTRIDE words, 0 and 1 contiguous (R153); modulo 2^23. -/
def laneAddr (addr stride i : Nat) : Nat := (addr + 4 * i * (if stride = 0 then 1 else stride)) % storeBytes

/-! Operation codes (R154). -/

def vopNopCode : Nat := 0x00
def vopLd : Nat := 0x01
def vopSt : Nat := 0x02
def vopBcast : Nat := 0x03
def vopAdd : Nat := 0x10
def vopSub : Nat := 0x11
def vopMul : Nat := 0x12
def vopFma : Nat := 0x13
def vopDiv : Nat := 0x14
def vopSqrt : Nat := 0x15
def vopMin : Nat := 0x16
def vopMax : Nat := 0x17
def vopExp2 : Nat := 0x18
def vopLog2 : Nat := 0x19
def vopRsqrt : Nat := 0x1A
def vopCvt : Nat := 0x20
def vopMerge : Nat := 0x21
def vopJoin : Nat := 0x22
def vopSplit : Nat := 0x23
def vopCmpLt : Nat := 0x30
def vopCmpEq : Nat := 0x31
def vopNonfinite : Nat := 0x32
def vopRedAdd : Nat := 0x38

/-- The codes of *Vector operations*. -/
def vopCodes : List Nat :=
  [0x00, 0x01, 0x02, 0x03, 0x10, 0x11, 0x12, 0x13, 0x14, 0x15, 0x16, 0x17, 0x18, 0x19, 0x1A, 0x20, 0x21, 0x22, 0x23, 0x30,
   0x31, 0x32, 0x38]

/-- Blocks of 1,024 elements in the view of a format (R555); an unknown code bounds nothing. -/
def viewParts (code : Nat) : Nat :=
  match Fmt.ofCode code with
  | some f => 4 / f.bytes
  | none => 4

def vmaskTarget (vop : Nat) : Bool := vop = vopCmpLt || vop = vopCmpEq || vop = vopNonfinite

/-- The offending bits of a vector instruction whose reserved fields are `rsv` (R154, R555). -/
def vinstrOffences (rsv : List Nat) (x : VectorInstr) : List Nat :=
  let known := vopCodes.contains x.vop
  let cvt := x.vop = vopCvt
  List.flatten [
  rsv, offend (known = false) 88,
  offend (¬ cvt ∧ x.vscale ≠ 0) 52,
  offend (if x.vop = vopCvt then (5 < x.vfmt) else known = true ∧ 2 < x.vfmt) 60,
  offend (cvt ∧ 5 < x.vb) 73,
  offend (known = true ∧
    (if x.vop = vopCvt then viewParts x.vfmt else if x.vop = vopSplit then 2 else 1) ≤ x.pd) 50,
  offend (known = true ∧
    (if x.vop = vopCvt then viewParts x.vb else if x.vop = vopJoin then 2 else 1) ≤ x.ps) 48,
  offend (vmaskTarget x.vop = true ∧ 7 < x.vd) 83]

/-- A vector row's operands as an instruction with the row's VOP. -/
def vinstrFor (vop : Nat) (o : VOperands) : VectorInstr :=
  { vop := vop, vd := o.vd, va := o.va, vb := o.vb, vc := o.vc, vmask := o.vmask, maskEn := b2n o.maskEn, vfmt := o.vfmt,
    vscale := o.vscale.toNat, pd := o.pd, ps := o.ps, vstride := o.vstride.toNat, vaddr := o.vaddr.toNat }

end Sys2Proof.Machine
end

