-- ==== Sys2Proof/Machine/Vector.lean ====
section
/-! DEFINITION. The vector unit (R70 to R73, R152 to R154, R555): one instruction on a bench, and the rows of the vector
operations. A row acts on the registers and the store of the physical bench it names; with operands that make it malformed
nothing is executed. -/

namespace Sys2Proof.Machine

/-- An arithmetic operation on one element of a view of format `f`, rounded once (R70 to R72). -/
def vElem (f : Fmt) (vop a b c : Nat) : Nat :=
  let x := decodeScalar f a
  let y := decodeScalar f b
  if vop = vopAdd then roundScalar f (Val.add x y)
  else if vop = vopSub then roundScalar f (Val.sub x y)
  else if vop = vopMul then roundScalar f (Val.mul x y)
  else if vop = vopFma then roundScalar f (Val.add (Val.mul x y) (decodeScalar f c))
  else if vop = vopDiv then divRound f x y
  else if vop = vopSqrt then sqrtRound f x
  else if vop = vopMin then roundScalar f (Val.minimum x y)
  else if vop = vopMax then roundScalar f (Val.maximum x y)
  else if vop = vopExp2 then exp2Round f x
  else if vop = vopLog2 then log2Round f x
  else rsqrtRound f x

/-- The element-wise operation over a whole register. -/
def vArith (f : Fmt) (vop : Nat) (a b c : List Word32) : List Word32 :=
  let xs := viewOf f.bits a
  let ys := viewOf f.bits b
  let zs := viewOf f.bits c
  packView f.bits lanes ((List.zip xs (List.zip ys zs)).map (fun e => vElem f vop e.1 e.2.1 e.2.2))

/-- One element of CVT: the exact value times 2^VSCALE, rounded once; a PAIR is formed from FP32 (R72). -/
def cvtElem (src dst : Fmt) (scale : Int) (x : Nat) : Nat := convert dst (Val.scale scale (elemVal src x))

/-- R73: the fixed tree over the view, masked-out lanes contributing +0. -/
def redAdd (f : Fmt) (on : Nat → Bool) (a : List Word32) : Nat :=
  let es := (a.zipIdx.map (fun x => if on x.2 then x.1 else 0#32))
  treeSum (fun p q => roundScalar f (Val.add (decodeScalar f p) (decodeScalar f q))) (if f.bits = 32 then 10 else 11)
    (viewOf f.bits es)

/-- Bit i of a comparison: some element of lane i satisfies it (R555). -/
def laneTest (f : Fmt) (test : Nat → Nat → Bool) (a b : List Word32) : List Bool :=
  (List.zip a b).map (fun x => (List.range (perLane f.bits)).any (fun q => test (laneElem f.bits x.1 q) (laneElem f.bits x.2 q)))

/-- A number from its bits, bit 0 first. -/
def ofBits : List Bool → Nat
  | [] => 0
  | b :: bs => b2n b + 2 * ofBits bs

/-- The mask register after a comparison: masked-out lanes keep their bit. -/
def mergeMask (on : Nat → Bool) (old : Nat) (new : List Bool) : Nat :=
  ofBits (new.zipIdx.map (fun x => if on x.2 then x.1 else bit old x.2))

/-- The distinct poisoned lines that the given pieces of bench store touch, in order. -/
def Dev.poisonedOf (d : Dev) (pl : Nat) (pieces : List (Nat × Nat)) : List Nat :=
  (pieces.flatMap (fun x => (linesOf x.1 x.2).filter (fun l => d.storePoisoned pl l))).eraseDups

/-- Poison consumed by a load (R258, R259): one record for each line; none on a bench that no partition holds. -/
def Dev.consumeLoad (d : Dev) (w : Option Where) (pl unit : Nat) (pieces : List (Nat × Nat)) : Dev :=
  match w with
  | none => d
  | some w => (d.poisonedOf pl pieces).foldl (fun d l => d.consumePoison w (l % storeBytes) 1 unit 6) d

/-- One well-formed instruction on the bench at place `pl`; `addr` is its bench-store address in this repetition. -/
def Dev.vexec (d : Dev) (w : Option Where) (pl unit : Nat) (x : VectorInstr) (addr : Nat) : Dev :=
  let on := laneOn x.maskEn (d.vmaskReg pl x.vmask)
  let f := (Fmt.ofCode x.vfmt).getD .fp32
  let a := d.vreg pl x.va
  let b := d.vreg pl x.vb
  let old := d.vreg pl x.vd
  if x.vop = vopNopCode then d
  else if x.vop = vopLd then
    let new := (List.range lanes).map (fun i => BitVec.ofNat 32 (d.storeNum pl (laneAddr addr x.vstride i) 4))
    let pieces := ((List.range lanes).filter on).map (fun i => (laneAddr addr x.vstride i, 4))
    (d.consumeLoad w pl unit pieces).setVreg pl x.vd (mergeLanes on old new)
  else if x.vop = vopSt then
    let es := a.zipIdx.filter (fun e => on e.2)
    (es.foldl (fun d e => d.writeStore pl (laneAddr addr x.vstride e.2) (toBytes e.1.toNat 4) false) d).cleanLines pl
      (es.map (fun e => (laneAddr addr x.vstride e.2, 4)))
  else if x.vop = vopBcast then
    let e := d.storeNum pl addr f.bytes
    (d.consumeLoad w pl unit [(addr, f.bytes)]).setVreg pl x.vd
      (mergeLanes on old (List.replicate lanes (BitVec.ofNat 32 (packLane f.bits (List.replicate (perLane f.bits) e)))))
  else if x.vop = vopCvt then
    let s := (Fmt.ofCode x.vb).getD .fp32
    d.setVreg pl x.vd (putPart f.bits x.pd on old ((getPart s.bits x.ps a).map (cvtElem s f (signed 8 x.vscale))))
  else if x.vop = vopMerge then
    let sel := d.vmaskReg pl x.vmask
    d.setVreg pl x.vd (mergeLanes (bit sel) b a)
  else if x.vop = vopJoin then
    d.setVreg pl x.vd (mergeLanes on old ((List.zip (getPart 16 x.ps a) (getPart 16 x.ps b)).map
      (fun e => BitVec.ofNat 32 (e.1 * 2 ^ 16 + e.2))))
  else if x.vop = vopSplit then
    let d := d.setVreg pl x.vd (putPart 16 x.pd on old (a.map (fun w => w.toNat / 2 ^ 16)))
    d.setVreg pl x.vc (putPart 16 x.pd on (d.vreg pl x.vc) (a.map (fun w => w.toNat % 2 ^ 16)))
  else if x.vop = vopCmpLt then
    d.setVmask pl x.vd (mergeMask on (d.vmaskReg pl x.vd)
      (laneTest f (fun p q => Val.lt (decodeScalar f p) (decodeScalar f q)) a b))
  else if x.vop = vopCmpEq then
    d.setVmask pl x.vd (mergeMask on (d.vmaskReg pl x.vd)
      (laneTest f (fun p q => Val.eq (decodeScalar f p) (decodeScalar f q)) a b))
  else if x.vop = vopNonfinite then
    d.setVmask pl x.vd (mergeMask on (d.vmaskReg pl x.vd) (laneTest f (fun p _ => !(decodeScalar f p).isFinite) a a))
  else if x.vop = vopRedAdd then
    d.setVreg pl x.vd (BitVec.ofNat 32 (redAdd f on a) :: List.replicate (lanes - 1) 0#32)
  else d.setVreg pl x.vd (mergeLanes on old (vArith f x.vop a b (d.vreg pl x.vc)))

/-- Where an instruction that no command of a chain carries places a consumption: the tenant's partition and the bench. -/
def Dev.benchWhere (d : Dev) (b : Nat) : Option Where :=
  (d.tenantAt b).map (fun t => { atPart t.1 with bench := b })

/-- A row of *Vector operations* on physical bench `b`; one out of use takes no traffic (R116). -/
def vopRow (vop b : Nat) (o : VOperands) (s : State) : Host.Outcome State Fault Refusal :=
  let x := vinstrFor vop o
  onDie (fun d =>
    if vinstrOffences [] x = [] ∧ d.outOfUse b = false then
      d.vexec (d.benchWhere b) b (match d.tenantAt b with | some t => t.2 | none => 0) x x.vaddr
    else d) s

def execVopNop (b : Fin 96) (o : VOperands) (s : State) : Host.Outcome State Fault Refusal := vopRow vopNopCode b o s
def execLd (b : Fin 96) (o : VOperands) (s : State) : Host.Outcome State Fault Refusal := vopRow vopLd b o s
def execSt (b : Fin 96) (o : VOperands) (s : State) : Host.Outcome State Fault Refusal := vopRow vopSt b o s
def execBcast (b : Fin 96) (o : VOperands) (s : State) : Host.Outcome State Fault Refusal := vopRow vopBcast b o s
def execAdd (b : Fin 96) (o : VOperands) (s : State) : Host.Outcome State Fault Refusal := vopRow vopAdd b o s
def execSub (b : Fin 96) (o : VOperands) (s : State) : Host.Outcome State Fault Refusal := vopRow vopSub b o s
def execMul (b : Fin 96) (o : VOperands) (s : State) : Host.Outcome State Fault Refusal := vopRow vopMul b o s
def execFma (b : Fin 96) (o : VOperands) (s : State) : Host.Outcome State Fault Refusal := vopRow vopFma b o s
def execDiv (b : Fin 96) (o : VOperands) (s : State) : Host.Outcome State Fault Refusal := vopRow vopDiv b o s
def execSqrt (b : Fin 96) (o : VOperands) (s : State) : Host.Outcome State Fault Refusal := vopRow vopSqrt b o s
def execMin (b : Fin 96) (o : VOperands) (s : State) : Host.Outcome State Fault Refusal := vopRow vopMin b o s
def execMax (b : Fin 96) (o : VOperands) (s : State) : Host.Outcome State Fault Refusal := vopRow vopMax b o s
def execExp2 (b : Fin 96) (o : VOperands) (s : State) : Host.Outcome State Fault Refusal := vopRow vopExp2 b o s
def execLog2 (b : Fin 96) (o : VOperands) (s : State) : Host.Outcome State Fault Refusal := vopRow vopLog2 b o s
def execRsqrt (b : Fin 96) (o : VOperands) (s : State) : Host.Outcome State Fault Refusal := vopRow vopRsqrt b o s
def execCvt (b : Fin 96) (o : VOperands) (s : State) : Host.Outcome State Fault Refusal := vopRow vopCvt b o s
def execMerge (b : Fin 96) (o : VOperands) (s : State) : Host.Outcome State Fault Refusal := vopRow vopMerge b o s
def execJoin (b : Fin 96) (o : VOperands) (s : State) : Host.Outcome State Fault Refusal := vopRow vopJoin b o s
def execSplit (b : Fin 96) (o : VOperands) (s : State) : Host.Outcome State Fault Refusal := vopRow vopSplit b o s
def execCmpLt (b : Fin 96) (o : VOperands) (s : State) : Host.Outcome State Fault Refusal := vopRow vopCmpLt b o s
def execCmpEq (b : Fin 96) (o : VOperands) (s : State) : Host.Outcome State Fault Refusal := vopRow vopCmpEq b o s
def execNonfinite (b : Fin 96) (o : VOperands) (s : State) : Host.Outcome State Fault Refusal := vopRow vopNonfinite b o s
def execRedAdd (b : Fin 96) (o : VOperands) (s : State) : Host.Outcome State Fault Refusal := vopRow vopRedAdd b o s

end Sys2Proof.Machine
end

