-- ==== Sys2Proof/Machine/Reports.lean ====
section
/-! DEFINITION. The end of commands: SIGNALs that complete or fail (R196, R556), reports in order (R141), halts (R138, R139),
and the bench's units: ramps (R90 to R96), conveyors (R101 to R106) and the start of matrix and vector commands (R88, R89,
R127, R152). -/

namespace Sys2Proof.Machine

/-! Reports. -/

def Dev.mapOutst (d : Dev) (c : Cmd) (f : Outst → Outst) : Dev :=
  let x := d.cursor c.k c.u
  d.setCursor c.k c.u { x with outst := setOutst x.outst c.seq f }

/-- A control command has completed: its chain may issue again (R140). -/
def Dev.ctlDone (d : Dev) (c : Cmd) : Dev :=
  let d := d.mapOutst c (fun o => { o with fin := true })
  d.setCursor c.k c.u { d.cursor c.k c.u with ctl := none }

/-- A SIGNAL that ended in error: record, chain FAULTED, never reported (R556). -/
def Dev.signalError (d : Dev) (c : Cmd) (status : Nat) : Dev :=
  let d := d.engineBusError c 0 (signalOf c.word).chip 2 1 status
  d.setCursor c.k c.u { d.cursor c.k c.u with ctl := none }

/-- A remote SIGNAL is sent; it may be answered at once. -/
def Dev.sendRemote (d : Dev) (s : Signal) : Dev :=
  match s.cmd with
  | none => d
  | some c =>
    match d.requestSignal s c with
    | (d, none) => d
    | (d, some r) => if r.status = stOk then d.ctlDone c else d.signalError c r.status

/-- R139: a HALT request takes effect at a LINK word with every command of the segment complete. -/
def Dev.haltCheck (d : Dev) (k : ChainId) (u : Nat) : Dev :=
  let c := d.cursor k u
  if c.haltReq ∧ c.atLink ∧ c.outst.length ≤ 1 ∧ (c.state = .running ∨ c.state = .polling)
  then (d.setCursor k u { c with state := .halted, haltReq := false }).drainCheck k.p else d

/-- What can be reported is, and a halt that was waiting takes effect. -/
def Dev.settle (d : Dev) (k : ChainId) (u : Nat) : Dev :=
  (Dev.flush Dev.sendRemote Dev.chanFree (3 * (d.cursor k u).outst.length + 3) d k u).haltCheck k u

/-- A NOP, or a WAIT that has been granted, has been executed; it is complete, and its chain issues again, when it is reported
(R128, R140; DEDUCED, log 136). -/
def Dev.ctlRan (d : Dev) (c : Cmd) : Dev :=
  let d := d.mapOutst c (fun o => { o with fin := true })
  let d := d.setCursor c.k c.u { d.cursor c.k c.u with ctl := none, held := some c.seq }
  d.settle c.k c.u

/-- The work of an issued command has ended; it is reported in its turn. -/
def Dev.finish (d : Dev) (c : Cmd) (haul : Option HaulEnd) : Dev :=
  (d.mapOutst c (fun o => { o with fin := true, haul := haul })).settle c.k c.u

/-! Ramps. -/

def Dev.setAct (d : Dev) (pl : Nat) (unit : ActUnit) (a : Act) : Dev :=
  match unit with
  | .faces => d.setBench pl { d.bench pl with faces := a }
  | .vector => d.setBench pl { d.bench pl with vec := a }

def Dev.act (d : Dev) (pl : Nat) (unit : ActUnit) : Act :=
  match unit with
  | .faces => (d.bench pl).faces
  | .vector => (d.bench pl).vec

/-- A command stands at the head of the unit's queue. -/
def Dev.headed (d : Dev) (pl : Nat) (unit : ActUnit) : Bool :=
  match unit with
  | .faces => decide ((d.bench pl).matQ ≠ [])
  | .vector => decide ((d.bench pl).vecQ ≠ [])

/-- R95, R96: RAMP_UP from the present level when a command reaches the head. In RAMP_DOWN before its first step that level is 8
already, and FILL is entered at once (DESIGN CHOICE, log 131). -/
def Dev.wake (d : Dev) (pl : Nat) (unit : ActUnit) : Dev :=
  let a := d.act pl unit
  if d.headed pl unit ∧ (a.state = .resting ∨ a.state = .rampDown)
  then d.setAct pl unit { a with state := if a.level = 8 then .fill else .rampUp } else d

/-- Real work runs only at the full level (R95). -/
def Dev.awake (d : Dev) (pl : Nat) (unit : ActUnit) : Bool :=
  let a := d.act pl unit
  decide (a.level = 8) && (decide (a.state = .fill) || decide (a.state = .run))

/-! Conveyors. The receiver of a tile is named by partition and logical bench. -/

def logicalKey (p l : Nat) : Nat := 96 * p + l

/-- Credits its predecessor holds for a face of a logical bench (R104). -/
def Dev.convCredits (d : Dev) (p l f : Nat) : Nat := SMap.get 2 d.benches.credits (4 * logicalKey p l + f)

def Dev.setConvCredits (d : Dev) (p l f v : Nat) : Dev :=
  { d with benches := { d.benches with credits := SMap.set 2 d.benches.credits (4 * logicalKey p l + f) v } }

/-- Tiles sent and received on a conveyor chain by a bench (R103). -/
def Dev.tilesSent (d : Dev) (pl ch : Nat) : Nat := SMap.get 0 d.benches.tilesSent (256 * pl + ch)
def Dev.tilesRecv (d : Dev) (pl ch : Nat) : Nat := SMap.get 0 d.benches.tilesRecv (256 * pl + ch)

def Dev.setTilesSent (d : Dev) (pl ch v : Nat) : Dev :=
  { d with benches := { d.benches with tilesSent := SMap.set 0 d.benches.tilesSent (256 * pl + ch) v } }

def Dev.setTilesRecv (d : Dev) (pl ch v : Nat) : Dev :=
  { d with benches := { d.benches with tilesRecv := SMap.set 0 d.benches.tilesRecv (256 * pl + ch) v } }

/-- *Conveyor segment header* (R105). -/
structure ConvHeader where
  chain : Nat
  seq : Nat
  epoch : Nat
  src : Nat
  face : Nat
  segment : Nat
  last : Bool
  poison : Bool
  sat : Bool
  ovf : Bool
  nonfinite : Bool
  p : Nat
  deriving DecidableEq, Repr

def convHeaderOf (w : Nat) : ConvHeader :=
  { chain := fld w 63 56, seq := fld w 55 40, epoch := fld w 39 24, src := fld w 23 17, face := fld w 16 15,
    segment := fld w 14 9, last := bit w 8, poison := bit w 7, sat := bit w 6, ovf := bit w 5, nonfinite := bit w 4,
    p := fld w 3 2 }

def convHeaderBits (h : ConvHeader) : Nat :=
  pack [(8, h.chain), (16, h.seq), (16, h.epoch), (7, h.src), (2, h.face), (6, h.segment), (1, b2n h.last),
        (1, b2n h.poison), (1, b2n h.sat), (1, b2n h.ovf), (1, b2n h.nonfinite), (2, h.p), (2, 0)]

/-- Slots of a bench in HELD, in the order their tiles started. -/
def Dev.heldSlots (d : Dev) (pl : Nat) : List (Nat × Slot) :=
  ordered (fun x y => decide (x.2.ord ≤ y.2.ord))
    (((List.range 8).map (fun i => (i, d.slot pl i))).filter (fun x => decide (x.2.state = .held) && x.2.cmd.isSome))

def Slot.body (s : Slot) : MatmulBody := matmulOf ((s.cmd.map Cmd.word).getD 0)

/-- The TILE_SEQ that the command in HELD slot `i` expects: tiles received, and one for each earlier HELD command of its
chain. -/
def Dev.expectedSeq (d : Dev) (pl : Nat) (i : Nat) : Nat :=
  let me := d.slot pl i
  (d.tilesRecv pl me.body.chainId +
    ((d.heldSlots pl).filter (fun x => decide (x.2.ord < me.ord) && decide (x.2.body.chainId = me.body.chainId))).length) % 2 ^ 16

/-- The command that the tile at place `n` of a face's inbox meets: the n-th HELD command with that face. -/
def Dev.receiver (d : Dev) (pl f n : Nat) : Option (Nat × Slot) :=
  ((d.heldSlots pl).filter (fun x => bit x.2.body.faceMask f))[n]?

/-- A HELD command of the segment's chain and number whose mask lacks the face. -/
def Dev.faceless (d : Dev) (pl : Nat) (h : ConvHeader) : Option (Nat × Slot) :=
  (d.heldSlots pl).find? (fun x => decide (x.2.body.chainId = h.chain) && decide (d.expectedSeq pl x.1 = h.seq) &&
    !bit x.2.body.faceMask h.face)

/-- Slots a command takes: two in pair mode (R87). -/
def MatmulBody.slots (b : MatmulBody) : List Nat := if b.pairMode then [b.accSlot, b.accSlot + 1] else [b.accSlot]

/-- The slots of a command become FREE. -/
def Dev.freeSlots (d : Dev) (pl : Nat) (c : Cmd) : Dev :=
  (matmulOf c.word).slots.foldl (fun d i => d.setSlot pl i Slot.empty) d

/-- CONVEYOR_ORDER (R103): the record, the chain FAULTED, and the command stopped, its slot FREE. -/
def Dev.conveyorOrder (d : Dev) (pl i : Nat) (h : ConvHeader) : Dev :=
  match (d.slot pl i).cmd with
  | none => d
  | some c =>
    let e := d.expectedSeq pl i
    let d := (d.record (d.whereCmd c) 0x107 2
      [(8, h.chain), (16, e), (16, h.seq), (7, h.src), (2, h.face), (6, h.segment), (1, b2n h.last)]).faultChain c.k
    d.freeSlots pl c

/-- A segment does not fit the command that receives it. -/
def Dev.convMismatch (d : Dev) (pl i : Nat) (s : Slot) (h : ConvHeader) : Bool :=
  decide (h.chain ≠ s.body.chainId) || decide (h.seq ≠ d.expectedSeq pl i) || (h.last != decide (h.segment = 63))

/-- Tiles of a face in the inbox, oldest first. -/
def Dev.inboxOf (d : Dev) (pl f : Nat) : List InTile := (d.bench pl).inbox.filter (fun t => decide (t.face = f))

/-- A segment joins its tile in the inbox, or begins one (R102). -/
def joinTile (l : List InTile) (h : ConvHeader) (vals : List Nat) : List InTile :=
  let fl := pack [(1, b2n h.sat), (1, b2n h.ovf), (1, b2n h.nonfinite)]
  if l.any (fun t => decide (t.face = h.face) && decide (t.rows < 64)) then
    l.map (fun t => if t.face = h.face ∧ t.rows < 64
      then { t with rows := t.rows + 1, vals := t.vals ++ vals, flags := t.flags ||| fl, poison := t.poison || h.poison } else t)
  else l ++ [{ face := h.face, chain := h.chain, seq := h.seq, src := h.src, rows := 1, vals := vals, flags := fl,
               poison := h.poison }]

/-- A tile of the inbox as a receiver checks it. -/
def InTile.header (t : InTile) : ConvHeader :=
  { chain := t.chain, seq := t.seq, epoch := 0, src := t.src, face := t.face, segment := t.rows - 1, last := decide (t.rows = 64),
    poison := false, sat := false, ovf := false, nonfinite := false, p := 0 }

/-- Tiles that waited in the inbox are held against the commands that now receive them (R103). -/
def Dev.checkInbox (d : Dev) (pl : Nat) : Dev :=
  (List.range 4).foldl (fun d f =>
    (d.inboxOf pl f).zipIdx.foldl (fun d t =>
      let h := t.1.header
      match d.faceless pl h with
      | some x => d.conveyorOrder pl x.1 h
      | none =>
        match d.receiver pl f t.2 with
        | some x => if d.convMismatch pl x.1 x.2 h then d.conveyorOrder pl x.1 h else d
        | none => d) d) d

/-- The tile at the head of a face's inbox leaves; its credit sets out for the sender (R104). -/
def Dev.takeTile (d : Dev) (p l pl f : Nat) : Dev :=
  match d.inboxOf pl f with
  | [] => d
  | t :: _ =>
    let b := d.bench pl
    let d := d.setBench pl { b with inbox := b.inbox.erase t }
    { d with benches := { d.benches with creditFlight := d.benches.creditFlight ++ [(logicalKey p l, f)] } }

/-! The start of matrix and vector commands. -/

/-- The head of a bench's matrix queue can start: its wait is over, its slots are FREE and the faces are awake (R88 to R95). -/
def Dev.matrixReady (d : Dev) (pl : Nat) : Option Cmd :=
  match (d.bench pl).matQ with
  | [] => none
  | c :: _ =>
    if c.free ∧ d.awake pl .faces ∧ (matmulOf c.word).slots.all (fun i => decide ((d.slot pl i).state = .free)) then some c else none

/-- Every pass of a command that starts (R86): the tile stands in its slot, the queue place is free (R558), and poison that the
feeders met is consumed (R100). -/
def Dev.startMatrix (d : Dev) (pl : Nat) (c : Cmd) : Dev :=
  let b := matmulOf c.word
  let d := if b.convOpen = 1 then (d.setTilesSent pl b.chainId 0).setTilesRecv pl b.chainId 0 else d
  let x := d.tileOf pl c
  let pass := d.passOperands pl b
  let d := (d.setLanes pl b (d.tileElems pl c)).setSlot pl b.accSlot x
  let d := if b.pairMode then d.setSlot pl (b.accSlot + 1) { Slot.empty with state := x.state } else d
  let q := d.bench pl
  let d := d.setBench pl { q with matQ := q.matQ.drop 1, ranPass := true, replay := pass, faces := { state := .fill, level := 8 } }
  let d := if x.poison then d.consumePoison (d.whereCmd c) x.srcAddr 1 (d.logicalOf c.k c.u) 5 else d
  if x.state = .held then d.checkInbox pl else d

/-- Matrix commands start one after another as long as the head can (R86). -/
def Dev.kickMatrix : (fuel : Nat) → Dev → Nat → Dev
  | 0, d, _ => d
  | n + 1, d, pl =>
    let d := d.wake pl .faces
    match d.matrixReady pl with
    | some c => Dev.kickMatrix n (d.startMatrix pl c) pl
    | none => d

/-! Vector commands. -/

/-- One repetition of a program from instruction `j` on (R152): the module after it, or the instruction that was malformed. -/
def Dev.vecRun (c : Cmd) (pl : Nat) (b : VectorBody) (add : Nat) : (fuel : Nat) → Nat → Dev → Dev × Option (Nat × Nat)
  | 0, _, d => (d, none)
  | n + 1, j, d =>
    let w := d.storeNum pl (b.progAddr + 16 * j) 16
    let x := vinstrOf w
    match lowestOf (vinstrOffences (reservedBits w vinstrReserved) x) with
    | some bit => (d, some (bit, j))
    | none =>
      Dev.vecRun c pl b add n (j + 1)
        (d.vexec (some (d.whereCmd c)) pl (d.logicalOf c.k c.u) x ((x.vaddr + add) % storeBytes))

/-- Every repetition. -/
def Dev.vecReps (c : Cmd) (pl : Nat) (b : VectorBody) : (fuel : Nat) → Nat → Dev → Dev × Option (Nat × Nat)
  | 0, _, d => (d, none)
  | n + 1, i, d =>
    match Dev.vecRun c pl b (i * b.addrStep) b.progLen 0 d with
    | (d, none) => Dev.vecReps c pl b n (i + 1) d
    | r => r

def Dev.vectorReady (d : Dev) (pl : Nat) : Option Cmd :=
  match (d.bench pl).vecQ with
  | [] => none
  | c :: _ => if c.free ∧ d.awake pl .vector then some c else none

/-- A VECTOR command from its first instruction to its last; a malformed instruction stops it there (R159). -/
def Dev.startVector (d : Dev) (pl : Nat) (c : Cmd) : Dev :=
  let b := vectorOf c.word
  let q := d.bench pl
  let d := d.setBench pl { q with vecQ := q.vecQ.drop 1, vec := { state := .fill, level := 8 } }
  let d := d.consumeLoad (some (d.whereCmd c)) pl (d.logicalOf c.k c.u) [(b.progAddr, 16 * b.progLen)]
  match Dev.vecReps c pl b (b.repeatM1 + 1) 0 d with
  | (d, some bad) => d.malformed c bad.1 bad.2
  | (d, none) => d.finish c none

def Dev.kickVector : (fuel : Nat) → Dev → Nat → Dev
  | 0, d, _ => d
  | n + 1, d, pl =>
    let d := d.wake pl .vector
    match d.vectorReady pl with
    | some c => Dev.kickVector n (d.startVector pl c) pl
    | none => d

/-- Both queues of a bench are looked at. -/
def Dev.kickBench (d : Dev) (pl : Nat) : Dev := Dev.kickVector 5 (Dev.kickMatrix 5 d pl) pl

end Sys2Proof.Machine
end

