-- ==== Sys2Proof/Machine/Store.lean ====
section
/-! DEFINITION. The CONFIG area (R481 to R485): two slots that hold every RW STORED entry, of which one is in force. Every
flash commit of the model succeeds (DESIGN CHOICE, log 50: no row of the table brings a failed one). -/

namespace Sys2Proof.Machine

/-- Entries of the CONFIG area: every RW STORED entry (*Persistence areas*). -/
def Card.inConfig (c : Card) : Bool := decide (c.acc = .rw) && decide (c.pers = .stored)

/-- The keys a card covers. -/
def Card.keys (c : Card) : List Nat :=
  (List.range c.np).flatMap (fun a => (List.range c.ne).flatMap (fun b =>
    (List.range (c.sub1 + 1 - c.sub0)).map (fun i => key (c.base + 256 * a + b) (c.sub0 + i))))

/-- The keys of the CONFIG area in ascending index and subindex. -/
def configKeys : List Nat := rising ((cards.filter Card.inConfig).flatMap Card.keys)

def inConfig (k : Nat) : Bool := match cardOf k with | some c => c.inConfig | none => false

def sizeOf' (k : Nat) : Nat := match cardOf k with | some c => c.ty.size | none => 1

/-- The body of a CONFIG slot (R482): INDEX, SUBINDEX, SIZE and value of every entry. -/
def configBody (vals : SMap Nat) : List Byte :=
  configKeys.flatMap (fun k =>
    List.flatten [toBytes (k / 256) 2, toBytes (k % 256) 1, toBytes (sizeOf' k) 2,
      toBytes (SMap.get (dfltOf k) vals k) (sizeOf' k)])

/-- Sequence number plus one of a slot; 0 of a slot that is not valid. -/
def Dev.slotSeq (d : Dev) (n : Nat) : Nat := SMap.get 0 d.mgmt.confSeq n

/-- What the entries of the area hold now. -/
def Dev.configNow (d : Dev) : SMap Nat := d.dict.filter (fun x => inConfig x.1)

/-- Every value is written to the slot not in force, one sequence number on, which then comes into force (R481, R485). -/
def Dev.commit (d : Dev) : Dev :=
  let n := 1 - d.mgmt.confSlot
  let seq := d.slotSeq d.mgmt.confSlot % 2 ^ 32
  let d := { d with mgmt := { d.mgmt with
    confSlot := n
    confSeq := SMap.set 0 d.mgmt.confSeq n (seq + 1)
    confBody := SMap.set [] d.mgmt.confBody n d.configNow } }
  ((d.put kConfigCommits ((d.get kConfigCommits + 1) % 2 ^ 32)).put kConfigSeq seq).put kConfigState 0

/-- An entry of the area has changed (R484): committed, or held. -/
def Dev.stored (d : Dev) : Dev := if d.get kConfigHold = 1 then d.put kConfigState 1 else d.commit

/-- A module reset commits held values before it begins (R484). -/
def Dev.commitHeld (d : Dev) : Dev := if d.get kConfigState = 1 then d.commit else d

/-- A write of CONFIG_HOLD (R484). -/
def Dev.writeHold (d : Dev) (v : Nat) : Dev :=
  let d := d.put kConfigHold v
  if v = 0 then d.commitHeld else d

/-- A write of CONFIG_DEFAULTS (R487): every entry of the area takes its default. -/
def Dev.configDefaults (d : Dev) : Dev :=
  ({ d with dict := d.dict.filter (fun x => !inConfig x.1) }).stored

/-- Of two slots, the one in force (R483): valid, and newer than the other. -/
def Dev.chooseSlot (d : Dev) : Option Nat :=
  let a := d.slotSeq 0
  let b := d.slotSeq 1
  if a = 0 ∧ b = 0 then none
  else if b = 0 then some 0
  else if a = 0 then some 1
  else
    let ahead := (a + 2 ^ 32 - b) % 2 ^ 32
    if 1 ≤ ahead ∧ ahead < 2 ^ 31 then some 0 else some 1

/-- The CONFIG area is read at power-up (R483). Its entries have taken their defaults before. -/
def Dev.readConfig (d : Dev) : Dev :=
  match d.chooseSlot with
  | none => d.put kConfigState 3
  | some n =>
    let d := (SMap.get [] d.mgmt.confBody n).foldl (fun d x => d.put x.1 x.2) d
    ({ d with mgmt := { d.mgmt with confSlot := n } }).put kConfigSeq (d.slotSeq n - 1)

end Sys2Proof.Machine
end

