-- ==== Sys2Proof/Machine/Fence.lean ====
section
/-! DEFINITION. Fencing and spares (R116, R117, R430, R433), and proof verdicts (R427 to R432). -/

namespace Sys2Proof.Machine

/-- Usable benches: neither fenced nor spare (R119). -/
def Dev.usableCount (d : Dev) : Nat := 96 - popcount (d.get kBenchFenceMask ||| d.get kBenchSpareMask) 96

def Dev.updateUsable (d : Dev) : Dev := d.put kBenchUsableCount d.usableCount

/-- The spare that R117 releases for a bench: the lowest-numbered one of its compute die, or of the module. -/
def Dev.spareFor (d : Dev) (b : Nat) : Option Nat :=
  let spares := (List.range 96).filter (fun i => bit (d.get kBenchSpareMask) i && !bit (d.get kBenchFenceMask) i)
  match spares.find? (fun i => decide (i / 24 = b / 24)) with
  | some i => some i
  | none => spares.head?

/-- The bench is fenced and a spare released (R116, R117); without one its partition falls short (R433). A bench fenced already
that fails again before its replacement takes effect releases a further spare (DESIGN CHOICE, log 130). -/
def Dev.fence (d : Dev) (b : Nat) : Dev :=
  let d := d.put kBenchFenceMask (setBitTo (d.get kBenchFenceMask) b true)
  let spare := d.spareFor b
  let d := match spare with
    | some i => (d.put kBenchSpareMask (setBitTo (d.get kBenchSpareMask) i false)).stored
    | none => d
  let d := d.updateUsable
  let d := d.record { noWhere with bench := b } 0x602 0 [(7, spare.getD 0x7F), (7, d.usableCount)]
  match (List.range 4).findSome? (fun p => ((d.part p).hosts.findIdx? (fun x => decide (x = b))).map (fun h => (p, h))) with
  | none => d
  | some (p, h) =>
    match spare with
    | some i =>
      let d := d.setPart p { d.part p with remap := (d.part p).remap ++ [(h, i)] }
      if d.pState p = psAdmitted then d else d.applyRemap p
    | none =>
      let d := d.record (atPart p) 0x603 4 [(7, d.get (kPartLogicalBenches p)), (7, d.usableCount)]
      let cause := d.lastSeq
      d.faultTeardown p 0x603 cause

/-! Proof blocks. -/

def Dev.lastProof (d : Dev) (b : Nat) : Nat := SMap.get 0xFFFFFFFF d.faults.lastProof b

def Dev.setLastProof (d : Dev) (b step : Nat) : Dev :=
  { d with faults := { d.faults with lastProof := SMap.set 0xFFFFFFFF d.faults.lastProof b step } }

/-- A proof block is due for a PROOF segment (R427). -/
def Dev.proofDue (d : Dev) (p step : Nat) : Bool :=
  decide (d.pState p ≠ psAdmitted) || decide (step % d.get (kProofInterval p) = 0)

/-- The proof image is written (R428): its bytes are the firmware's (log 15). -/
def Dev.writeProofImage (d : Dev) (p : Nat) : Dev :=
  let base := d.get (kProofImageBase p)
  if base = 0 then d
  else
    let level := d.get (kNumericsLevel p)
    d.writeMem base ((List.range 2097152).map (fun i => Config.proofImage level i)) false

/-- The sub-blocks that can fail: the conveyor's only in lifts of 2 or more benches (*Proof sub-blocks*). -/
def Dev.subBlock (d : Dev) (k : ChainId) (sub : Nat) : Bool :=
  decide (1 ≤ sub) && (decide (sub ≤ 0x0A) || (decide (sub = 0x0B) && decide (2 ≤ d.unitsOf k)))

/-- The first poisoned line of the proof image, which ends the block (R431). -/
def Dev.proofPoison (d : Dev) (p : Nat) : Option Nat := d.poisonIn (d.get (kProofImageBase p)) 2097152

/-- What every block that ran leaves: its mebibyte of bench store holds free values, chain 255 counts 0 (R428). -/
def Dev.proofUsed (d : Dev) (pl : Nat) : Dev :=
  let n := d.draws
  let d := { d with draws := n + 1 }
  let d := d.writeStore pl 0x700000 ((List.range 1048576).map (fun i => Config.freeByte n i)) false
  (d.setTilesSent pl 255 0).setTilesRecv pl 255 0

/-- A bench passes (R430). -/
def Dev.proofPass (d : Dev) (p b step : Nat) : Dev :=
  (d.setLastProof b step).put (kProofPassed p) (setBitTo (d.get (kProofPassed p)) b true)

/-- A *Face repair byte* of the fuses. -/
def Fuses.faceByte (f : Fuses) (b face : Nat) : Nat := fld (SMap.get 0 f.faceRepair b) (8 * face + 7) (8 * face)

/-- Whether a face that failed has a defect its remaining spares cannot repair (R116) is not given; free where a kind of
spare is used up, never while both kinds remain (log 51). -/
def Dev.markFace (d : Dev) (f : Fuses) (b face : Nat) : Dev :=
  let x := f.faceByte b face
  if fld x 7 6 < 2 ∧ fld x 5 4 < 2 then d
  else
    let r := d.draw
    if r.1.getLsbD 0 then
      { r.2 with benches := { r.2.benches with unrepaired := NSet.add r.2.benches.unrepaired (4 * b + face) } }
    else r.2

/-- Where the record of a proof block is: the PROOF segment the bench stands in, at its SEGMENT word (R415, R427). -/
def Dev.proofWhere (d : Dev) (k : ChainId) (u b : Nat) : Where :=
  let c := d.cursor k u
  { atCmd k c.kind c.step c.segId c.seg0 with ctx := 2, c := 0, bench := b }

/-- A bench fails (R430): the record, CHECK_FAIL and the fence. -/
def Dev.proofFail (d : Dev) (k : ChainId) (u b sub face element expected found : Nat) : Dev :=
  let d := (d.bump kProofFails 1).record (d.proofWhere k u b) 0x601 3
    [(8, sub), (2, face), (16, element), (64, expected), (64, found), (32, d.lastProof b)]
  (d.setFlag k.p pfCheckFail true).fence b

end Sys2Proof.Machine
end

