-- ==== Sys2Proof/Machine/Sequencer.lean ====
section
/-! DEFINITION. The rows a sequencer executes: SEGMENT and LINK (R132 to R138, R427), NOP, WAIT, SIGNAL and SELECT (R140, R148,
R149), and the issue of MATMUL and VECTOR to a bench's queues (R140, R150, R152). `u` is the bench's lift-relative index,
0 off a lift. -/

namespace Sys2Proof.Machine

/-- The next word of the row's opcode is taken; otherwise what the reading did stands, and reports follow (R141). -/
def Dev.onWord (d : Dev) (k : ChainId) (u op : Nat) (f : Dev → Cmd → Dev) : Dev :=
  match d.fetch k u op with
  | .done d => d.settle k u
  | .word c => f d c

/-! SEGMENT. -/

/-- A due proof block holds the bench until it ends (R427); without an image it counts as a fail, of which the spec gives no
sub-block, element or words (free, log 16). -/
def Dev.beginProof (d : Dev) (k : ChainId) (u : Nat) (b : SegmentBody) : Dev :=
  if isLift k = false ∨ b.segKind ≠ 4 ∨ d.proofDue k.p b.step = false then d
  else if d.get (kProofImageBase k.p) = 0 then
    let r := d.draw
    let v := r.1.toNat
    r.2.proofFail k u (d.hostBench k.p (d.logicalOf k u)) (fld v 7 0) (fld v 9 8) (fld v 25 10) (fld v 95 32) (fld v 159 96)
  else
    let pl := d.unitPlace k u
    let d := d.setBench pl { d.bench pl with proof := some (k, b.step) }
    d.setCursor k u { d.cursor k u with proof := true }

def Dev.readSegment (d : Dev) (c : Cmd) : Dev :=
  let b := segmentOf c.word
  let d := d.armSeg c.k c.seq b
  let x := (pushOutst (d.cursor c.k c.u) c.seq c.word c.addr true).advance
  let d := d.setCursor c.k c.u { x with kind := b.segKind, step := b.step, segId := b.segId, seg0 := c.seq, atStart := false }
  (d.beginProof c.k c.u b).settle c.k c.u

def execSegment (k : ChainId) (u : Fin 96) (s : State) : Host.Outcome State Fault Refusal :=
  onDie (fun d => d.onWord k u opSegment Dev.readSegment) s

/-! LINK. -/

/-- What a chain at a LINK word does by NEXT_VALID and HALT (R135, R138); a HALT request waits there for its segment. -/
def Dev.followLink (d : Dev) (k : ChainId) (u : Nat) : Dev :=
  let c := d.cursor k u
  let b := linkOf (d.readNum c.pos 64)
  if c.haltReq then d.haltCheck k u
  else if b.nextValid = 0 then d.setCursor k u { c with state := .polling, polledAt := d.time }
  else
    let d := d.setCursor k u { c with
      state := if b.halt = 1 then .halted else .running
      pos := b.nextAddr * 64, expSeq := (c.expSeq + 1) % 2 ^ 32, atLink := false, atStart := true
      outst := setOutst c.outst c.expSeq (fun o => { o with fin := true }) }
    (d.settle k u).drainCheck k.p

def Dev.readLink (d : Dev) (c : Cmd) : Dev :=
  let x := pushOutst (d.cursor c.k c.u) c.seq c.word c.addr false
  let d := d.setCursor c.k c.u { x with atLink := true }
  let d := d.setGauge c.k (mapSeg (d.gauge c.k) x.seg0 (fun s => { s with endSeq := some c.seq }))
  (d.settle c.k c.u).followLink c.k c.u

def execLink (k : ChainId) (u : Fin 96) (s : State) : Host.Outcome State Fault Refusal :=
  onDie (fun d => d.onWord k u opLink Dev.readLink) s

/-- A POLLING chain re-reads its link word (R135); the line may be held, lost or poisoned (R160, R556). Its reserved bits are
checked with the header, at the first read alone, those published last with NEXT_VALID among them (DESIGN CHOICE, log 135). -/
def Dev.rereadLink (d : Dev) (k : ChainId) (u : Nat) : Dev :=
  let c := d.cursor k u
  let cmd := cmdAt k u c (d.readNum c.pos 64)
  if c.state ≠ .polling ∨ d.unitLive k u = false ∨ d.tearing k.p ∨ d.heldIn c.pos 64 then d
  else if (d.lostIn c.pos 64).isSome then d.engineBusError cmd c.pos 0 0 0 stLocal
  else if d.linePoisoned c.pos then (d.faultChain k).consumePoison (d.whereCmd cmd) c.pos 0 0 7
  else d.followLink k u

/-- LINK_POLL acts once POLL_INTERVAL has passed since the word was last read. -/
def Dev.pollLink (d : Dev) (k : ChainId) (u : Nat) : Dev :=
  if d.time < (d.cursor k u).polledAt + (d.takenOf k).1 then d else d.rereadLink k u

def execLinkPoll (k : ChainId) (u : Fin 96) (s : State) : Host.Outcome State Fault Refusal :=
  onDie (fun d => d.pollLink k u) s

/-! Control commands. -/

/-- A chain stops at a control command that is not executed. -/
def Dev.dropCtl (d : Dev) (k : ChainId) (u : Nat) : Dev := d.setCursor k u { d.cursor k u with ctl := none }

/-- R146: a SELECT with RERUN that executes its guarded words extends the deadline, once per selection, RERUN_CAP times. -/
def Dev.rerun (d : Dev) (c : Cmd) : Dev :=
  let seg0 := (d.cursor c.k c.u).seg0
  match (d.gauge c.k).find? (fun s => decide (s.seq0 = seg0)) with
  | none => d
  | some s =>
    if s.selected.contains c.seq then d
    else if s.reruns < s.rerunCap then
      d.setGauge c.k (mapSeg (d.gauge c.k) seg0 (fun s =>
        { s with selected := c.seq :: s.selected, reruns := s.reruns + 1, deadline := s.deadline + s.rerunAllow,
                 extended := s.extended + s.rerunAllow }))
    else
      (d.setGauge c.k (mapSeg (d.gauge c.k) seg0 (fun s => { s with selected := c.seq :: s.selected }))).bump
        kRerunAllowExhausted 1

/-- The decision word of a SELECT is read (R149, R160, R556). -/
def Dev.runSelect (d : Dev) (c : Cmd) : Dev :=
  let b := selectOf c.word
  let decide_ := fun (d : Dev) (v : Nat) =>
    let d := if v ≠ 0 ∧ b.rerun = 1 then d.rerun c else d
    let d := if v = 0 then d.setCursor c.k c.u { d.cursor c.k c.u with skip := b.count } else d
    (d.ctlDone c).settle c.k c.u
  if b.dev = 1 then
    if d.inAlloc c.k.p b.decisionAddr 4 = false then (d.accessViolation c b.decisionAddr 0 0 0).dropCtl c.k c.u
    else if (d.lostIn b.decisionAddr 4).isSome then (d.engineBusError c b.decisionAddr 0 0 0 stLocal).dropCtl c.k c.u
    else if d.linePoisoned b.decisionAddr then
      ((d.faultChain c.k).consumePoison (d.whereCmd c) (b.decisionAddr / 64 * 64) 0 0 7).dropCtl c.k c.u
    else decide_ d (d.readNum b.decisionAddr 4)
  else
    let pl := d.unitPlace c.k c.u
    if d.storePoisoned pl b.decisionAddr then
      ((d.faultChain c.k).consumePoison (d.whereCmd c) (b.decisionAddr / 64 * 64) 1 (d.logicalOf c.k c.u) 7).dropCtl c.k c.u
    else decide_ d (d.storeNum pl b.decisionAddr 4)

/-- A control command past its header wait (R127, R148, R149). A WAIT goes on to wait for its own tally. -/
def Dev.runCtl (d : Dev) (c : Cmd) : Dev :=
  let op := (headerOf c.word).opcode
  if op = opWait then d.setCursor c.k c.u { d.cursor c.k c.u with ctl := some { c with released := true } }
  else if op = opSignal then (d.mapOutst c (fun o => { o with ready := true })).settle c.k c.u
  else if op = opSelect then d.runSelect c
  else d.ctlRan c

/-- A control command is executed when it is issued; its chain issues nothing further until it completes (R140). -/
def Dev.issueCtl (d : Dev) (c : Cmd) : Dev :=
  if d.orderOk c = false ∨ d.ctlHeld c = true then d
  else
    let x := (pushOutst (d.cursor c.k c.u) c.seq c.word c.addr false).advance
    let d := d.setCursor c.k c.u { x with ctl := some c }
    if (headerOf c.word).waitKind = 0 then d.runCtl c else d

def execNop (k : ChainId) (u : Fin 96) (s : State) : Host.Outcome State Fault Refusal :=
  onDie (fun d => d.onWord k u opNop Dev.issueCtl) s

def execWait (k : ChainId) (u : Fin 96) (s : State) : Host.Outcome State Fault Refusal :=
  onDie (fun d => d.onWord k u opWait Dev.issueCtl) s

def execSignal (k : ChainId) (u : Fin 96) (s : State) : Host.Outcome State Fault Refusal :=
  onDie (fun d => d.onWord k u opSignal Dev.issueCtl) s

def execSelect (k : ChainId) (u : Fin 96) (s : State) : Host.Outcome State Fault Refusal :=
  onDie (fun d => d.onWord k u opSelect Dev.issueCtl) s

/-! Issue to the units. -/

/-- The word is given to a unit: it stands among the commands issued, and the chain goes on. -/
def Dev.push (d : Dev) (c : Cmd) : Dev :=
  d.setCursor c.k c.u (pushOutst (d.cursor c.k c.u) c.seq c.word c.addr false).advance

def Dev.issueMatmul (d : Dev) (c : Cmd) : Dev :=
  let pl := d.unitPlace c.k c.u
  let b := d.bench pl
  if d.orderOk c ∧ b.matQ.length < unitQueue then
    ((d.push c).setBench pl { b with matQ := b.matQ ++ [c] }).kickBench pl
  else d

def Dev.issueVector (d : Dev) (c : Cmd) : Dev :=
  let pl := d.unitPlace c.k c.u
  let b := d.bench pl
  if d.orderOk c ∧ b.vecQ.length < unitQueue then
    ((d.push c).setBench pl { b with vecQ := b.vecQ ++ [c] }).kickBench pl
  else d

def execMatmul (k : ChainId) (u : Fin 96) (s : State) : Host.Outcome State Fault Refusal :=
  onDie (fun d => d.onWord k u opMatmul Dev.issueMatmul) s

def execVector (k : ChainId) (u : Fin 96) (s : State) : Host.Outcome State Fault Refusal :=
  onDie (fun d => d.onWord k u opVector Dev.issueVector) s

end Sys2Proof.Machine
end

