-- ==== Sys2Proof/Machine/Bench.lean ====
section
/-! DEFINITION. The bench's own rows: tiles that drain (R57, R69, R81, R97 to R100, R348, R355), conveyor segments and credits
(R102 to R106), ramps (R93 to R96) and proof blocks (R427 to R431). -/

namespace Sys2Proof.Machine

/-! Tiles. -/

/-- Every masked face has its whole incoming tile in the inbox (R102). -/
def Dev.sumArrived (d : Dev) (pl : Nat) (b : MatmulBody) : Bool :=
  b.faces.all (fun f => match d.inboxOf pl f with
    | t :: _ => decide (t.rows = 64)
    | [] => false)

/-- The conveyor addition of one value (R57): RNE to FP32 of S + BUF, and whether it overflowed. -/
def convAdd (s buf : Nat) : Nat × Bool := sumFp32 (ofFp32 s) (ofFp32 buf)

/-- The running sum joins a face of the tile; its flags are ORed in. -/
def addFace (x : Slot) (f : Nat) (t : InTile) : Slot :=
  let es := (List.range 4096).map (fun i => (4096 * f + i, convAdd (t.vals.getD i 0) (SMap.get 0 x.vals (4096 * f + i))))
  { x with
    vals := es.foldl (fun m e => SMap.set 0 m e.1 e.2.1) x.vals
    sat := x.sat || bit t.flags 2
    promoOvf := x.promoOvf || bit t.flags 1 || es.any (fun e => e.2.2)
    nonfiniteIn := x.nonfiniteIn || bit t.flags 0 || t.vals.any (fun v => !(ofFp32 v).isFinite)
    poison := x.poison || t.poison }

/-- A HELD tile takes its incoming sum: values, counts, credits, and poison that came with it (R57, R100, R103, R104). The slots
of a pair go to DRAIN together (R88). -/
def Dev.takeSum (d : Dev) (pl i : Nat) (c : Cmd) : Dev :=
  let b := matmulOf c.word
  let p : Nat := c.k.p
  let l := d.logicalOf c.k c.u
  let tiles := b.faces.filterMap (fun f => (d.inboxOf pl f).head?.map (fun t => (f, t)))
  let x := tiles.foldl (fun x ft => addFace x ft.1 ft.2) (d.slot pl i)
  let d := b.slots.foldl (fun d j => d.setSlot pl j { d.slot pl j with state := .drain }) (d.setSlot pl i x)
  let d := d.setTilesRecv pl b.chainId ((d.tilesRecv pl b.chainId + 1) % 2 ^ 16)
  let d := b.faces.foldl (fun d f => d.takeTile p l pl f) d
  if tiles.any (fun ft => ft.2.poison) then d.consumePoison (d.whereCmd c) 0 1 l 5 else d

/-- The 64 segments of one face tile (R102, R105). -/
def Dev.segmentsOf (d : Dev) (pl : Nat) (x : Slot) (c : Cmd) (f : Nat) : List ConvSeg :=
  let b := matmulOf c.word
  (List.range 64).map (fun m =>
    { dst := logicalKey c.k.p b.convSucc
      hdr := convHeaderBits { chain := b.chainId, seq := d.tilesSent pl b.chainId, epoch := d.get (kPartEpoch c.k.p) % 2 ^ 16,
                              src := d.logicalOf c.k c.u, face := f, segment := m, last := decide (m = 63),
                              poison := x.poison, sat := x.sat, ovf := x.promoOvf, nonfinite := x.nonfiniteIn, p := c.k.p }
      vals := (List.range 64).map (fun n => SMap.get 0 x.vals (cellKey f m n)) })

/-- A sender holds a credit for every face of its tile; without one for some face it sends none (R104; DESIGN CHOICE, log 132). -/
def Dev.canSend (d : Dev) (c : Cmd) : Bool :=
  let b := matmulOf c.word
  b.faces.all (fun f => decide (0 < d.convCredits c.k.p b.convSucc f))

def Dev.sendTile (d : Dev) (pl : Nat) (x : Slot) (c : Cmd) : Dev :=
  let b := matmulOf c.word
  let segs := b.faces.flatMap (fun f => d.segmentsOf pl x c f)
  let d := b.faces.foldl (fun d f => d.setConvCredits c.k.p b.convSucc f (d.convCredits c.k.p b.convSucc f - 1)) d
  let d := d.setTilesSent pl b.chainId ((d.tilesSent pl b.chainId + 1) % 2 ^ 16)
  { d with benches := { d.benches with convFlight := d.benches.convFlight ++ segs } }

/-- The counters of R81. -/
def Dev.countTile (d : Dev) (tsw clip uflow : Nat) : Dev :=
  let d := d.bump kSatTiles (b2n (bit tsw 4))
  let d := d.bump kPromoOvfTiles (b2n (bit tsw 3))
  let d := d.bump kNonfiniteInTiles (b2n (bit tsw 2))
  (d.bump kClippedElements clip).bump kUflowElements uflow

def Dev.setRange (d : Dev) (b : Nat) (at_ : Option Nat) (unrep : Nat) : Dev :=
  { d with faults := { d.faults with rangeAt := SMap.set none d.faults.rangeAt b at_
                                     rangeUnrep := SMap.set 0 d.faults.rangeUnrep b unrep } }

/-- The range check of R355; a bench writes at most one RANGE_CHECK record per second. -/
def Dev.rangeCheck (d : Dev) (c : Cmd) (b tsw tswAddr : Nat) : Dev :=
  let p : Nat := c.k.p
  if c.kind ≠ 1 ∧ c.kind ≠ 2 then d
  else
    let flags := tsw % 64
    let d :=
      if flags &&& d.get (kRangeFailMask p) = 0 then d
      else
        let d := d.setFlag p pfCheckFail true
        let unrep := SMap.get 0 d.faults.rangeUnrep b
        let recent := match SMap.get none d.faults.rangeAt b with
          | some t => decide (d.time < t + 1000000000)
          | none => false
        if recent then d.setRange b (SMap.get none d.faults.rangeAt b) (unrep + 1)
        else (d.record (d.whereCmd c) 0x501 3 [(128, tsw), (20, tswAddr), (32, unrep)]).setRange b (some d.time) 0
    if flags &&& d.get (kRangeSuspectMask p) = 0 then d else d.suspect p

/-- *Grader entry* (R348). -/
structure GraderEntry where
  enable : Bool
  lift : Nat
  tswLo : Nat
  tswHi : Nat
  expect : Nat
  clipMax : Nat
  uflowMax : Nat
  release : Nat
  decision : Nat
  recordAt : Nat
  deriving DecidableEq, Repr

def graderOf (w : Nat) : GraderEntry :=
  { enable := bit w 255, lift := fld w 254 251, tswLo := fld w 246 227, tswHi := fld w 226 207, expect := fld w 206 191,
    clipMax := fld w 190 175, uflowMax := fld w 174 159, release := fld w 158 147, decision := fld w 146 103,
    recordAt := fld w 102 59 }

def Dev.graderEntry (d : Dev) (p g : Nat) : GraderEntry := graderOf (d.get (kGrader p g))

/-- The tile's reports set out for the graders that watch it (R348). -/
def Dev.reportTile (d : Dev) (c : Cmd) (b : MatmulBody) (tsw : Nat) : Dev :=
  let p : Nat := c.k.p
  let e : Nat := c.k.e
  let gs := (List.range 64).filter (fun g =>
    let x := d.graderEntry p g
    x.enable && decide (x.lift = e) && decide (x.tswLo ≤ b.tswAddr) && decide (b.tswAddr ≤ x.tswHi))
  let rs := gs.map (fun g =>
    { p := p, g := g, clip := fld tsw 95 80, uflow := fld tsw 79 64, amax := fld tsw 127 96, flags := tsw % 64,
      elements := b.cells.length : Report })
  { d with training := { d.training with reports := d.training.reports ++ rs } }

/-- Epilogue, conversion, element writes, status word, counters, range check and reports (R97 to R100). -/
def Dev.drainTile (d : Dev) (pl : Nat) (x : Slot) (c : Cmd) : Dev :=
  let b := matmulOf c.word
  let epi := d.epiPoison pl b
  let es := d.drainAll pl b x.vals
  let tsw := tswOf es x.sat x.promoOvf (x.nonfiniteIn || d.epiNonfinite pl b)
  let d := d.writeTile pl b es tsw (x.poison || epi.isSome)
  let d := d.countTile tsw (fld tsw 95 80) (fld tsw 79 64)
  let d := d.rangeCheck c (d.hostBench c.k.p (d.logicalOf c.k c.u)) tsw b.tswAddr
  let d := d.reportTile c b tsw
  match epi with
  | some a => d.consumePoison (d.whereCmd c) a 1 (d.logicalOf c.k c.u) 5
  | none => d

/-- The drain ends with the tile: its slots are FREE, its command reported in turn, the queue looked at. -/
def Dev.tileEnd (d : Dev) (pl : Nat) (c : Cmd) : Dev := ((d.freeSlots pl c).finish c none).kickBench pl

/-- A slot in DRAIN: the tile is sent on with credits, or drained (R88, R102, R104). -/
def Dev.drainSlot (d : Dev) (pl i : Nat) (c : Cmd) : Dev :=
  let b := matmulOf c.word
  let x := d.slot pl i
  if b.convPos = 1 ∨ b.convPos = 2 then
    if d.canSend c then (d.sendTile pl x c).tileEnd pl c else d
  else (d.drainTile pl x c).tileEnd pl c

/-- Tiles are processed in command order (R107): no tile in another slot of the bench has started before. -/
def Dev.isOldest (d : Dev) (pl i : Nat) : Bool :=
  (List.range 8).all (fun j => (d.slot pl j).cmd.isNone || decide ((d.slot pl i).ord ≤ (d.slot pl j).ord))

/-- A tile about to be taken that the HELD command in slot `i` does not expect (R103). -/
def Dev.strayTile (d : Dev) (pl i : Nat) (b : MatmulBody) : Option ConvHeader :=
  b.faces.findSome? (fun f => (d.inboxOf pl f).head?.bind (fun t =>
    if d.convMismatch pl i (d.slot pl i) t.header then some t.header else none))

def Dev.tileDrained (d : Dev) (pl i : Nat) : Dev :=
  let x := d.slot pl i
  match x.cmd with
  | none => d
  | some c =>
    if d.isOldest pl i = false then d
    else if x.state = .drain then d.drainSlot pl i c
    else if x.state = .held ∧ d.sumArrived pl (matmulOf c.word) then
      match d.strayTile pl i (matmulOf c.word) with
      | some h => (d.conveyorOrder pl i h).kickBench pl
      | none => (d.takeSum pl i c).drainSlot pl i c
    else d

def execTileDrained (b : Fin 96) (slot : Fin 8) (s : State) : Host.Outcome State Fault Refusal :=
  onDie (fun d => d.tileDrained b slot) s

/-! Conveyors. -/

/-- A logical bench, named by its key, is hosted on physical bench b, resident or not (R405). -/
def Dev.hosts (d : Dev) (b key : Nat) : Bool := decide (d.hostBench (key / 96) (key % 96) = b)

/-- A segment arrives (R102, R103, R106). -/
def Dev.segmentArrives (d : Dev) (x : ConvSeg) : Dev :=
  let p := x.dst / 96
  let pl := d.placeOf p (x.dst % 96)
  let h := convHeaderOf x.hdr
  if h.p ≠ p ∨ h.epoch ≠ d.get (kPartEpoch p) % 2 ^ 16 then d.bump kStaleConveyorSegments 1
  else
    match d.faceless pl h with
    | some y => (d.conveyorOrder pl y.1 h).kickBench pl
    | none =>
      let n := ((d.inboxOf pl h.face).filter (fun t => decide (t.rows = 64))).length
      match d.receiver pl h.face n with
      | some y =>
        if d.convMismatch pl y.1 y.2 h then (d.conveyorOrder pl y.1 h).kickBench pl
        else d.setBench pl { d.bench pl with inbox := joinTile (d.bench pl).inbox h x.vals }
      | none => d.setBench pl { d.bench pl with inbox := joinTile (d.bench pl).inbox h x.vals }

def Dev.conveyorSegment (d : Dev) (b : Nat) : Dev :=
  match d.benches.convFlight.find? (fun x => d.hosts b x.dst) with
  | none => d
  | some x =>
    Dev.segmentArrives { d with benches := { d.benches with convFlight := d.benches.convFlight.erase x } } x

def execConveyorSegment (b : Fin 96) (s : State) : Host.Outcome State Fault Refusal :=
  onDie (fun d => d.conveyorSegment b) s

/-- A credit that bench `b` returned for a face reaches the sender (R104). -/
def Dev.conveyorCredit (d : Dev) (b f : Nat) : Dev :=
  match d.benches.creditFlight.find? (fun x => d.hosts b x.1 && decide (x.2 = f)) with
  | none => d
  | some x =>
    let d := { d with benches := { d.benches with creditFlight := d.benches.creditFlight.erase x } }
    d.setConvCredits (x.1 / 96) (x.1 % 96) f (min 2 (d.convCredits (x.1 / 96) (x.1 % 96) f + 1))

def execConveyorCredit (b : Fin 96) (face : Fin 4) (s : State) : Host.Outcome State Fault Refusal :=
  onDie (fun d => d.conveyorCredit b face) s

/-! Ramps. -/

/-- R93: out of FILL when no command stands at the head of the queue. -/
def Dev.rampDown (d : Dev) (pl : Nat) (unit : ActUnit) : Dev :=
  let a := d.act pl unit
  if a.state = .fill ∧ d.headed pl unit = false
  then (d.setAct pl unit { a with state := .rampDown }).bump kRampDownEvents 1 else d

def execRampDown (b : Fin 96) (unit : ActUnit) (s : State) : Host.Outcome State Fault Refusal :=
  onDie (fun d => d.rampDown b unit) s

/-- R94: the level moves one step; a ramp down ends in RESTING, a ramp up in FILL. -/
def Act.ramp (a : Act) : Act :=
  match a.state with
  | .rampDown => if a.level ≤ 1 then { state := .resting, level := 0 } else { a with level := a.level - 1 }
  | .rampUp => if 7 ≤ a.level then { state := .fill, level := 8 } else { a with level := a.level + 1 }
  | _ => a

def Dev.rampStep (d : Dev) (pl : Nat) (unit : ActUnit) : Dev :=
  (d.setAct pl unit (d.act pl unit).ramp).kickBench pl

def execRampStep (b : Fin 96) (unit : ActUnit) (s : State) : Host.Outcome State Fault Refusal :=
  onDie (fun d => d.rampStep b unit) s

/-! Proof blocks. -/

/-- The block of a bench ends, and the bench goes on with its segment (R427, R430). A poisoned line of the image ends it INCONCLUSIVE
whatever the words would have been, and nothing else does (R431); a row that names a verdict the block cannot reach has no
effect (DESIGN CHOICE, log 16). -/
def Dev.proofEnds (d : Dev) (f : Fuses) (b : Nat) (r : ProofResult) : Dev :=
  match (d.bench b).proof, d.tenantAt b with
  | some (k, step), some (_, l) =>
    let p : Nat := k.p
    let u := l - d.liftFirst p k.e
    let ran := ((d.setBench b { d.bench b with proof := none }).proofUsed b
      |>.setCursor k u { d.cursor k u with proof := false }).bump kProofRuns 1
    match d.proofPoison p, r with
    | some a, _ => (ran.record (d.proofWhere k u b) 0x604 0 [(44, a)]).writeProofImage p
    | none, .pass => ran.proofPass p b step
    | none, .fail sub face element expected found =>
      if d.subBlock k sub.toNat then
        (ran.markFace f b face).proofFail k u b sub.toNat face element.toNat expected.toNat found.toNat
      else d
    | none, .inconclusive _ => d
  | _, _ => d

def execProofBlock (b : Fin 96) (r : ProofResult) (s : State) : Host.Outcome State Fault Refusal :=
  onDieFused (fun f d => d.proofEnds f b r) s

end Sys2Proof.Machine
end

