-- ==== Sys2Proof/Machine/Haul.lean ====
section
/-! DEFINITION. Haul commands: the HAUL row (R168), the end of a transfer (R175 to R182), the answers to a channel's requests and
its pauses (R183, R184). -/

namespace Sys2Proof.Machine

/-! The HAUL row. -/

/-- The first address of a side outside what the partition may reach (R168). -/
def Dev.sideViolation (d : Dev) (p : Nat) (s : Side) : Option Nat :=
  if s.space = 0 then
    if s.addr < d.allocBase p then some s.addr
    else if d.inAlloc p s.addr (s.last + 1 - s.addr) then none else some s.last
  else if s.space = 1 ∧ d.get (kPartLogicalBenches p) ≤ s.unit then some s.addr
  else none

def Dev.issueHaul (d : Dev) (cmd : Cmd) : Dev :=
  let h := cmd.k.e.val - 0x10
  let ch := (headerOf cmd.word).channel
  let x := haulOf cmd.word
  if d.orderOk cmd = false ∨ (d.chan h ch).queued ≠ none then d
  else
    match d.sideViolation cmd.k.p x.src, d.sideViolation cmd.k.p x.dst with
    | some a, _ => (d.accessViolation cmd a x.srcUnit x.srcSpace 0).settle cmd.k cmd.u
    | none, some a => (d.accessViolation cmd a x.dstUnit x.dstSpace 1).settle cmd.k cmd.u
    | none, none =>
      let d := d.push cmd
      (d.setChan h ch { d.chan h ch with queued := some cmd }).kickHaul h ch

def execHaul (k : ChainId) (u : Fin 96) (s : State) : Host.Outcome State Fault Refusal :=
  onDie (fun d => d.onWord k u opHaul Dev.issueHaul) s

/-! The end of a transfer. -/

/-- A transfer whose read-back has returned ends: OK, OK_POISONED or READBACK_POISONED is reported in its turn; a read-back
that drew an error response ends it READBACK_ERROR (R175, R176, R178, R181, R188). -/
def Dev.haulEnd (d : Dev) (h ch : Nat) (cmd : Cmd) (back : Nat × Bool) : Dev :=
  let c := d.chan h ch
  let x := haulOf cmd.word
  let line := x.backLine
  if back.1 ≠ stOk then
    (((d.endBad h ch 0x21 line x.dstUnit x.dstSpace c.guardSent).faultChain cmd.k).settle cmd.k cmd.u).kickHaul h ch
  else
    let status := if c.poison then 1 else if back.2 then 2 else 0
    let e := c.ending h ch status line x.dstUnit x.dstSpace c.guardSent
    let d := if c.poison then d.bump kHaulPoisonedTransfers 1 else d
    (d.setChan h ch { c with ended := true }).finish cmd (some e)

/-- What a local read-back finds: a lost line answers with an error, a held one not yet. -/
def Dev.localBack (d : Dev) (p : Nat) (x : Descriptor) : Option (Nat × Bool) :=
  let line := x.backLine
  if x.dst.space = 1 then some (stOk, d.storePoisoned (d.placeOf p x.dst.unit) line)
  else if d.heldIn line 64 then none
  else if (d.lostIn line 64).isSome then some (stLocal, false)
  else some (stOk, d.linePoisoned line)

def Dev.haulComplete (d : Dev) (h ch : Nat) : Dev :=
  let c := d.chan h ch
  match c.cur with
  | none => d
  | some cmd =>
    if c.state ≠ .closing ∨ c.lastAcked = false ∨ c.ended then d
    else
      let x := haulOf cmd.word
      match c.readback, (if x.dst.space = 2 then none else d.localBack cmd.k.p x) with
      | none, none => d
      | some back, _ => d.haulEnd h ch cmd back
      | none, some back => d.haulEnd h ch cmd back

def execHaulComplete (h : Fin 16) (ch : Fin 8) (s : State) : Host.Outcome State Fault Refusal :=
  onDie (fun d => d.haulComplete h ch) s

/-! Answers to a channel's requests. -/

/-- A write or a read of a channel is answered (R175, R187); an ABORTING one only waits for its answers (R190). -/
def Dev.haulAnswer (d : Dev) (w : ReqFor) (r : Reply) : Dev :=
  match w with
  | .haulWrite h ch i m =>
    match (d.chan h ch).cur with
    | none => d
    | some cmd =>
      let x := haulOf cmd.word
      let p := joined x.writePieces i m
      if r.status ≠ stOk then
        (((d.stopEngine h ch
          { addr := p.addr / 64 * 64, unit := x.dst.unit, space := 2, write := true, status := r.status, p := cmd.k.p }).kickHaul
          h ch).abortEnd h ch)
      else
        let d := d.ackBytes h ch p.len x
        if (d.chan h ch).state = .closing then
          (d.setChan h ch { d.chan h ch with lastAcked := true }).readBack h ch cmd x
        else (d.kickHaul h ch).abortEnd h ch
  | .haulRead h ch i =>
    match (d.chan h ch).cur with
    | none => d
    | some cmd =>
      let x := haulOf cmd.word
      let p := (x.readPieces[i]?).getD { place := 0, len := 0, addr := 0, need := 0, blk := 0 }
      let first := p.addr / 64 * 64
      if r.status ≠ stOk then
        ((d.stopEngine h ch
          { addr := first, unit := x.src.unit, space := 2, write := false, status := r.status, p := cmd.k.p }).kickHaul
          h ch).abortEnd h ch
      else if (d.chan h ch).state = .aborting then d.abortEnd h ch
      else
        (d.takeBytes h ch p.place ((r.data.drop (p.addr - first)).take p.len)
          (((List.range p.len).filter (fun b => bit r.lines ((p.addr - first + b) / 64))).map (fun b => p.place + b))).kickHaul h ch
  | .haulReadback h ch =>
    match (d.chan h ch).cur with
    | none => d
    | some _ =>
      if (d.chan h ch).state = .aborting then d.abortEnd h ch
      else d.setChan h ch { d.chan h ch with readback := some (r.status, decide (r.lines ≠ 0)) }
  | _ => d

/-! Pauses and queues. -/

/-- A pause bit has been set (R183). -/
def Dev.pauseChan (d : Dev) (h ch : Nat) : Dev :=
  let c := d.chan h ch
  match c.state with
  | .idle => d.setChan h ch { c with state := .paused }
  | .active => (d.setChan h ch { c with state := .pausing }).haulOn h ch
  | _ => d

/-- A pause bit has been cleared (R184). -/
def Dev.unpauseChan (d : Dev) (h ch : Nat) : Dev :=
  let c := d.chan h ch
  match c.state, c.cur with
  | .paused, none => (d.setChan h ch { c with state := d.restState h ch }).kickHaul h ch
  | .paused, some _ =>
    (d.setChan h ch { c with state := if d.haulStops h = [] then .active else .stopped }).kickHaul h ch
  | .pausing, _ => (d.setChan h ch { c with state := .active }).kickHaul h ch
  | _, _ => d

/-- HAUL_PAUSE is written: each bit that changes acts on its channel. -/
def Dev.writePause (d : Dev) (h v : Nat) : Dev :=
  let old := d.get (kHaulPause h)
  let d := d.put (kHaulPause h) v
  (List.range 8).foldl (fun d ch =>
    if bit v ch = bit old ch then d else if bit v ch then d.pauseChan h ch else d.unpauseChan h ch) d

/-- CQ_HEAD is written: slots are free, and a channel held in CLOSING goes on (R181). -/
def Dev.writeCqHead (d : Dev) (h ch v : Nat) : Dev :=
  let d := Dev.payOwed 2 (d.put (kHaulCqHead h ch) v) h ch
  let d := (List.range 16).foldl (fun d i =>
    if h' : i / 4 < 4 ∧ 16 + h < 34 ∧ i % 4 < 4 then d.settle ⟨⟨i / 4, h'.1⟩, ⟨16 + h, h'.2.1⟩, ⟨i % 4, h'.2.2⟩⟩ 0 else d) d
  d.kickHaul h ch

end Sys2Proof.Machine
end

