-- ==== Sys2Proof/Machine/Exchange.lean ====
section
/-! DEFINITION. The exchange of hoppers (R325 to R340): screening with fines, contributions, sums in rank order and staging.
At most 256 EXCHANGE packets of a partition are outstanding, and each packet holds as much as it can (DESIGN CHOICE, log 18).
What a rank slot of the receive area holds is a free value (log 19). -/

namespace Sys2Proof.Machine

/-! Shards and elements. -/

/-- Elements of a hopper (R325) and the first element of a shard (R327). -/
def HopperBody.elems (b : HopperBody) : Nat := b.hopperBytes / 4
def shardLo (e q r : Nat) : Nat := r * e / q
def shardLen (e q r : Nat) : Nat := shardLo e q (r + 1) - shardLo e q r

/-- The hopper carries fines (R330). -/
def HopperBody.screened (b : HopperBody) : Bool := b.screen = 1 || b.screen = 2 || b.screen = 3

/-- The half of the fines area in force (R331, R341). -/
def Dev.finesSel (d : Dev) (p : Nat) : Nat :=
  if d.get (kStepBlockAddr p) = 0 then 0 else fld (d.stepBlock p) 335 328 % 2

/-- Address of a half of the fines area. -/
def HopperBody.half (b : HopperBody) (sel : Nat) : Nat := b.finesAddr + sel * b.hopperBytes

/-- Words of 4 bytes from a working offset. -/
def Dev.words (d : Dev) (off n : Nat) : List Nat := (List.range n).map (fun i => d.readNum (off + 4 * i) 4)

/-- e_i (R331): FP32 bits. -/
def screenSum (h f : Nat) : Nat := fp32Add (pairToFp32 h) f

def fp32Mag (b : Nat) : Nat := b % 2 ^ 31

def fp32Finite (b : Nat) : Bool := decide (fp32Mag b < 0x7F800000)

/-- Ranking of R332: a NaN above an infinity, both above finite values; of equal magnitudes the lower index first. -/
def ranksAbove (x y : Nat × Nat) : Bool :=
  let a := min (fp32Mag x.2) 0x7F800001
  let b := min (fp32Mag y.2) 0x7F800001
  decide (b < a) || (decide (a = b) && decide (x.1 ≤ y.1))

/-- Elements a shard keeps: index and e (R332). -/
def keptOf (keep : Nat) (shard : List (Nat × Nat)) : List (Nat × Nat) :=
  let k := if shard = [] then 0 else max 1 (shard.length * keep / 65536)
  (ordered ranksAbove shard).take k

/-- The smallest number of tree levels that holds n positions. -/
def levelsFor (n : Nat) : Nat := if n ≤ 1 then 0 else Nat.log2 (n - 1) + 1

/-- The sign scale of R333 over all positions, the uncovered ones +0. -/
def signScale (es : List Nat) (covered : List Bool) : Nat :=
  let n := (covered.filter id).length
  let l := (es.zip covered).map (fun x => if x.2 then fp32Mag x.1 else 0)
  let k := levelsFor l.length
  let sum := treeSum fp32Add k (l ++ List.replicate (2 ^ k - l.length) 0)
  if n = 0 then 0 else divRound .fp32 (ofFp32 sum) (.fin false n 0)

/-- An element sent by its sign: plus or minus the scale; a NaN stays canonical (R43). -/
def signed32 (scale : Nat) (neg : Bool) : Nat := if neg then toFp32 (Val.neg (ofFp32 scale)) else scale

/-! Packets (R337). -/

/-- *Exchange descriptor*. -/
structure XDesc where
  step : Nat
  hopperId : Nat
  coll : Nat
  rank : Nat
  shard : Nat
  screen : Nat
  phase : Nat
  form : Nat
  last : Nat
  nonfinite : Nat
  first : Nat
  count : Nat
  scale : Nat
  seq : Nat
  deriving DecidableEq, Repr

def xdescOf (w : Nat) : XDesc :=
  { step := fld w 511 480, hopperId := fld w 479 464, coll := fld w 463 448, rank := fld w 447 432, shard := fld w 431 416,
    screen := fld w 415 412, phase := fld w 411 410, form := fld w 409 408, last := fld w 407 407,
    nonfinite := fld w 406 406, first := fld w 383 352, count := fld w 351 320, scale := fld w 319 288,
    seq := fld w 287 256 }

def xdescBits (x : XDesc) : Nat :=
  pack [(32, x.step), (16, x.hopperId), (16, x.coll), (16, x.rank), (16, x.shard), (4, x.screen), (2, x.phase), (2, x.form),
        (1, x.last), (1, x.nonfinite), (22, 0), (32, x.first), (32, x.count), (32, x.scale), (32, x.seq), (256, 0)]

/-- The data lines of a form, without the descriptor: form, first element, count, scale and bytes. -/
structure XData where
  form : Nat
  first : Nat
  count : Nat
  scale : Nat
  bytes : List Byte
  deriving DecidableEq, Repr

/-- Bytes filled up to whole lines. -/
def padLines (bs : List Byte) : List Byte := bs ++ List.replicate (64 * roundUp bs.length 64 - bs.length) 0#8

/-- Chunks of `n` of a list. -/
def chunksOf {α : Type} (n : Nat) : (fuel : Nat) → List α → List (List α)
  | 0, _ => []
  | f + 1, l => if l = [] then [] else l.take n :: chunksOf n f (l.drop n)
termination_by structural fuel => fuel

def denseData (first : Nat) (l : List Nat) : List XData :=
  (chunksOf 1008 l.length l).zipIdx.map (fun c =>
    { form := 0, first := first + 1008 * c.2, count := c.1.length, scale := 0,
      bytes := padLines (c.1.flatMap (fun v => toBytes v 4)) })

/-- Entries in ascending index (R338). -/
def entryData (l : List (Nat × Nat)) : List XData :=
  (chunksOf 504 l.length l).map (fun c =>
    { form := 1, first := 0, count := c.length, scale := 0,
      bytes := padLines (c.flatMap (fun v => toBytes (v.1 * 2 ^ 32 + v.2) 8)) })

def signData (first scale : Nat) (l : List Bool) : List XData :=
  (chunksOf 32256 l.length l).zipIdx.map (fun c =>
    { form := 2, first := first + 32256 * c.2, count := c.1.length, scale := scale,
      bytes := toBytes (ofBytes ((chunksOf 8 c.1.length c.1).map (fun bs =>
        BitVec.ofNat 8 ((bs.zipIdx.map (fun b => if b.1 then 2 ^ b.2 else 0)).sum)))) (64 * roundUp c.1.length 512) })

/-- The payloads of a contribution or a set of sums: numbered from 0, the last marked; a set without data is one bare
descriptor. -/
def payloadsOf (x : XDesc) (ds : List XData) : List (List Byte) :=
  let form := if x.phase = 1 ∨ x.screen = 0 ∨ x.screen = 4 then 0 else if x.screen = 2 then 2 else 1
  let ds := if ds = [] then [{ form := form, first := if form = 1 then 0 else x.first, count := 0, scale := 0, bytes := [] }]
    else ds
  ds.zipIdx.map (fun d =>
    toBytes (xdescBits { x with form := d.1.form, first := d.1.first, count := d.1.count, scale := d.1.scale, seq := d.2
                                last := b2n (decide (d.2 + 1 = ds.length)) }) 64 ++ d.1.bytes)

/-! Contribution values (R335). -/

def xdescFrom (bs : List Byte) : XDesc := xdescOf (ofBytes (bs.take 64))

/-- Word `i` of the data of a payload. -/
def dataWord (bs : List Byte) (i n : Nat) : Nat := ofBytes ((bs.drop (64 + n * i)).take n)

def findDense (pkts : List (List Byte)) (i : Nat) : Option Nat :=
  pkts.findSome? (fun bs =>
    let x := xdescFrom bs
    if x.form = 0 ∧ x.first ≤ i ∧ i < x.first + x.count then some (dataWord bs (i - x.first) 4) else none)

def findEntry (pkts : List (List Byte)) (i : Nat) : Option Nat :=
  pkts.findSome? (fun bs =>
    let x := xdescFrom bs
    if x.form ≠ 1 then none
    else (List.range x.count).findSome? (fun j =>
      let e := dataWord bs j 8
      if e / 2 ^ 32 = i then some (e % 2 ^ 32) else none))

def findSign (pkts : List (List Byte)) (i : Nat) : Option Nat :=
  pkts.findSome? (fun bs =>
    let x := xdescFrom bs
    if x.form = 2 ∧ x.first ≤ i ∧ i < x.first + x.count then
      some (signed32 x.scale (bit (dataWord bs ((i - x.first) / 8) 1) ((i - x.first) % 8)))
    else none)

/-- *Contribution values*: FP32 bits, or absent. -/
def contribValue (screen : Nat) (pkts : List (List Byte)) (i : Nat) : Option Nat :=
  if screen = 0 then (findDense pkts i).map pairToFp32
  else if screen = 1 then (findEntry pkts i).map pairToFp32
  else if screen = 2 then findSign pkts i
  else if screen = 3 then match findEntry pkts i with
    | some v => some (pairToFp32 v)
    | none => findSign pkts i
  else findDense pkts i

/-- The sum, or maximum, in rank order of the values present; +0 of none (R335). The first value is taken exactly, also a NaN
that is not the canonical one where it stays alone (R43 beside R335; DESIGN CHOICE, log 144). -/
def rankSum (screen : Nat) : List Nat → Nat
  | [] => 0
  | v :: vs => vs.foldl (fun a b => if screen = 4 then toFp32 (Val.maximum (ofFp32 a) (ofFp32 b)) else fp32Add a b) v

/-! The engine. -/

def Dev.setHopper (d : Dev) (p : Nat) (h : Option Hopper) : Dev := d.setTrain p { d.train p with hopper := h }

/-- Bytes of one rank slot (R336). -/
def slotBytes (e q : Nat) : Nat := 64 * roundUp (4 * roundUp e q) 64

def isExchange (p : Nat) : ReqFor → Bool
  | .exchange q => q = p
  | _ => false

def Dev.exchangeFlight (d : Dev) (p : Nat) : Nat :=
  (d.fabric.reqs.filter (fun x => match x.2 with | some r => isExchange p r.what | none => false)).length

def exchangeWindow : Nat := 256

/-- The head of the exchange queue leaves it (R558). -/
def Dev.xqDone (d : Dev) (p : Nat) : Dev := d.setTrain p { d.train p with xq := (d.train p).xq.drop 1 }

/-- R439: the new fines of the running hopper, if it has written any, are of no further use. -/
def Dev.finesKept (d : Dev) (p : Nat) : List (Nat × Nat) :=
  let t := d.train p
  match t.hopper with
  | some h => if h.read && (hopperOf h.cmd.word).screened then t.finesNew.dropLast else t.finesNew
  | none => t.finesNew

/-- An access that waits is a write of sums into the staging of the partition. -/
def Held.isStage (p : Nat) (h : Held) : Bool :=
  match h.what with
  | .stage q _ => decide (q = p)
  | _ => false

/-- What is still to be staged for an aborted hopper is given up (R439). -/
def Dev.dropStage (d : Dev) (p : Nat) : Dev := { d with mem := { d.mem with held := d.mem.held.filter (fun h => !h.isStage p) } }

/-- R556, R439: an XCHG_HOPPER in error stops; what it staged and its new fines are of no further use. -/
def Dev.hopperError (d : Dev) (p addr unit space write status : Nat) : Dev :=
  match (d.train p).hopper with
  | none => d
  | some h =>
    let d := d.setTrain p { d.train p with hopper := none, finesNew := d.finesKept p }
    ((d.dropStage p).xqDone p).engineBusError h.cmd addr unit space write status

/-- Packets 0 to n are held, n marked LAST (R338). -/
def setWhole (l : List (Nat × List Byte)) : Bool :=
  l.any (fun x => decide ((xdescFrom x.2).last = 1) &&
    (List.range x.1).all (fun i => l.any (fun y => decide (y.1 = i))))

/-- A packet joins its set. -/
def addPacket (l : List (Nat × List Byte)) (seq : Nat) (bs : List Byte) : List (Nat × List Byte) :=
  if l.any (fun x => decide (x.1 = seq)) then l else l ++ [(seq, bs)]

/-- The summed elements of a shard are written into staging, or wait for its lines (R262). -/
def Dev.stage (d : Dev) (p : Nat) (b : HopperBody) (first : Nat) (l : List Nat) : Dev :=
  let off := b.stagingAddr + 4 * first
  let bs := l.flatMap (fun v => toBytes v 4)
  if d.blocked off bs.length then d.hold off bs.length (.stage p bs) else d.writeMem off bs false

/-- The receive area of a hopper (R336), and the slot of a rank in it. -/
def Hopper.receive (h : Hopper) : Nat × Nat :=
  let b := hopperOf h.cmd.word
  (b.stagingAddr + b.hopperBytes, h.chips.length * slotBytes b.elems h.chips.length)

def Hopper.slot (h : Hopper) (rank : Nat) : Nat × Nat :=
  let b := hopperOf h.cmd.word
  (h.receive.1 + rank * slotBytes b.elems h.chips.length, slotBytes b.elems h.chips.length)

/-- The non-finite flag of R340. -/
def Dev.metNonfinite (d : Dev) (p : Nat) (v : Bool) : Dev := if v then d.setFlag p pfNonfinite true else d

/-- The own shard is summed: its sums go into staging and to every rank (R328, R335). -/
def Dev.sumOwn (d : Dev) (p : Nat) (h : Hopper) : Dev :=
    let b := hopperOf h.cmd.word
    let q := h.chips.length
    let lo := shardLo b.elems q h.rank
    let n := shardLen b.elems q h.rank
    let sets := (List.range q).map (fun r => (SMap.get [] h.contrib r).map Prod.snd)
    let sums := (List.range n).map (fun i => rankSum b.screen (sets.filterMap (fun s => contribValue b.screen s (lo + i))))
    let bad := sums.any (fun v => !fp32Finite v)
    let out := if b.screen = 4 then sums else sums.map toPair
    let d := (d.stage p b lo out).metNonfinite p bad
    let x : XDesc := { step := b.step, hopperId := b.hopperId, coll := b.collective, rank := h.rank, shard := h.rank,
                       screen := b.screen, phase := 1, form := 0, last := 0, nonfinite := b2n bad, first := lo, count := 0,
                       scale := 0, seq := 0 }
    let pays := payloadsOf x (denseData lo out)
    let others := h.chips.filter (fun c => decide (c ≠ d.chip))
    d.setHopper p (some { h with summed := true, sumsDone := NSet.add h.sumsDone h.rank
                                 toSend := h.toSend ++ others.flatMap (fun c => pays.map (fun y => (c, y))) })

/-- Once every contribution is whole the engine reads its receive area and sums (R258, R328, R556). -/
def Dev.sumShard (d : Dev) (p : Nat) (h : Hopper) : Dev :=
  let b := hopperOf h.cmd.word
  let q := h.chips.length
  let r := h.receive
  let out := b.stagingAddr + 4 * shardLo b.elems q h.rank
  let n := 4 * shardLen b.elems q h.rank
  if h.summed ∨ d.tearing p ∨ (List.range q).any (fun r => !setWhole (SMap.get [] h.contrib r)) = true ∨
      d.blocked r.1 r.2 = true then d
  else
    match d.lostIn r.1 r.2, d.poisonIn r.1 r.2, d.lostIn out n with
    | some a, _, _ => d.hopperError p a 0 0 0 stLocal
    | none, some a, _ => d.consumePoison (d.whereCmd h.cmd) a 0 0 8
    | none, none, some a => d.hopperError p a 0 0 1 stLocal
    | none, none, none => d.sumOwn p h

/-- The command completes when the sums of all shards are in staging (R328), all its packets sent. -/
def Dev.hopperEnd (d : Dev) (p : Nat) : Dev :=
  match (d.train p).hopper with
  | none => d
  | some h =>
    if h.read ∧ h.toSend = [] ∧ (List.range h.chips.length).all (fun r => NSet.mem h.sumsDone r) = true ∧
        d.mem.held.any (fun x => x.isStage p) = false then
      (((d.setHopper p none).xqDone p).bump kHoppersExchanged 1).finish h.cmd none
    else d

/-- Packets go out within the window; a packet refused at once ends the command (R298, R556). -/
def Dev.exchangePump : (fuel : Nat) → Dev → Nat → Dev
  | 0, d, _ => d
  | n + 1, d, p =>
    match (d.train p).hopper with
    | none => d
    | some h =>
      match h.toSend with
      | [] => d.hopperEnd p
      | (chip, bs) :: rest =>
        if exchangeWindow ≤ d.exchangeFlight p ∨ d.tearing p then d
        else
          let d := (d.setHopper p (some { h with toSend := rest })).bump kExchangeBytesSent bs.length
          match d.request p (.exchange p) { noHeader with dstChip := chip, ptype := ptExchange, vl := vlCollective } bs with
          | (d, none) => Dev.exchangePump n d p
          | (d, some r) =>
            if r.status = stOk then Dev.exchangePump n d p else d.hopperError p 0 chip 2 1 r.status

/-- What the screen makes of a hopper (R331 to R334): per element e, t and whether it is kept. -/
structure Screened where
  es : List Nat
  kept : List Nat
  scale : Nat
  deriving DecidableEq, Repr

def screenHopper (b : HopperBody) (q : Nat) (hs fs : List Nat) : Screened :=
  let es := (hs.zip fs).map (fun x => screenSum x.1 x.2)
  let ix := es.zipIdx.map (fun x => (x.2, x.1))
  let kept := if b.screen = 2 then []
    else rising ((List.range q).flatMap (fun r =>
      (keptOf b.keep ((ix.drop (shardLo b.elems q r)).take (shardLen b.elems q r))).map Prod.fst))
  let covered := ix.map (fun x => if b.screen = 2 then true else if b.screen = 3 then !kept.contains x.1 else false)
  { es := es, kept := kept, scale := signScale es covered }

/-- The transmitted value (R334). -/
def sentValue (screen scale e : Nat) (kept : Bool) : Nat :=
  if kept then pairToFp32 (toPair e) else if screen = 1 then 0 else signed32 scale (bit e 31)

/-- The data of a shard's contribution (R330, R337). -/
def contribData (b : HopperBody) (q r : Nat) (hs : List Nat) (x : Screened) : List XData :=
  let lo := shardLo b.elems q r
  let n := shardLen b.elems q r
  if b.screen = 0 ∨ b.screen = 4 then denseData lo ((hs.drop lo).take n)
  else
    let ks := x.kept.filter (fun i => decide (lo ≤ i) && decide (i < lo + n))
    let entries := entryData (ks.map (fun i => (i, toPair (x.es.getD i 0))))
    let signs := signData lo x.scale ((List.range n).map (fun i => bit (x.es.getD (lo + i) 0) 31 && !ks.contains (lo + i)))
    if b.screen = 1 then entries else if b.screen = 2 then signs else entries ++ signs

/-- The first poisoned or lost line of what a hopper command reads. -/
def Dev.hopperReads (d : Dev) (p : Nat) (b : HopperBody) : List (Nat × Nat) :=
  (b.hopperAddr, b.hopperBytes) ::
    (if b.screened ∧ d.get (kRole p) = 0 then [(b.half (d.finesSel p), b.hopperBytes)] else [])

/-- The format of a hopper's elements: FP32 in mode 4, else PAIR (R325, R330). -/
def HopperBody.elemCode (b : HopperBody) : Nat := if b.screen = 4 then 0 else 5

/-- The half of the fines area that the hopper's new fines go to (R331, R341). -/
def Dev.newHalf (d : Dev) (p : Nat) (b : HopperBody) : Nat :=
  b.half (if d.get (kStepBlockAddr p) = 0 then 1 else 1 - d.finesSel p)

/-- A MEMBER's engine has read its hopper: it screens it, writes the new fines, and has its contributions to send (R328). -/
def Dev.contribute (d : Dev) (p : Nat) (h : Hopper) (hs : List Nat) : Dev :=
  let b := hopperOf h.cmd.word
  let chips := h.chips
  let q := chips.length
  let rank := h.rank
  let fs := if b.screened then d.words (b.half (d.finesSel p)) b.elems else List.replicate b.elems 0
  let x := if b.screened then screenHopper b q hs fs else { es := [], kept := [], scale := 0 }
  let bad := if b.screened then x.es.any (fun e => !fp32Finite e) else hs.any (fun v => !elemFinite b.elemCode v)
  let new := d.newHalf p b
  let d := d.metNonfinite p bad
  let d :=
    if b.screened then
      let d := d.writeMem new
        (x.es.zipIdx.flatMap (fun e =>
          toBytes (fp32Sub e.1 (sentValue b.screen x.scale e.1 (x.kept.contains e.2))) 4)) false
      d.setTrain p { d.train p with finesNew := (d.train p).finesNew ++ [(new, b.hopperBytes)] }
    else d
  -- the receive area is the engine's own (R336)
  let n := d.draws
  let d := { d with draws := n + 1 }
  let d := d.writeMem h.receive.1 ((List.range h.receive.2).map (fun i => Config.freeByte n i)) false
  let desc := fun (r : Nat) =>
    let lo := shardLo b.elems q r
    let n := shardLen b.elems q r
    let bad := if b.screened
      then ((x.es.drop lo).take n).any (fun e => !fp32Finite e) || (decide (b.screen ≠ 1 ∧ n ≠ 0) && !fp32Finite x.scale)
      else ((hs.drop lo).take n).any (fun v => !elemFinite b.elemCode v)
    ({ step := b.step, hopperId := b.hopperId, coll := b.collective, rank := rank, shard := r, screen := b.screen,
       phase := 0, form := 0, last := 0, nonfinite := b2n bad, first := lo, count := 0, scale := 0, seq := 0 } : XDesc)
  let pays := fun (r : Nat) => payloadsOf (desc r) (contribData b q r hs x)
  let mine := (pays rank).zipIdx.map (fun y => (y.2, y.1))
  let sends := (List.range q).flatMap (fun r =>
    if r = rank then [] else (pays r).map (fun y => (chips.getD r 0xFFFF, y)))
  d.setHopper p (some { h with read := true, contrib := SMap.set [] h.contrib rank mine, toSend := sends })

/-- The hopper's bytes are kept for its digests. -/
def Dev.keepHopper (d : Dev) (p : Nat) (b : HopperBody) : Dev :=
  let t := d.train p
  d.setTrain p { t with contribBytes := t.contribBytes ++ [(b.hopperId, d.readMem b.hopperAddr b.hopperBytes)] }

/-- What the engine writes before it sends: the new fines and its receive area. -/
def Dev.hopperWrites (d : Dev) (p : Nat) (h : Hopper) : List (Nat × Nat) :=
  let b := hopperOf h.cmd.word
  h.receive :: (if b.screened then [(d.newHalf p b, b.hopperBytes)] else [])

/-- The engine of a MEMBER reads its hopper and fines, once none of the lines it touches is held (R262, R328, R556). -/
def Dev.readHopper (d : Dev) (p : Nat) (h : Hopper) : Dev :=
  let b := hopperOf h.cmd.word
  let reads := d.hopperReads p b
  let writes := d.hopperWrites p h
  if d.tearing p ∨ (reads ++ writes).any (fun r => d.blocked r.1 r.2) then d
  else
    match reads.findSome? (fun r => d.lostIn r.1 r.2), reads.findSome? (fun r => d.poisonIn r.1 r.2),
        writes.findSome? (fun r => d.lostIn r.1 r.2) with
    | some a, _, _ => d.hopperError p a 0 0 0 stLocal
    | none, some a, _ => d.consumePoison (d.whereCmd h.cmd) a 0 0 8
    | none, none, some a => d.hopperError p a 0 0 1 stLocal
    | none, none, none => (d.keepHopper p b).contribute p h (d.words b.hopperAddr b.elems)

/-- The running hopper goes on: it is read, its shard summed, its packets sent, as far as each can. -/
def Dev.exchangeOn (d : Dev) (p : Nat) : Dev :=
  let d := match (d.train p).hopper with
    | some h => if h.read then d else d.readHopper p h
    | none => d
  match (d.train p).hopper with
  | none => d
  | some h =>
    if h.read = false then d
    else
      let d := d.sumShard p h
      let left := match (d.train p).hopper with
        | some g => g.toSend.length
        | none => 0
      Dev.exchangePump (left + 1) d p

/-- XCHG_HOPPER starts: a MEMBER's period for its packets begins (R328, R339); another role only keeps the hopper for its digests
(R389). -/
def Dev.startHopper (d : Dev) (p : Nat) (c : Cmd) : Dev :=
  let b := hopperOf c.word
  if d.get (kRole p) = 0 then
    let chips := d.collective p b.collective
    (d.setHopper p (some { cmd := c, rank := chips.idxOf d.chip, chips := chips, contrib := [], sums := [], summed := false
                           sumsDone := [], toSend := [], read := false })).exchangeOn p
  else
    let reads := d.hopperReads p b
    if reads.any (fun r => d.blocked r.1 r.2) then d
    else
      match reads.findSome? (fun r => d.lostIn r.1 r.2), reads.findSome? (fun r => d.poisonIn r.1 r.2) with
      | some a, _ => (d.xqDone p).engineBusError c a 0 0 0 stLocal
      | none, some a => d.consumePoison (d.whereCmd c) a 0 0 8
      | none, none => ((d.keepHopper p b).xqDone p).finish c none

/-! An EXCHANGE at its receiver (R338, R339). -/

/-- Bits of the descriptor that are always 0, and fields of the header that must be. -/
def xReserved (w : Nat) (h : PacketHeader) : Bool :=
  decide (fld w 405 384 ≠ 0) || decide (fld w 255 0 ≠ 0) || decide (h.offset ≠ 0) || decide (h.guard ≠ 0) ||
  decide (h.guardTally ≠ 0) || decide (h.guardCount ≠ 0)

/-- Lines of data a form needs for COUNT. -/
def formLines (form count : Nat) : Nat :=
  if form = 0 then roundUp count 16 else if form = 1 then roundUp count 8 else roundUp count 512

/-- A packet that matches the running hopper and breaks a condition of R338. -/
def xMismatch (h : Hopper) (src : Nat) (x : XDesc) (bs : List Byte) : Bool :=
  let b := hopperOf h.cmd.word
  let q := h.chips.length
  let lo := shardLo b.elems q x.shard
  let hi := lo + shardLen b.elems q x.shard
  let range := if x.form = 1
    then (List.range x.count).any (fun j => decide (dataWord bs j 8 / 2 ^ 32 < lo) || decide (hi ≤ dataWord bs j 8 / 2 ^ 32))
    else decide (x.first < lo) || decide (hi < x.first + x.count) || (decide (hi ≤ x.first) && decide (x.first ≠ lo))
  let form := if x.phase = 1 ∨ b.screen = 0 ∨ b.screen = 4 then decide (x.form ≠ 0)
    else if b.screen = 1 then decide (x.form ≠ 1)
    else if b.screen = 2 then decide (x.form ≠ 2) else decide (x.form = 0)
  decide (x.screen ≠ b.screen) || decide (q ≤ x.rank) || decide (h.chips.getD x.rank 0xFFFF ≠ src) || decide (q ≤ x.shard) ||
  (decide (x.phase = 0) && decide (x.shard ≠ h.rank)) || (decide (x.phase = 1) && decide (x.rank ≠ x.shard)) ||
  range || form || decide (bs.length / 64 - 1 < formLines x.form x.count)

/-- The running hopper that an EXCHANGE matches. -/
def Dev.hopperFor (d : Dev) (p : Nat) (x : XDesc) : Option Hopper :=
  (d.train p).hopper.filter (fun h =>
    let b := hopperOf h.cmd.word
    decide (b.step = x.step ∧ b.hopperId = x.hopperId ∧ b.collective = x.coll))

/-- The running hopper that takes an EXCHANGE, none for one that is turned away. -/
def Dev.hopperTakes (d : Dev) (p : Nat) (ph : PacketHeader) (bs : List Byte) : Option Hopper :=
  let w := ofBytes (bs.take 64)
  let x := xdescOf w
  if xReserved w ph ∨ 1 < x.phase ∨ x.form = 3 ∨ 15 < x.coll then none
  else (d.hopperFor p x).filter (fun h => !xMismatch h ph.srcChip x bs)

/-- Where an EXCHANGE is stored: its rank's slot, or its sums in staging (R336). -/
def Hopper.storeAt (h : Hopper) (x : XDesc) : Nat × Nat :=
  if x.phase = 0 then h.slot x.rank else ((hopperOf h.cmd.word).stagingAddr + 4 * x.first, 4 * x.count)

/-- The lines in which an EXCHANGE would be stored are held (R262). -/
def Dev.exchangeHeld (d : Dev) (p : Nat) (ph : PacketHeader) (bs : List Byte) : Option (Nat × Nat) :=
  match d.hopperTakes p ph bs with
  | none => none
  | some h =>
    let r := h.storeAt (xdescFrom bs)
    if d.blocked r.1 r.2 then some r else none

/-- An EXCHANGE for a bound partition: stored, or answered NOT_READY or MALFORMED; an error response to its own write ends the
command (R556). -/
def Dev.exchangeServe (d : Dev) (p : Nat) (ph : PacketHeader) (bs : List Byte) : Dev × Reply :=
  let w := ofBytes (bs.take 64)
  let x := xdescOf w
  match d.hopperTakes p ph bs with
  | none =>
    if xReserved w ph ∨ 1 < x.phase ∨ x.form = 3 ∨ 15 < x.coll ∨ (d.hopperFor p x).isSome ∨ x.phase = 1
    then (d, replyOf stMalformed)
    else (d.bump kExchangeNotReady 1, replyOf stNotReady)
  | some h =>
    let at_ := h.storeAt x
    match d.lostIn at_.1 at_.2 with
    | some a => ((d.errorStatus.2).hopperError p a 0 0 1 stLocal, replyOf d.errorStatus.1)
    | none =>
      let d := d.metNonfinite p (decide (x.nonfinite = 1))
      if x.phase = 0 then
        let h := { h with contrib := SMap.set [] h.contrib x.rank (addPacket (SMap.get [] h.contrib x.rank) x.seq bs) }
        ((d.setHopper p (some h)).exchangeOn p, replyOf stOk)
      else
        let set := addPacket (SMap.get [] h.sums x.shard) x.seq bs
        let h := { h with sums := SMap.set [] h.sums x.shard set
                          sumsDone := if setWhole set then NSet.add h.sumsDone x.shard else h.sumsDone }
        let d := d.stage p (hopperOf h.cmd.word) x.first ((List.range x.count).map (fun i => dataWord bs i 4))
        ((d.setHopper p (some h)).exchangeOn p, replyOf stOk)

/-- The running hopper is the one a packet was sent for. -/
def Hopper.sent (h : Hopper) (pkt : Packet) : Bool :=
  let b := hopperOf h.cmd.word
  let x := xdescFrom pkt.payload
  decide (b.step = x.step ∧ b.hopperId = x.hopperId ∧ b.collective = x.coll)

/-- An answer to an EXCHANGE other than NOT_READY; an error ends the command that sent it (R294, R339, R556). -/
def Dev.exchangeAnswer (d : Dev) (p : Nat) (pkt : Packet) (status : Nat) : Dev :=
  let mine := match (d.train p).hopper with
    | some h => h.sent pkt
    | none => false
  if status ≠ stOk ∧ mine = true then d.hopperError p 0 (packetHeader pkt).dstChip 2 1 status else d.exchangeOn p

end Sys2Proof.Machine
end

