-- ==== Sys2Proof/Machine/Vote.lean ====
section
/-! DEFINITION. Votes and outcomes (R31, R32, R340 to R342, R355 to R361), barrier generations (R219 to R225), the stockpile's
mirror (R362 to R366), recut and shadowing (R367 to R372, R389, R390), and the graders (R348 to R350). -/

namespace Sys2Proof.Machine

/-! Digest records (R370). -/

/-- A record goes to a place of the inbox at a chip: one WRITE of two lines. `kind` of the request: 1 STATE, 2 the record of an
XCHG_VOTE, 3 STREAM, 4 the copy a MEMBER sends to its shadow. -/
def Dev.sendDigest (d : Dev) (p chip place kind : Nat) (r : DigestRecord) : Dev × Option Reply :=
  d.request p (.digestRec p kind)
    { noHeader with dstChip := chip, ptype := ptWrite, vl := vlReplay, offset := d.get (kDigestInbox p) + 128 * place }
    (toBytes (digestRecordBits r) 128)

/-- This partition's CONTRIBUTION record (R369, R389). -/
def Dev.contribRecord (d : Dev) (p : Nat) : DigestRecord :=
  let v := d.get (kContribDigest p)
  { digest := contribDigest v, step := contribStep v, src := d.chip, kind := 2, poisoned := false }

/-- The contribution digest of a step over its hoppers in ascending HOPPER_ID (R367). -/
def Dev.contribute64 (d : Dev) (p step : Nat) : Dev :=
  let hs := ordered (fun x y => decide (x.1 ≤ y.1)) (d.train p).contribBytes
  let dig := shake256 (hs.flatMap (fun h => toBytes h.1 2 ++ toBytes h.2.length 4 ++ h.2))
  d.put (kContribDigest p) (step + 2 ^ 32 * ofBytes dig)

/-! The mirror. -/

def isMirror (p : Nat) : ReqFor → Bool
  | .mirror q _ _ => q = p
  | _ => false

def Dev.mirrorFlight (d : Dev) (p : Nat) : Nat :=
  (d.fabric.reqs.filter (fun x => match x.2 with | some r => isMirror p r.what | none => false)).length

def mirrorWindow : Nat := 64

/-- Pieces of up to 64 lines of a copy: source, offset in the mirror slot, lines. -/
def copyPieces (src off bytes : Nat) : List (Nat × Nat × Nat) :=
  (List.range (roundUp bytes 4096)).map (fun i => (src + 4096 * i, off + 4096 * i, min 64 (roundUp (bytes - 4096 * i) 64)))

def Dev.setMirror (d : Dev) (p : Nat) (m : Option Mirror) : Dev := d.setTrain p { d.train p with mirror := m }

/-- The address of the mirror slot of a step on the buddy (R364). -/
def Dev.mirrorSlot (d : Dev) (p step : Nat) : Nat := d.get (kMirrorBase p) + step % 3 * d.get (kMirrorSlotBytes p)

/-- The fines halves in force for a step, `now` being in flight: those of the step before it may still be mirrored again (R366;
DEDUCED, log 22). -/
def Train.finesFor (t : Train) (now step : Nat) : List (Nat × Nat) :=
  if step = now then t.finesOf else if step + 1 = now then t.finesPrev else []

def finesBytes (l : List (Nat × Nat)) : Nat := (l.map Prod.snd).sum

/-- The fines halves one after another behind the stockpile (R364, R365). -/
def finesPieces : Nat → List (Nat × Nat) → List (Nat × Nat × Nat)
  | _, [] => []
  | off, f :: fs => copyPieces f.1 off f.2 ++ finesPieces (off + f.2) fs

/-- A mirror fails (R365): its record names the error status. -/
def Dev.mirrorFail (d : Dev) (p step status : Nat) : Dev :=
  let t := d.train p
  let d := d.setTrain p { t with mirror := none, mirrorBad := step :: t.mirrorBad }
  (d.record (atPart p) 0x502 3 [(16, d.fabric.coords.buddy), (8, status), (32, step)]).voteIfDue p

/-- The mirror of a step is acknowledged. -/
def Dev.mirrorAcked (d : Dev) (p step : Nat) : Dev :=
  let t := d.train p
  (d.setTrain p { t with mirror := none, mirrored := step :: t.mirrored }).voteIfDue p

/-- Lines written so far are acknowledged. -/
def Dev.mirrorAnswer (d : Dev) (p step lines status : Nat) : Dev :=
  match (d.train p).mirror with
  | none => d
  | some m =>
    if m.step ≠ step then d
    else if status ≠ stOk then d.mirrorFail p step status
    else
      let d := d.bump kMirrorBytes (64 * lines)
      if m.header ∧ d.mirrorFlight p = 0 then d.mirrorAcked p step else d

/-- One WRITE of the mirror: its lines with their marks, on the REPLAY lane (R292, R364). -/
def Dev.sendMirror (d : Dev) (p step off lines : Nat) (r : Reply) : Dev :=
  match d.request p (.mirror p step lines)
    { noHeader with dstChip := d.fabric.coords.buddy, ptype := ptWrite, vl := vlReplay, offset := d.mirrorSlot p step + off
                    poison := if r.lines = 0 then 0 else 1
                    byteEnOrLinePoison := if lines = 1 then 2 ^ 64 - 1 else r.lines } r.data with
  | (d, none) => d
  | (d, some a) => d.mirrorAnswer p step lines a.status

/-- *Mirror header*. -/
def Dev.mirrorHeader (d : Dev) (p step : Nat) (fines : List (Nat × Nat)) : List Byte :=
  toBytes (pack [(32, step), (16, d.chip), (32, d.get (kPartEpoch p)), (40, d.get (kStockpileSlotBytes p)),
    (40, finesBytes fines), (16, fines.length), (336, 0)]) 64

/-- A mirror slot holds the inputs, such fines and the header (R365). -/
def Dev.mirrorFits (d : Dev) (p : Nat) (fines : List (Nat × Nat)) : Bool :=
  decide (d.get (kStockpileSlotBytes p) + finesBytes fines + 64 ≤ d.get (kMirrorSlotBytes p))

/-- A mirror whose slot cannot hold it fails; its record's STATUS is open (R365; free, log 5). -/
def Dev.mirrorTooBig (d : Dev) (p step : Nat) : Dev :=
  let r := d.draw
  r.2.mirrorFail p step (r.1.toNat % 256)

/-- The fines of a step that are known by now: those of a step yet to come are not, before the outcome of the one in flight. -/
def Dev.finesKnown (d : Dev) (p step : Nat) : Option (List (Nat × Nat)) :=
  match d.stepInFlight p with
  | none => none
  | some k => if k < step then none else some ((d.train p).finesFor k step)

/-- The mirror goes on: the inputs, the fines in force once the outcome of the step before has come, and the header when every
other write is acknowledged (R364 to R366). A slot known to be too small is not written. -/
def Dev.mirrorPump : (fuel : Nat) → Dev → Nat → Dev
  | 0, d, _ => d
  | n + 1, d, p =>
    let t := d.train p
    match t.mirror with
    | none =>
      match t.mirrorQ with
      | [] => d
      | s :: rest =>
        let d := d.setTrain p { t with mirrorQ := rest }
        if d.mirrorFits p ((d.finesKnown p s).getD []) = false then Dev.mirrorPump n (d.mirrorTooBig p s) p
        else
          let m : Mirror := { step := s, todo := copyPieces (d.get (kStockpileBase p) + s % 3 * d.get (kStockpileSlotBytes p)) 0
                                (d.get (kStockpileSlotBytes p)), finesIn := false, header := false }
          Dev.mirrorPump n (d.setMirror p (some m)) p
    | some m =>
      match m.todo with
      | (src, off, lines) :: rest =>
        if mirrorWindow ≤ d.mirrorFlight p ∨ d.heldIn src (64 * lines) then d
        else
          let d := d.setMirror p (some { m with todo := rest })
          if (d.lostIn src (64 * lines)).isSome then d.mirrorFail p m.step stLocal
          else Dev.mirrorPump n (d.sendMirror p m.step off lines (d.readLines src lines)) p
      | [] =>
        if m.header then d
        else
          match d.finesKnown p m.step with
          | none => d
          | some fines =>
            if m.finesIn = false then
              if d.mirrorFits p fines = false then d.mirrorTooBig p m.step
              else Dev.mirrorPump n (d.setMirror p (some { m with finesIn := true
                                                                  todo := finesPieces (d.get (kStockpileSlotBytes p)) fines })) p
            else if d.mirrorFlight p = 0 then
              let d := d.setMirror p (some { m with header := true })
              Dev.mirrorPump n (d.sendMirror p m.step (d.get (kMirrorSlotBytes p) - 64) 1
                { status := stOk, data := d.mirrorHeader p m.step fines, lines := 0 }) p
            else d

/-- Enough for every piece in hand. -/
def Dev.mirrorOn (d : Dev) (p : Nat) : Dev :=
  let t := d.train p
  let pieces := d.get (kMirrorSlotBytes p) / 4096 + t.finesOf.length + t.finesPrev.length + 4
  if d.mirrors p ∧ d.tearing p = false then Dev.mirrorPump ((t.mirrorQ.length + 1) * (pieces + 4)) d p else d

/-- The stockpile's grant is taken: the inputs of its step are whole (R363, R365), and the engine waits for the next. -/
def Dev.takeStock (d : Dev) (p : Nat) : Dev :=
  let t := d.train p
  if t.mirrorWait = 0 then d
  else
    let step := (d.get (kStepFirst p) + t.mirrorWait - 1) % 2 ^ 32
    let d := d.setTrain p { t with mirrorWait := 0, mirrorQ := if d.mirrors p then t.mirrorQ ++ [step] else t.mirrorQ }
    let d := d.mirrorOn p
    match d.phys p (d.get (kStockInputTally p)) with
    | some x => d.evaluate x
    | none => d

/-- After ABORT the mirrors of the retained slots go out again (R366): those of the step before, the step, and the next. -/
def Dev.remirror (d : Dev) (p n : Nat) : Dev :=
  let t := d.train p
  let first := d.get (kStepFirst p)
  let have_ := fun (s : Nat) => decide (first ≤ s) && decide (s < first + t.stockGrants)
  let q := [n - 1, n, n + 1].filter (fun s => have_ s && (decide (s ≠ n - 1) || decide (n ≠ 0)))
  d.setTrain p { t with mirrored := [], mirrorBad := [], mirrorQ := q, mirror := none }

/-- MIRROR_STATE (R394), for the step in flight. -/
def Dev.mirrorState (d : Dev) (p : Nat) : Nat :=
  let t := d.train p
  match d.stepInFlight p with
  | none => 0
  | some n =>
    if t.mirrored.contains n then 2 else if t.mirrorBad.contains n then 3
    else if (t.mirror.map Mirror.step) = some n ∨ t.mirrorQ.contains n then 1 else 0

/-! The step control block (R341, R342). -/

structure StepBlock where
  step : Nat
  lastStep : Nat
  lastOutcome : Nat
  exp : Nat
  growth : Nat
  scale : Nat
  mult : Nat
  fines : Nat
  skips : Nat
  commits : Nat
  deriving DecidableEq, Repr

def stepBlockOf (w : Nat) : StepBlock :=
  { step := fld w 511 480, lastStep := fld w 479 448, lastOutcome := fld w 447 440, exp := fld w 439 432,
    growth := fld w 431 400, scale := fld w 399 368, mult := fld w 367 336, fines := fld w 335 328, skips := fld w 327 296,
    commits := fld w 295 264 }

def stepBlockBits (x : StepBlock) : Nat :=
  pack [(32, x.step), (32, x.lastStep), (8, x.lastOutcome), (8, x.exp), (32, x.growth), (32, x.scale), (32, x.mult),
        (8, x.fines), (32, x.skips), (32, x.commits), (264, 0)]

/-- LOSS_SCALE: two to the power of an 8-bit exponent. -/
def lossScale (exp : Nat) : Nat := roundScalar .fp32 (.fin false 1 (signed 8 exp))

def oCommit : Nat := 1
def oSkip : Nat := 2
def oAbort : Nat := 3

/-- *Outcome effects on the block* (R342). -/
def Dev.blockAfter (d : Dev) (p n outcome : Nat) (x : StepBlock) : StepBlock :=
  let l := signed 8 x.exp
  let x := { x with lastStep := n, lastOutcome := outcome }
  if outcome = oCommit then
    let grown := decide (x.growth + 1 = d.get (kGrowthInterval p))
    let e := if grown then unsigned 8 (min (l + (d.get (kGrowthExp p) : Int)) (signed 8 (d.get (kLossScaleMaxExp p)))) else x.exp
    { x with mult := divRound .fp32 (.fin false 1 (-l)) (.fin false (d.get (kJobReplicas p)) 0)
             growth := if grown then 0 else x.growth + 1, exp := e, scale := lossScale e, commits := x.commits + 1
             fines := 1 - x.fines % 2, step := (n + 1) % 2 ^ 32 }
  else if outcome = oSkip then
    let e := unsigned 8 (max (l - (d.get (kBackoffExp p) : Int)) (signed 8 (d.get (kLossScaleMinExp p))))
    { x with exp := e, scale := lossScale e, growth := 0, skips := x.skips + 1, step := (n + 1) % 2 ^ 32 }
  else { x with step := n }

/-- STEP_BLOCK_INIT (R341). -/
def Dev.initBlock (d : Dev) (p : Nat) : Dev :=
  let s := d.get (kStepFirst p)
  let e := d.get (kLossScaleInitExp p)
  d.writeNum (d.get (kStepBlockAddr p)) 64 (stepBlockBits
    { step := s, lastStep := (s + 2 ^ 32 - 1) % 2 ^ 32, lastOutcome := 0, exp := e, growth := 0, scale := lossScale e, mult := 0,
      fines := 0, skips := 0, commits := 0 })

/-! The vote's command. -/

/-- The clears of one step's flags (R356): all but a pending checkpoint warning. -/
def Dev.clearFlags (d : Dev) (p : Nat) : Dev :=
  d.put (kPartitionFlags p) (setFld (d.get (kPartitionFlags p)) 4 0 0)

/-- The gauge of the vote's segment runs again; the time it was held counts against no deadline (R357). -/
def Dev.unholdGauge (d : Dev) (c : Cmd) : Dev :=
  d.setGauge c.k ((d.gauge c.k).map (fun (s : Seg) => match s.heldAt with
    | some t => if s.segId = c.segId ∧ s.step = c.step
        then { s with heldAt := none, deadline := s.deadline + (d.time - t), extended := s.extended + (d.time - t) } else s
    | none => s))

/-- The outcome word of a vote's command is written, and the command completes (R157, R556). -/
def Dev.outcomeWord (d : Dev) (c : Cmd) (word : Nat) : Dev :=
  let a := (voteOf c.word).outcomeAddr
  if (d.lostIn a 4).isSome then d.engineBusError c a 0 0 1 stLocal else (d.writeNum a 4 word).finish c none

/-- XCHG_VOTE leaves the engine with its outcome word (R157, R359); the word waits for its line where that is held (R262). -/
def Dev.voteEnd (d : Dev) (p : Nat) (c : Cmd) (word : Nat) : Dev :=
  let a := (voteOf c.word).outcomeAddr
  let d := (d.xqDone p).unholdGauge c
  let d := d.setTrain p { d.train p with vote := none, shadowWait := false }
  if d.blocked a 4 then d.hold a 4 (.outcome c word) else d.outcomeWord c word

/-- A SHADOW compares its contribution with its peer's once the record is there (R389, R390). -/
def Dev.shadowCheck (d : Dev) (p : Nat) : Dev :=
  match (d.train p).vote with
  | none => d
  | some v =>
    let r := d.inboxRecord p 1
    if (d.train p).shadowWait = false ∨ r.kind ≠ 2 ∨ r.src ≠ d.get (kPeerChip p) ∨ r.step ≠ v.step then d
    else
      let mine := contribDigest (d.get (kContribDigest p))
      if digestsAgree mine r.digest false r.poisoned then
        let m := d.get (kShadowMatches p) + 1
        let d := d.put (kShadowMatches p) (m % 2 ^ 16)
        let d := if m = d.get (kShadowSteps p) then d.put kShadowQualified 1 else d
        (d.voteEnd p v.cmd (0x10 * 2 ^ 24)).beginStep p
      else
        let d := (d.put (kShadowMatches p) 0).record (atPart p) 0x507 0 [(16, r.src), (256, mine), (256, r.digest)]
        (d.voteEnd p v.cmd (0x11 * 2 ^ 24)).beginStep p

/-- A non-member's record has been written at its peer (R389). -/
def Dev.recordSent (d : Dev) (p : Nat) : Dev :=
  match (d.train p).vote with
  | none => d
  | some v =>
    if d.get (kRole p) = 2 then (d.voteEnd p v.cmd (0x12 * 2 ^ 24)).beginStep p
    else (d.setTrain p { d.train p with shadowWait := true }).shadowCheck p

/-- The record of an XCHG_VOTE met an error response (R556). -/
def Dev.recordFailed (d : Dev) (p status : Nat) : Dev :=
  match (d.train p).vote with
  | none => d
  | some v =>
    let d := (d.xqDone p).setTrain p { d.train p with vote := none }
    d.engineBusError v.cmd (d.get (kDigestInbox p) + 128) (d.get (kPeerChip p)) 2 1 status

/-- XCHG_VOTE starts (R157, R357, R369, R389). -/
def Dev.startVote (d : Dev) (p : Nat) (c : Cmd) : Dev :=
  let b := voteOf c.word
  let d := d.contribute64 p b.step
  let t := d.train p
  let run : VoteRun := { cmd := c, step := b.step, forceFail := decide (b.forceFail = 1), sent := decide (t.voteSent = some b.step) }
  if d.get (kRole p) ≠ 0 then
    let d := d.setTrain p { t with vote := some run }
    match d.sendDigest p (d.get (kPeerChip p)) 1 2 (d.contribRecord p) with
    | (d, none) => d
    | (d, some r) => if r.status = stOk then d.recordSent p else d.recordFailed p r.status
  else
    let d := if d.get (kShadowChip p) = 0xFFFF then d
      else (d.sendDigest p (d.get (kShadowChip p)) 1 4 (d.contribRecord p)).1
    match t.lateOutcome with
    | some (s, word) =>
      if s = b.step then (d.setTrain p { t with lateOutcome := none }).voteEnd p c word
      else ((d.setTrain p { t with vote := some run, lateOutcome := none }).recutExtend p).voteIfDue p
    | none =>
      let d := d.setTrain p { t with vote := some run }
      if run.sent then
        d.setGauge c.k ((d.gauge c.k).map (fun (s : Seg) =>
          if s.segId = c.segId ∧ s.step = c.step then { s with heldAt := some d.time } else s))
      else (d.recutExtend p).voteIfDue p

/-! The exchange engine's queue (R140, R558). -/

/-- The head of a partition's exchange queue starts when its wait is over (R127), a vote only of a partition that steps (R38). -/
def Dev.exchangeKick : (fuel : Nat) → Dev → Nat → Dev
  | 0, d, _ => d
  | n + 1, d, p =>
    let t := d.train p
    match t.xq with
    | [] => d
    | c :: _ =>
      let vote := decide ((headerOf c.word).opcode = opVote)
      if t.hopper.isSome ∨ t.vote.isSome ∨ d.tearing p ∨ c.free = false ∨ (vote = true ∧ d.mayStep p = false) then d
      else
        let d := if vote then d.startVote p c else d.startHopper p c
        if (d.train p).xq.length < t.xq.length then Dev.exchangeKick n d p else d

def Dev.kickExchange (d : Dev) (p : Nat) : Dev := Dev.exchangeKick 3 d p

/-- Commands an exchange or bed queue holds (R140). -/
def engineQueue : Nat := 2

/-- The first address of a command's areas outside the allocation (R329, R157). -/
def Dev.exchangeViolation (d : Dev) (p : Nat) (c : Cmd) : Option (Nat × Nat) :=
  let area := fun (a n w : Nat) => if n = 0 ∨ d.inAlloc p a n then none else some (a, w)
  if (headerOf c.word).opcode = opVote then area (voteOf c.word).outcomeAddr 4 1
  else
    let b := hopperOf c.word
    let q := (d.collective p b.collective).length
    match area b.hopperAddr b.hopperBytes 0, area b.finesAddr (if b.screened then 2 * b.hopperBytes else 0) 0 with
    | some x, _ => some x
    | none, some x => some x
    | none, none => area b.stagingAddr (b.hopperBytes + q * slotBytes b.elems q) 1

def Dev.issueExchange (d : Dev) (c : Cmd) : Dev :=
  let p : Nat := c.k.p
  let t := d.train p
  if d.orderOk c = false ∨ engineQueue ≤ t.xq.length then d
  else
    match d.exchangeViolation p c with
    | some (a, w) => (d.accessViolation c a 0 0 w).settle c.k c.u
    | none => ((d.push c).setTrain p { t with xq := t.xq ++ [c] }).kickExchange p

def execXchgHopper (k : ChainId) (u : Fin 96) (s : State) : Host.Outcome State Fault Refusal :=
  onDie (fun d => d.onWord k u opHopper Dev.issueExchange) s

def execXchgVote (k : ChainId) (u : Fin 96) (s : State) : Host.Outcome State Fault Refusal :=
  onDie (fun d => d.onWord k u opVote Dev.issueExchange) s

/-- The moments of R357 are looked at. -/
def execVote (p : Fin 4) (s : State) : Host.Outcome State Fault Refusal :=
  onDie (fun d => (d.voteIfDue p).shadowCheck p) s

/-! The outcome (R359). -/

/-- A pending AT_BOUNDARY request whose moment has come (R408). -/
def Dev.boundary (d : Dev) (p : Nat) : Dev :=
  match (d.part p).shift with
  | some sh =>
    if sh.mode = 1 ∧ d.pState p = psAdmitted then d.startTeardown p (shiftEnd sh.action) sh.confirm sh.tenancy else d
  | none => d

/-- After COMMIT or SKIP the boundary comes with the snapshot of the next step (R408). -/
def Dev.snapshotBoundary (d : Dev) (p : Nat) : Dev :=
  match (d.part p).shift with
  | some sh => if sh.committed ∧ d.get (kBedStep p) = fld (d.stepBlock p) 511 480 then d.boundary p else d
  | none => d

/-- *Outcome word*. -/
structure Outcome where
  outcome : Nat
  ckpt : Bool
  word : Nat
  deriving DecidableEq, Repr

def Dev.outcomeOf (d : Dev) (p n status payload arrivals : Nat) : Outcome :=
  let inc := decide (status = 1) || decide (arrivals ≠ d.get (kJobReplicas p))
  let abandon := bit payload 29
  let skew := decide (fld payload 26 24 &&& fld payload 23 21 ≠ 0)
  let fail := bit payload 31
  let dstep := bit payload 27
  let dig := dstep && decide (fld payload 19 10 &&& fld payload 9 0 ≠ 0)
  let o := if inc || abandon || skew || fail || dig then oAbort else if bit payload 30 then oSkip else oCommit
  let interval := d.get (kCkptInterval p)
  let ck := decide (o ≠ oAbort) && (bit payload 28 || (decide (interval ≠ 0) && decide ((n + 1) % interval = 0)))
  { outcome := o, ckpt := ck
    word := pack [(8, o), (1, b2n ck), (1, b2n dstep), (1, 0), (1, b2n skew), (1, b2n dig), (1, b2n abandon), (1, b2n fail),
                  (1, b2n inc), (16, arrivals)] }

/-- CKPT_SEQ takes its next value, and the write that starts takes the generation before (R381). -/
def Dev.dueCheckpoint (d : Dev) (p n : Nat) : Dev :=
  let seq := d.get (kCkptSeq p)
  let d := (d.setFlag p pfCkpt false).put (kCkptSeq p) ((seq + 1) % 2 ^ 32)
  d.setBed p { d.bed p with ckptDue := some ((n + 1) % 2 ^ 32, seq) }

/-- Everything the outcome of a step does on this module (R32, R340, R342, R356, R359, R365, R366, R381, R408). -/
def Dev.outcome (d : Dev) (p n status payload arrivals : Nat) : Dev :=
  let o := d.outcomeOf p n status payload arrivals
  let t := d.train p
  let d := if d.get (kStepBlockAddr p) = 0 then d
    else d.writeNum (d.get (kStepBlockAddr p)) 64 (stepBlockBits (d.blockAfter p n o.outcome (stepBlockOf (d.stepBlock p))))
  let d := d.bump (if o.outcome = oCommit then kOutcomesCommit else if o.outcome = oSkip then kOutcomesSkip else kOutcomesAbort) 1
  let d := if o.ckpt then d.dueCheckpoint p n else d
  let d := d.clearFlags p
  let d := d.setTrain p { d.train p with
    finesOf := if o.outcome = oCommit then t.finesNew else t.finesOf
    finesPrev := if o.outcome = oAbort then t.finesPrev else t.finesOf
    lateOutcome := if t.vote.isNone ∧ t.cut = false then some (n, o.word) else none
    cut := false, commitSeen := true, lossAt := none }
  let d := match t.vote with
    | some v => d.voteEnd p v.cmd o.word
    | none => d
  let d := if o.outcome = oAbort then d.remirror p n else d
  let d := (d.beginStep p).mirrorOn p
  let d := d.applyRemap p
  let d := match t.lossAt with
    | some (s, seq) => if s = n ∧ o.outcome = oCommit then d.faultTeardown p 0x306 seq else d
    | none => d
  let d := if o.outcome = oAbort then d.boundary p
    else match (d.part p).shift with
      | some sh => (d.setPart p { d.part p with shift := some { sh with committed := true } }).snapshotBoundary p
      | none => d
  d.kickExchange p

/-! Barrier generations. -/

/-- *Release record* (R225). -/
def Dev.releaseRecord (d : Dev) (slot gen payload arrivals status : Nat) : Nat :=
  pack [(64, d.time), (32, gen), (32, payload), (16, arrivals), (8, status), (8, slot), (96, 0)]

/-- The generation in flight is released (R222); the vote slot's release carries the outcome (R359). -/
def Dev.releaseSlot (d : Dev) (p slot gen payload arrivals status : Nat) : Dev :=
  let e := d.barrier p slot
  let base := d.get (kBarrierRecordBase p)
  let d := if d.inAlloc p (base + 32 * slot) 32
    then d.postMem (base + 32 * slot) (toBytes (d.releaseRecord slot gen payload arrivals status) 32) else d
  let d := d.put (kBarrierGen p slot) ((gen + 1) % 2 ^ 32)
  let d := { d with tallies := { d.tallies with inFlight := NSet.del d.tallies.inFlight (64 * p + slot) } }
  let d := d.applySignal (localSignal p e.release 1)
  let d := match (d.train p).voteSent with
    | some n => if slot = d.get (kVoteSlot p) then d.outcome p n status payload arrivals else d
    | none => d
  d.agentLook p slot

/-- A RELEASE for a slot: only the generation in flight counts (R222, R224). -/
def Dev.releaseArrives (d : Dev) (p tree gen payload arrivals status : Nat) : Dev :=
  let slots := (d.barrierSlots p).filter (fun i =>
    (d.barrier p i).enable && decide ((d.barrier p i).tree = tree) && NSet.mem d.tallies.inFlight (64 * p + i) &&
    decide (d.get (kBarrierGen p i) = gen))
  match slots with
  | [] => d.bump kStaleReleases 1
  | i :: _ => d.releaseSlot p i gen payload arrivals status

/-- *Barrier packet body* of an ARRIVE (R224). -/
def Dev.arriveBody (d : Dev) (tree gen payload : Nat) : Nat :=
  pack [(8, 1), (8, 0), (16, tree), (32, gen), (32, payload), (16, 1), (16, d.chip)]

/-- The grant of a slot's agent is taken: a local release, or an ARRIVE once the exchange data sent before is acknowledged and
the plane's port is ADMITTED (R219, R222, R223, R299). -/
def Dev.arrive (d : Dev) (p slot : Nat) : Dev :=
  let e := d.barrier p slot
  match SMap.get none d.tallies.granted (64 * p + slot) with
  | none => d
  | some payload =>
    let gen := d.get (kBarrierGen p slot)
    let taken := { d with tallies := { d.tallies with
      granted := SMap.set none d.tallies.granted (64 * p + slot) none
      inFlight := NSet.add d.tallies.inFlight (64 * p + slot) } }
    if e.tree = 0xFFFF then taken.releaseSlot p slot gen payload 1 0
    else if d.anyReq (fun r => isExchange p r.what) ∨ d.portAdmitted e.plane = false then d
    else
      let dst := taken.freeChip
      (dst.2.bump kBarrierArrivals 1).enqueue e.plane vlCollective (packetFrom
        { noHeader with dstChip := dst.1, srcChip := d.chip, mpart := d.get (kPartMpart p), epoch := d.get (kPartEpoch p),
                        ptype := ptBarrier, vl := vlCollective, plane := e.plane }
        (lineOf (d.arriveBody e.tree gen payload)))

/-! Writes of the step's action entries. -/

/-- STEP_ABANDON (R361): a write that names any other step, or none in flight, is refused. -/
def Dev.abandonRefused (d : Dev) (p v : Nat) : Bool := decide (d.stepInFlight p ≠ some v)

/-- RECUT_REQUEST names the step in flight (R368): trigger 3. -/
def Dev.recutRequested (d : Dev) (p v : Nat) : Dev := if d.stepInFlight p = some v then d.recutTrigger p 3 else d

/-! Graders (R348 to R350). -/

def Dev.grader (d : Dev) (p g : Nat) : Grader := SMap.get Grader.start d.training.graders (64 * p + g)

def Dev.setGrader (d : Dev) (p g : Nat) (x : Grader) : Dev :=
  { d with training := { d.training with graders := SMap.set Grader.start d.training.graders (64 * p + g) x } }

/-- *Grader record* (R349). -/
def graderRecord (gen : Nat) (g : Grader) (clip uflow : Bool) : Nat :=
  pack [(32, gen), (32, g.amax), (32, g.tiles), (32, g.elements), (32, g.clip), (32, g.uflow), (24, 0), (6, g.flags),
        (1, b2n uflow), (1, b2n clip), (32, 0)]

/-- A share exceeds its limit. -/
def overShare (limit sum elements : Nat) : Bool := decide (limit ≠ 0) && decide (limit * elements < sum * 65536)

/-- LAYER_RERUN is recorded at most once a second per grader (R350). -/
def Dev.layerRerun (d : Dev) (p g gen : Nat) (x : Grader) (rerun : Nat) : Dev :=
  let recent := match x.recordedAt with
    | some t => decide (d.time < t + 1000000000)
    | none => false
  if recent then d.setGrader p g { d.grader p g with unreported := x.unreported + 1 }
  else
    let d := d.record (atPart p) 0x10A 0
      [(6, g), (32, gen), (32, x.elements), (32, x.clip), (32, x.uflow), (2, rerun), (32, x.unreported)]
    d.setGrader p g { d.grader p g with recordedAt := some d.time, unreported := 0 }

/-- The decision of a grader (R349). -/
def Dev.decide_ (d : Dev) (p g : Nat) (e : GraderEntry) (x : Grader) : Dev :=
  let clip := overShare e.clipMax x.clip x.elements
  let uflow := overShare e.uflowMax x.uflow x.elements
  let rerun := b2n clip + 2 * b2n uflow
  let gen := d.get (kGraderGen p g)
  let d := d.postMem e.recordAt (toBytes (graderRecord gen x clip uflow) 32)
  let d := d.postMem e.decision (toBytes (rerun + (if rerun = 0 then 2 ^ 32 else 0)) 8)
  let d := d.fly (localSignal p e.release (d.liftCount p e.lift))
  let d := d.put (kGraderGen p g) ((gen + 1) % 2 ^ 32)
  let d := d.setGrader p g { Grader.start with recordedAt := x.recordedAt, unreported := x.unreported }
  let d := d.bump kGraderDecisions 1
  let d := (d.bump kRerunsClip (b2n clip)).bump kRerunsUflow (b2n uflow)
  if rerun = 0 then d else d.layerRerun p g gen x rerun

/-- The oldest report on its way to a grader reaches it. -/
def Dev.graderReport (d : Dev) (p g : Nat) : Dev :=
  match d.training.reports.find? (fun r => decide (r.p = p) && decide (r.g = g)) with
  | none => d
  | some r =>
    let d := { d with training := { d.training with reports := d.training.reports.erase r } }
    let e := d.graderEntry p g
    if e.enable = false then d
    else
      let x := d.grader p g
      let x := { x with tiles := x.tiles + 1, elements := x.elements + r.elements, clip := x.clip + r.clip
                        uflow := x.uflow + r.uflow, amax := max x.amax r.amax, flags := x.flags ||| r.flags }
      if x.tiles < e.expect then d.setGrader p g x else d.decide_ p g e x

def execGraderReport (p : Fin 4) (g : Fin 64) (s : State) : Host.Outcome State Fault Refusal :=
  onDie (fun d => d.graderReport p g) s

/-! The clear of a partition's tallies with all that goes with it (R212, R340, R350, R356). -/

def Dev.clearGraders (d : Dev) (p : Nat) : Dev :=
  let d := { d with training := { d.training with
    graders := d.training.graders.map (fun x => if x.1 / 64 = p
      then (x.1, { Grader.start with recordedAt := x.2.recordedAt, unreported := x.2.unreported }) else x)
    reports := d.training.reports.filter (fun r => decide (r.p ≠ p)) } }
  (List.range 64).foldl (fun d g => d.put (kGraderGen p g) 0) d

def Dev.clearAllTallies (d : Dev) (p : Nat) (gens : Bool) : Dev := ((d.clearTallies p gens).clearGraders p).clearFlags p

end Sys2Proof.Machine
end

