-- ==== Sys2Proof/Machine/Bed.lean ====
section
/-! DEFINITION. The bed engine and the checkpoint agent: region lists and images (R236 to R239, R373), BED_SNAPSHOT,
BED_RESTORE and BED_STREAM (R158, R374 to R377), state digests (R371, R372), and storage checkpoints (R380 to R385). -/

namespace Sys2Proof.Machine

/-! Region lists. -/

/-- *Region entry* (R373). -/
structure Region where
  off : Nat
  y0 : Nat
  stripes : Nat
  digest : Bool
  deriving DecidableEq, Repr

def stripeBytes : Nat := 196608

def regionOf (w : Nat) : Region :=
  { off := fld w 127 84, y0 := fld w 63 40, stripes := fld w 39 8, digest := bit w 0 }

/-- The entries of a list, as read. -/
def Dev.readRegions (d : Dev) (addr count : Nat) : List Nat := (List.range count).map (fun i => d.readNum (addr + 16 * i) 16)

def Region.bytes (r : Region) : Nat := stripeBytes * r.stripes

/-- Two regions share working offsets or bed positions. -/
def Region.clash (r q : Region) : Bool := overlap r.off r.bytes q.off q.bytes || overlap r.y0 r.stripes q.y0 q.stripes

def anyPair (f : Region → Region → Bool) : List Region → Bool
  | [] => false
  | r :: rs => rs.any (f r) || anyPair f rs

/-- A bed position below BED_POSITIONS lies outside the partition's bed range (R400), or in the bed that another partition holds
while SUSPENDED (R36). -/
def Dev.outsideBed (d : Dev) (p : Nat) (r : Region) : Bool :=
  let lo := (d.bedRange p).1
  let hi := lo + (d.bedRange p).2
  let last := min (r.y0 + r.stripes) d.bedPositions
  decide (r.y0 < last) && (decide (r.y0 < lo) || decide (hi < last) ||
    (List.range 4).any (fun q => decide (q ≠ p) && decide (d.pState q = psSuspended) &&
      overlap r.y0 (last - r.y0) (d.bedRange q).1 (d.bedRange q).2))

/-- The list breaks a condition of R373 or R400. -/
def Dev.badRegions (d : Dev) (p : Nat) (ws : List Nat) : Bool :=
  let rs := ws.map regionOf
  ws.any (fun w => decide (fld w 83 64 ≠ 0) || decide (fld w 7 1 ≠ 0)) ||
  rs.any (fun r => decide (r.off % stripeBytes ≠ 0) || decide (r.stripes = 0) || !d.inAlloc p r.off r.bytes || d.outsideBed p r) ||
  anyPair Region.clash rs

/-- Bed positions the list needs: the highest, and one. -/
def needed (rs : List Region) : Nat := (rs.map (fun r => r.y0 + r.stripes)).foldl max 0

/-- R238: positions at or beyond BED_POSITIONS are needed. -/
def Dev.overflows (d : Dev) (rs : List Region) : Bool := decide (d.bedPositions < needed rs)

/-- A retired bed position is assigned (R237, R253). -/
def Dev.usesRetired (d : Dev) (rs : List Region) : Bool :=
  d.mem.retired.any (fun w => bit w 63 && rs.any (fun r => overlap (4 * fld w 39 0) 4 r.y0 (min r.stripes (d.bedPositions - r.y0))))

/-- Why a bed command cannot place or find its bed: REASON of BED_SHORT (R239, R376). -/
def Dev.bedShort (d : Dev) (p op : Nat) (rs : List Region) : Option Nat :=
  let base := d.get (kBedOverflowBase p)
  if op ≠ opSnapshot ∧ d.get (kBedStep p) = 0xFFFFFFFF then some 4
  else if d.overflows rs ∧ base = 0 then some 1
  else if d.overflows rs ∧ d.inAlloc p base (stripeBytes * (needed rs - d.bedPositions)) = false then some 2
  else if op = opSnapshot ∧ d.usesRetired rs then some 3
  else none

/-! Images. -/

/-- Where the image of a byte of a stripe with bed position y is kept (R236, R238). -/
def Dev.imageKey (d : Dev) (p off y : Nat) : Nat :=
  if y < d.bedPositions then
    let h := interleave off
    let q := d.place h.1 ((h.2.1 + 32) % 64) (d.qw + y)
    posKey q.1 q.2.1 q.2.2 (off % 256)
  else d.byteKey (d.get (kBedOverflowBase p) + stripeBytes * (y - d.bedPositions) + off % stripeBytes)

/-- One line goes from key to key with its poison mark (R258). -/
def Dev.copyLine (d : Dev) (bad : NSet) (src dst : Nat) : Dev :=
  let hbm := (List.range 64).foldl (fun m i => Memory.setByte m (dst + i) (Memory.byte d.mem.hbm (src + i))) d.mem.hbm
  let poison := NSet.put d.mem.poison (dst / 64) (NSet.mem d.mem.poison (src / 64) || NSet.mem bad (src / 64))
  { d with mem := { d.mem with hbm := hbm, poison := poison } }

/-- Every stripe of a list: its offset and bed position, in list order. -/
def stripesOf (rs : List Region) : List (Nat × Nat) :=
  rs.flatMap (fun r => (List.range r.stripes).map (fun i => (r.off + stripeBytes * i, r.y0 + i)))

/-- Stripe j of a list. -/
def stripeAt : List Region → Nat → Nat × Nat
  | [], _ => (0, 0)
  | r :: rs, j => if j < r.stripes then (r.off + stripeBytes * j, r.y0 + j) else stripeAt rs (j - r.stripes)

/-- Stripes of a list. -/
def stripeCount (rs : List Region) : Nat := (rs.map Region.stripes).sum

def Dev.copyStripe (d : Dev) (p : Nat) (restore : Bool) (bad : NSet) (x : Nat × Nat) : Dev :=
  (List.range (stripeBytes / 64)).foldl (fun d i =>
    let work := d.byteKey (x.1 + 64 * i)
    let image := d.imageKey p (x.1 + 64 * i) x.2
    if restore then d.copyLine bad image work else d.copyLine bad work image) d

/-- Where a copy of the state is read from: working state, or its images. -/
def Dev.stateKey (d : Dev) (p : Nat) (work : Bool) (off y : Nat) : Nat := if work then d.byteKey off else d.imageKey p off y

/-- A granule of a stripe. -/
def Dev.granule (d : Dev) (p : Nat) (work : Bool) (x : Nat × Nat) (j : Nat) : List Byte :=
  let k := d.stateKey p work (x.1 + 256 * j) x.2
  (List.range 256).map (fun i => Memory.byte d.mem.hbm (k + i))

/-- Place in its stripe of the granule whose channel number is c (R235). -/
def granuleOf (x c : Nat) : Nat := (c + 768 * 389 - 389 * (x % 768)) % 768

/-- The leaf of a stripe and a stack (R371). -/
def Dev.leaf (d : Dev) (p : Nat) (work : Bool) (x : Nat × Nat) (s : Nat) : List Byte :=
  shake256 ((List.range 64).flatMap (fun k => d.granule p work x (granuleOf (x.1 / stripeBytes) (12 * k + s))))

/-- The state digest of what a list names (R371). -/
def Dev.stateDigestOf (d : Dev) (p : Nat) (work : Bool) (rs : List Region) : Nat :=
  ofBytes (shake256 ((stripesOf (rs.filter Region.digest)).flatMap (fun x =>
    (List.range 12).flatMap (fun s => d.leaf p work x s))))

/-- Some line read is poisoned. -/
def Dev.statePoisoned (d : Dev) (p : Nat) (work : Bool) (bad : NSet) (rs : List Region) : Bool :=
  !bad.isEmpty || (stripesOf rs).any (fun x => (List.range (stripeBytes / 64)).any (fun i =>
    NSet.mem d.mem.poison (d.stateKey p work (x.1 + 64 * i) x.2 / 64)))

/-- Lines of a stripe from its images or from working state, with the marks of the poisoned ones. -/
def Dev.stateLines (d : Dev) (p : Nat) (work : Bool) (bad : NSet) (x : Nat × Nat) (at_ n : Nat) : Reply :=
  let ks := (List.range n).map (fun i => d.stateKey p work (x.1 + at_ + 64 * i) x.2)
  { status := stOk, data := ks.flatMap (fun k => (List.range 64).map (fun i => Memory.byte d.mem.hbm (k + i))),
    lines := (ks.zipIdx.map (fun k => if NSet.mem d.mem.poison (k.1 / 64) || NSet.mem bad (k.1 / 64) then 2 ^ k.2 else 0)).sum }

/-- STATE_DIGEST takes a digest with its step (R372). -/
def Dev.setStateDigest (d : Dev) (p step : Nat) (bad : Bool) (digest : Nat) : Dev :=
  d.put (kStateDigest p) (step + 2 ^ 32 * b2n bad + 2 ^ 64 * digest)

/-- A stripe holds a granule of every pseudo-channel, so its first shows whether a copy is held or meets a LOST one. -/
def Dev.bedHeld (d : Dev) (rs : List Region) : Bool :=
  match rs with
  | r :: _ => d.heldIn r.off stripeBytes
  | [] => false

def Dev.bedLost (d : Dev) (rs : List Region) : Option Nat :=
  match rs with
  | r :: _ => d.lostIn r.off stripeBytes
  | [] => none

/-- R447: a retained bed record is cleared when a bed command writes a position in its range. -/
def Dev.clearRetained (d : Dev) (rs : List Region) : Dev :=
  (List.range 4).foldl (fun d q =>
    let w := d.get (kRetainedBed q)
    if bit w 0 ∧ rs.any (fun r => overlap (fld w 479 448) (fld w 447 416) r.y0 (min r.stripes (d.bedPositions - r.y0))) = true
    then d.put (kRetainedBed q) 0 else d) d

/-! The checkpoint agent. -/

def isCkpt (p : Nat) : ReqFor → Bool
  | .ckpt q => q = p
  | _ => false

def Dev.ckptFlight (d : Dev) (p : Nat) : Nat :=
  (d.fabric.reqs.filter (fun x => match x.2 with | some r => isCkpt p r.what | none => false)).length

/-- Requests a bed stream or a checkpoint keeps outstanding (log 17). -/
def bulkWindow : Nat := 64

/-- Codes of CKPT_STATE (R394). -/
def ckInvalidating : Nat := 1
def ckWriting : Nat := 2
def ckSealing : Nat := 3
def ckDone : Nat := 4
def ckFailed : Nat := 5

def Dev.ckptBase (d : Dev) (p seq : Nat) : Nat := if seq % 2 = 0 then d.get (kCkptAreaBase0 p) else d.get (kCkptAreaBase1 p)

/-- Group size and index of DEDUP_GROUP (R382). -/
def Dev.dedupSize (d : Dev) : Nat := if d.fabric.coords.dedup / 256 = 0 then 1 else d.fabric.coords.dedup / 256
def Dev.dedupIndex (d : Dev) : Nat := d.fabric.coords.dedup % 256

/-- The commit-record place (R383). -/
def Dev.commitPlace (d : Dev) (p seq : Nat) : Nat := d.ckptBase p seq + d.get (kCkptAreaBytes p) - 128 * (64 - d.dedupIndex)

/-- *Commit record*. -/
def Dev.commitBits (d : Dev) (p : Nat) (c : Ckpt) : Nat :=
  pack [(512, c.digest), (32, c.step), (32, c.seq), (8, d.dedupSize), (8, d.dedupIndex), (32, c.first), (32, c.count),
        (32, c.total), (32, c.poisoned), (16, d.chip), (16, d.get (kNumericsLevel p)), (16, 1), (256, 0)]

def Dev.setCkpt (d : Dev) (p : Nat) (c : Option Ckpt) : Dev := d.setBed p { d.bed p with ckpt := c }

/-- The sequence stops without a record (R384). -/
def Dev.stopCkpt (d : Dev) (p : Nat) : Dev :=
  if (d.bed p).ckpt.isSome then
    ((d.setCkpt p none).dropReqs (fun r => isCkpt p r.what)).put (kCkptState p) ckFailed
  else d

/-- An error response stops the sequence: its record and the warning (R380, R384). -/
def Dev.failCkpt (d : Dev) (p status : Nat) : Dev :=
  match (d.bed p).ckpt with
  | none => d
  | some c =>
    let d := (d.stopCkpt p).bump kCheckpointsFailed 1
    let d := d.record (atPart p) 0x506 1
      [(16, d.get (kCkptChip p)), (1, c.seq % 2), (8, status), (32, c.acked * 4096 / stripeBytes)]
    d.ckptWarn (atPart p) 8 d.lastSeq

def Dev.ckptWrite (d : Dev) (p addr : Nat) (r : Reply) : Dev × Option Reply :=
  d.request p (.ckpt p)
    { noHeader with dstChip := d.get (kCkptChip p), ptype := ptWrite, vl := vlReplay, offset := addr
                    poison := if r.lines = 0 then 0 else 1, byteEnOrLinePoison := r.lines } r.data

/-- Writes of one stripe: 48 of 64 lines. -/
def stripeWrites : Nat := 48

/-- The agent goes on until it must wait (R384). -/
def Dev.ckptPump : (fuel : Nat) → Dev → Nat → Dev
  | 0, d, _ => d
  | n + 1, d, p =>
    match (d.bed p).ckpt with
    | none => d
    | some c =>
      let rs := c.regions.map regionOf
      let base := d.ckptBase p c.seq
      let go := fun (d : Dev) (addr : Nat) (r : Reply) =>
        match d.ckptWrite p addr r with
        | (d, none) => Dev.ckptPump n d p
        | (d, some a) =>
          if a.status = stOk then
            match (d.bed p).ckpt with
            | some c => Dev.ckptPump n (d.setCkpt p (some { c with acked := c.acked + 1 })) p
            | none => d
          else d.failCkpt p a.status
      let sendRecord := fun (d : Dev) (w : Nat) =>
        go (d.setCkpt p (some { c with sent := c.sent + 1 })) (d.commitPlace p c.seq) { status := 0, data := toBytes w 128, lines := 0 }
      let state := d.get (kCkptState p)
      if state = ckInvalidating then
        if c.sent = 0 then sendRecord d 0
        else if c.acked = 0 then d
        else Dev.ckptPump n ((d.setCkpt p (some { c with sent := 0, acked := 0 })).put (kCkptState p) ckWriting) p
      else if state = ckWriting then
        if c.sent < stripeWrites * c.count then
          let j := c.first + c.sent / stripeWrites
          let at_ := 4096 * (c.sent % stripeWrites)
          if bulkWindow ≤ d.ckptFlight p ∨ d.bedHeld rs then d
          else if (d.bedLost rs).isSome then d.failCkpt p stLocal
          else
            let r := d.stateLines p c.fromWork [] (stripeAt rs j) at_ 64
            go (d.setCkpt p (some { c with sent := c.sent + 1, poisoned := c.poisoned + popcount r.lines 64 }))
              (base + stripeBytes * j + at_) r
        else if c.acked < c.sent then d
        else Dev.ckptPump n ((d.setCkpt p (some { c with sent := 0, acked := 0 })).put (kCkptState p) ckSealing) p
      else if c.sent = 0 then sendRecord d (d.commitBits p c)
      else if c.acked = 0 then d
      else ((d.setCkpt p none).put (kCkptState p) ckDone).bump kCheckpointsWritten 1

def Dev.ckptOn (d : Dev) (p : Nat) : Dev :=
  match (d.bed p).ckpt with
  | none => d
  | some c => if d.tearing p then d else Dev.ckptPump (2 * stripeWrites * c.count + 8) d p

/-- Bytes of a checkpoint area for so many regions, with its commit records (R383). -/
def areaNeeded (regions : List Nat) : Nat := stripeBytes * stripeCount (regions.map regionOf) + 8192

/-- The checkpoint due at the boundary entering a step starts as its snapshot completes (R381, R382); an area that cannot hold it
(R383) is not written (DESIGN CHOICE, log 147). -/
def Dev.startCkpt (d : Dev) (p step : Nat) (regions : List Nat) (fromWork : Bool) (digest : Nat) : Dev :=
  match (d.bed p).ckptDue with
  | none => d
  | some (s, seq) =>
    if s ≠ step then d
    else
      let d := d.setBed p { d.bed p with ckptDue := none }
      if d.get (kCkptChip p) = 0xFFFF then d
      else if d.get (kCkptAreaBytes p) < areaNeeded regions then d.put (kCkptState p) ckFailed
      else
        let total := stripeCount (regions.map regionOf)
        let first := d.dedupIndex * total / d.dedupSize
        let last := (d.dedupIndex + 1) * total / d.dedupSize
        let c : Ckpt := { step := step, seq := seq, first := first, count := last - first, total := total, regions := regions,
                          fromWork := fromWork, digest := digest, sent := 0, acked := 0, poisoned := 0 }
        ((d.setCkpt p (some c)).put (kCkptState p) ckInvalidating).ckptOn p

/-! BED_STREAM. -/

def isBedReq (p : Nat) : ReqFor → Bool
  | .bedWrite q => q = p
  | .digestRec q kind => q = p && kind = 3
  | _ => false

def Dev.bedFlight (d : Dev) (p : Nat) : Nat :=
  (d.fabric.reqs.filter (fun x => match x.2 with | some r => isBedReq p r.what | none => false)).length

def Dev.setRun (d : Dev) (p : Nat) (r : Option BedRun) : Dev := d.setBed p { d.bed p with run := r }

/-- The command at the head of a partition's bed queue leaves it. -/
def Dev.bedDone (d : Dev) (p : Nat) : Dev := d.setBed p { d.bed p with run := none, q := (d.bed p).q.drop 1 }

/-- A snapshot in overflow mode that copies nothing and leaves BED_STEP alone (R238). -/
def Dev.digestOnly (d : Dev) (r : BedRun) : Bool :=
  d.overflows (r.regions.map regionOf) && decide ((bedOf r.cmd.word).step % 2 = 1)

/-- A bed command is stopped: a snapshot that had begun to copy leaves no bed (R238, R439, R556). -/
def Dev.bedCutOff (d : Dev) (p : Nat) (r : BedRun) : Dev :=
  if (headerOf r.cmd.word).opcode = opSnapshot ∧ d.digestOnly r = false then d.put (kBedStep p) 0xFFFFFFFF else d

/-- R556, R439: a bed command in error stops; a stream writes no record. -/
def Dev.bedError (d : Dev) (p addr unit space write status : Nat) : Dev :=
  match (d.bed p).run with
  | none => d
  | some r =>
    let d := d.bedCutOff p r
    let d := (d.bedDone p).dropReqs (fun x => isBedReq p x.what)
    d.engineBusError r.cmd addr unit space write status

/-- The stream goes on: its writes within the window, then its record (R370, R377). -/
def Dev.streamPump : (fuel : Nat) → Dev → Nat → Dev
  | 0, d, _ => d
  | n + 1, d, p =>
    match (d.bed p).run with
    | none => d
    | some r =>
      let b := bedOf r.cmd.word
      let rs := r.regions.map regionOf
      if (headerOf r.cmd.word).opcode ≠ opStream then d
      else if r.sent < stripeWrites * stripeCount rs then
        let x := stripeAt rs (r.sent / stripeWrites)
        let at_ := 4096 * (r.sent % stripeWrites)
        if bulkWindow ≤ d.bedFlight p ∨ d.bedHeld rs then d
        else
          match d.bedLost rs with
          | some a => d.bedError p a 0 0 0 stLocal
          | none =>
            let l := d.stateLines p false r.bad x at_ 64
            match (d.setRun p (some { r with sent := r.sent + 1 })).request p (.bedWrite p)
              { noHeader with dstChip := b.destChip, ptype := ptWrite, vl := vlReplay, offset := x.1 + at_
                              poison := if l.lines = 0 then 0 else 1, byteEnOrLinePoison := l.lines } l.data with
            | (d, none) => Dev.streamPump n d p
            | (d, some a) => if a.status = stOk then Dev.streamPump n d p else d.bedError p (x.1 + at_) b.destChip 2 1 a.status
      else if r.record ∨ d.bedFlight p ≠ 0 then d
      else
        let rec_ : DigestRecord := { digest := d.stateDigestOf p false rs, step := b.step, src := d.chip, kind := 3
                                     poisoned := d.statePoisoned p false r.bad rs }
        match (d.setRun p (some { r with record := true })).sendDigest p b.destChip 2 3 rec_ with
        | (d, none) => d
        | (d, some a) =>
          if a.status = stOk then d.setRun p (some { r with record := true, acked := true })
          else d.bedError p (d.get (kDigestInbox p) + 256) b.destChip 2 1 a.status

def Dev.streamOn (d : Dev) (p : Nat) : Dev :=
  match (d.bed p).run with
  | none => d
  | some r => Dev.streamPump (stripeWrites * stripeCount (r.regions.map regionOf) + 2) d p

/-! Starting a bed command. -/

/-- The command takes the copy units (R158, R160, R237 to R239, R373, R375, R376). -/
def Dev.startBed (d : Dev) (p : Nat) (c : Cmd) : Dev :=
  let b := bedOf c.word
  let op := (headerOf c.word).opcode
  let n := 16 * b.regionCount
  match d.lostIn b.regionList n, d.poisonIn b.regionList n with
  | some a, _ =>
    let d := if op = opSnapshot then d.put (kBedStep p) 0xFFFFFFFF else d
    (d.bedDone p).engineBusError c a 0 0 0 stLocal
  | none, some a => ((d.bedDone p).faultChain c.k).consumePoison (d.whereCmd c) a 0 0 7
  | none, none =>
    let ws := d.readRegions b.regionList b.regionCount
    let rs := ws.map regionOf
    if d.badRegions p ws then (d.bedDone p).malformed c 148 0xFF
    else
      match d.bedShort p op rs with
      | some reason =>
        let d := if op = opSnapshot then
            (d.put (kBedStep p) 0xFFFFFFFF).setTrain p { d.train p with bedShort := true } else d
        (((d.bedDone p).record (d.whereCmd c) 0x108 2 [(4, reason), (32, needed rs), (32, d.bedPositions)]).faultChain
          c.k).voteIfDue p
      | none =>
        let d := if op = opSnapshot ∧ ¬ (d.overflows rs = true ∧ b.step % 2 = 1) then d.put (kBedStep p) 0xFFFFFFFF else d
        (d.setRun p (some { cmd := c, regions := ws, bad := [], sent := 0, record := false, acked := false })).streamOn p

/-- The head of a partition's queue could start: its wait is over, and no checkpoint holds a snapshot back (R376). -/
def Dev.bedReady (d : Dev) (p : Nat) : Option Cmd :=
  match (d.bed p).q with
  | [] => none
  | c :: _ =>
    let b := bedOf c.word
    if c.free ∧ ¬ ((headerOf c.word).opcode = opSnapshot ∧ (d.bed p).ckpt.isSome) ∧
        d.heldIn b.regionList (16 * b.regionCount) = false then some c else none

/-- R143: among the partitions ready, those with the lowest chain number, then the first from the rotating pointer. -/
def Dev.nextBed (d : Dev) : Option (Nat × Cmd) :=
  let ready := (List.range 4).filterMap (fun i =>
    let p := (d.training.bedPtr + i) % 4
    (d.bedReady p).map (fun c => (p, c)))
  ready.find? (fun x => ready.all (fun y => decide ((x.2.k.c : Nat) ≤ y.2.k.c)))

/-- One set of copy units serves all partitions (R121, R143). -/
def Dev.bedKick : (fuel : Nat) → Dev → Dev
  | 0, d => d
  | n + 1, d =>
    if (List.range 4).any (fun p => (d.bed p).run.isSome) then d
    else
      match d.nextBed with
      | none => d
      | some (p, c) =>
        Dev.bedKick n (Dev.startBed { d with training := { d.training with bedPtr := (p + 1) % 4 } } p c)

def Dev.kickBed (d : Dev) : Dev := Dev.bedKick 9 d

def Dev.issueBed (d : Dev) (c : Cmd) : Dev :=
  let p : Nat := c.k.p
  let b := bedOf c.word
  if d.orderOk c = false ∨ engineQueue ≤ (d.bed p).q.length then d
  else if d.inAlloc p b.regionList (16 * b.regionCount) = false then
    (d.accessViolation c b.regionList 0 0 0).settle c.k c.u
  else ((d.push c).setBed p { d.bed p with q := (d.bed p).q ++ [c] }).kickBed

def execBedSnapshot (k : ChainId) (u : Fin 96) (s : State) : Host.Outcome State Fault Refusal :=
  onDie (fun d => d.onWord k u opSnapshot Dev.issueBed) s

def execBedRestore (k : ChainId) (u : Fin 96) (s : State) : Host.Outcome State Fault Refusal :=
  onDie (fun d => d.onWord k u opRestore Dev.issueBed) s

def execBedStream (k : ChainId) (u : Fin 96) (s : State) : Host.Outcome State Fault Refusal :=
  onDie (fun d => d.onWord k u opStream Dev.issueBed) s

/-! Completion. -/

/-- A snapshot's end (R238, R371, R372, R375, R381). -/
def Dev.snapshotEnd (d : Dev) (p : Nat) (r : BedRun) : Dev :=
  let b := bedOf r.cmd.word
  let rs := r.regions.map regionOf
  let only := d.digestOnly r
  let bad := d.statePoisoned p true r.bad rs
  let dig := d.stateDigestOf p true rs
  let d := if only then d
    else
      let d := ((stripesOf rs).foldl (fun d x => d.copyStripe p false r.bad x) (d.clearRetained rs)).put (kBedStep p) b.step
      (d.setBed p { d.bed p with regions := r.regions, listAddr := b.regionList }).bump kSnapshots 1
  let d := d.setStateDigest p b.step bad dig
  let d := if d.digestStep p b.step ∧ d.fabric.coords.buddy ≠ 0xFFFF then
      (d.sendDigest p d.fabric.coords.buddy 0 1 { digest := dig, step := b.step, src := d.chip, kind := 1, poisoned := bad }).1
    else d
  d.startCkpt p b.step r.regions only dig

/-- The copy units end the command in hand, and the next may start (R375, R377). -/
def Dev.bedComplete (d : Dev) (p : Nat) : Dev :=
  match (d.bed p).run with
  | none => d
  | some r =>
    let b := bedOf r.cmd.word
    let op := (headerOf r.cmd.word).opcode
    let rs := r.regions.map regionOf
    if op = opStream then
      if r.acked = false then d
      else
        let d := d.setStateDigest p b.step (d.statePoisoned p false r.bad rs) (d.stateDigestOf p false rs)
        (((d.bedDone p).voteIfDue p).finish r.cmd none).kickBed
    else if d.bedHeld rs then d
    else
      match d.bedLost rs with
      | some a => (d.bedError p a 0 0 0 stLocal).kickBed
      | none =>
        let d := if op = opSnapshot then d.snapshotEnd p r
          else (stripesOf rs).foldl (fun d x => d.copyStripe p true r.bad x) d
        ((((d.bedDone p).voteIfDue p).finish r.cmd none).snapshotBoundary p).kickBed

def execBedComplete (p : Fin 4) (s : State) : Host.Outcome State Fault Refusal :=
  onDie (fun d => d.bedComplete p) s

/-! Answers. -/

def Dev.bedAnswer (d : Dev) (p status addr : Nat) : Dev :=
  match (d.bed p).run with
  | none => d
  | some r =>
    if status ≠ stOk then (d.bedError p addr (bedOf r.cmd.word).destChip 2 1 status).kickBed else d.streamOn p

/-- The STREAM record is acknowledged, or not. -/
def Dev.streamAnswer (d : Dev) (p status : Nat) : Dev :=
  match (d.bed p).run with
  | none => d
  | some r =>
    if status = stOk then d.setRun p (some { r with acked := true })
    else (d.bedError p (d.get (kDigestInbox p) + 256) (bedOf r.cmd.word).destChip 2 1 status).kickBed

def Dev.ckptAnswer (d : Dev) (p status : Nat) : Dev :=
  match (d.bed p).ckpt with
  | none => d
  | some c =>
    if status = stOk then ((d.setCkpt p (some { c with acked := c.acked + 1 })).ckptOn p).kickBed
    else (d.failCkpt p status).kickBed

end Sys2Proof.Machine
end

