-- ==== Sys2Proof/Machine/Waits.lean ====
section
/-! DEFINITION. Signals at their homes and waiting points (R127, R196 to R208): posting a wait, its release and its timeout. -/

namespace Sys2Proof.Machine

/-! Waiting points. -/

/-- The chain of a sequencer that is a waiting point, and its lift-relative bench (R201). -/
def Dev.pointChain (d : Dev) (w : Waiter) : Option (ChainId × Nat) :=
  let at_ := fun (e : Nat) (u : Nat) =>
    if h : e < 34 ∧ (w.sub : Nat) < 4 then some ((⟨w.p, ⟨e, h.1⟩, ⟨w.sub, h.2⟩⟩ : ChainId), u) else none
  match (w.kind : Nat) with
  | 0 =>
    match d.tenantAt w.unit with
    | some (p, l) =>
      if p ≠ w.p then none
      else
        match (List.range 16).find? (fun e => decide (d.liftFirst p e ≤ l) && decide (l < d.liftFirst p e + d.liftCount p e)) with
        | some e => at_ e (l - d.liftFirst p e)
        | none => none
    | none => none
  | 3 => at_ (16 + w.unit) 0
  | 5 => at_ 32 0
  | 7 => at_ 33 0
  | _ => none

/-- The command that stands at a waiting point: the incomplete control command of a sequencer, or the command at the head of
a unit's queue. -/
def Dev.pointCmd (d : Dev) (w : Waiter) : Option Cmd :=
  let mine := fun (c : Option Cmd) => c.filter (fun c => decide (c.k.p = w.p))
  match (w.kind : Nat) with
  | 1 => mine (d.bench w.unit).matQ.head?
  | 2 => mine (d.bench w.unit).vecQ.head?
  | 4 => if (d.chan w.unit w.sub).cur.isNone then mine (d.chan w.unit w.sub).queued else none
  | 6 => if (w.sub : Nat) = 0 ∧ (d.train w.p).hopper.isNone ∧ (d.train w.p).vote.isNone then (d.train w.p).xq.head? else none
  | 8 => if (d.bed w.p).run.isNone then (d.bed w.p).q.head? else none
  | _ =>
    match d.pointChain w with
    | some (k, u) => (d.cursor k u).ctl
    | none => none

/-- What a wait asks for (R126, R148, R205): kind, virtual tally, threshold and timeout, and the bit of its tally field. -/
structure WaitSpec where
  kind : Nat
  vt : Nat
  thresh : Nat
  timeout : Nat
  bit : Nat
  deriving DecidableEq, Repr

/-- The wait a command still needs: that of its header, then that of a WAIT. -/
def Dev.waitSpec (d : Dev) (c : Cmd) : Option WaitSpec :=
  let h := headerOf c.word
  let dflt := (d.takenOf c.k).2
  if c.free = false then
    some { kind := h.waitKind, vt := h.waitTally, thresh := h.waitThresh, timeout := if h.waitTo = 0 then dflt else h.waitTo * 1000
           bit := 41 }
  else if h.opcode = opWait then
    let b := waitOf c.word
    some { kind := b.kind, vt := b.tally, thresh := b.thresh, timeout := if b.timeoutNs = 0 then dflt else b.timeoutNs, bit := 178 }
  else none

/-- The command at a waiting point leaves it without being started (R206). -/
def Dev.dropPoint (d : Dev) (w : Waiter) (c : Cmd) : Dev :=
  match (w.kind : Nat) with
  | 1 => (d.setBench w.unit { d.bench w.unit with matQ := (d.bench w.unit).matQ.drop 1 }).kickBench w.unit
  | 2 => (d.setBench w.unit { d.bench w.unit with vecQ := (d.bench w.unit).vecQ.drop 1 }).kickBench w.unit
  | 4 => d.dropQueued w.unit w.sub
  | 6 => (d.xqDone w.p).kickExchange w.p
  | 8 => (d.bedDone w.p).kickBed
  | _ => d.dropCtl c.k c.u

/-- The wait at a point ends without its release: the record, the chain FAULTED, the command not started (R199, R206, R207). -/
def Dev.endWait (d : Dev) (w : Waiter) (c : Cmd) : Dev :=
  let x := d.waitAt (pointId w)
  let t := d.tally x.pt
  let d := (d.bump kTallyTimeouts 1).record (d.whereCmd c) 0x201 2
    [(12, x.vt), (14, x.pt), (16, (pointId w)), (2, x.kind), (32, x.thresh), (64, x.timeout), (32, t.count), (1, b2n t.overflowed),
     (64, x.postedAt)]
  ((d.setWait (pointId w) Wait.none).faultChain c.k).dropPoint w c

/-- The waiting point of an identifier. -/
def pointOf (id : Nat) : Waiter :=
  { kind := ⟨id / 4096 % 16, Nat.mod_lt _ (by decide)⟩, unit := ⟨id / 32 % 128, Nat.mod_lt _ (by decide)⟩,
    sub := ⟨id / 4 % 8, Nat.mod_lt _ (by decide)⟩, p := ⟨id % 4, Nat.mod_lt _ (by decide)⟩ }

/-- Every wait that an OVERFLOWED tally has ended leaves its point at once (R199). -/
def Dev.endMarked (d : Dev) : Dev :=
  (d.tallies.waits.filter (fun x => x.2.ended && decide (x.1 < 65536))).foldl (fun d x =>
    match d.pointCmd (pointOf x.1) with
    | none => d
    | some c => d.endWait (pointOf x.1) c) d

/-- The n-th signal on its way reaches its home (R203, R204); a SIGNAL completes there (R196). One of an old epoch is dropped and
counted (R214), its command complete (DEDUCED, log 138). -/
def Dev.tallySignal (d : Dev) (n : Nat) : Dev :=
  match d.tallies.flight[n]? with
  | none => d
  | some s =>
    let d := { d with tallies := { d.tallies with flight := d.tallies.flight.eraseIdx n } }
    let d := if s.epoch = d.get (kPartEpoch s.p) then d.applySignal s else d.bump kStaleSignals 1
    let d := match s.cmd with
      | some c => if s.completes then (d.ctlDone c).settle c.k c.u else d
      | none => d
    d.endMarked

def execTallySignal (n : Nat) (s : State) : Host.Outcome State Fault Refusal :=
  onDie (fun d => d.tallySignal n) s

/-- ARRIVE; the release of a local barrier may take its tally beyond its range (R199, R222). -/
def execArrive (p : Fin 4) (slot : Fin 64) (s : State) : Host.Outcome State Fault Refusal :=
  onDie (fun d => (d.arrive p slot).endMarked) s

/-- WAIT_POST (R202): evaluated at once; on an OVERFLOWED tally it ends at once (R199). -/
def Dev.waitPost (d : Dev) (w : Waiter) : Dev :=
  if d.posted (pointId w) ∨ d.tearing w.p then d
  else
    match d.pointCmd w with
    | none => d
    | some c =>
      match d.waitSpec c with
      | none => d
      | some x =>
        match d.phys w.p x.vt with
        | none => (d.malformed c x.bit 0xFF).dropPoint w c
        | some t =>
          ((d.setWait (pointId w)
            { vt := x.vt, pt := t, kind := x.kind, thresh := x.thresh, timeout := x.timeout, postedAt := d.time, latch := false
              ended := (d.tally t).overflowed }).evaluate t).endMarked

def execWaitPost (w : Waiter) (s : State) : Host.Outcome State Fault Refusal :=
  onDie (fun d => d.waitPost w) s

/-- The released command starts, or takes its place as the next to start (R127). -/
def Dev.startPoint (d : Dev) (w : Waiter) (c : Cmd) : Dev :=
  let go := { c with released := true }
  match (w.kind : Nat) with
  | 1 => (d.setBench w.unit { d.bench w.unit with matQ := go :: (d.bench w.unit).matQ.drop 1 }).kickBench w.unit
  | 2 => (d.setBench w.unit { d.bench w.unit with vecQ := go :: (d.bench w.unit).vecQ.drop 1 }).kickBench w.unit
  | 4 => (d.setChan w.unit w.sub { d.chan w.unit w.sub with queued := some go }).kickHaul w.unit w.sub
  | 6 => (d.setTrain w.p { d.train w.p with xq := go :: (d.train w.p).xq.drop 1 }).kickExchange w.p
  | 8 => (d.setBed w.p { d.bed w.p with q := go :: (d.bed w.p).q.drop 1 }).kickBed
  | _ => if c.free then d.ctlRan c else d.runCtl c

def Dev.waitRelease (d : Dev) (w : Waiter) : Dev :=
  if (w.kind : Nat) = 6 ∧ (w.sub : Nat) = 1 then d.takeStock w.p
  else if (d.waitAt (pointId w)).latch = false ∨ d.tearing w.p then d
  else
    match d.pointCmd w with
    | none => d.setWait (pointId w) Wait.none
    | some c => if d.ctlHeld c then d else (d.setWait (pointId w) Wait.none).startPoint w c

def execWaitRelease (w : Waiter) (s : State) : Host.Outcome State Fault Refusal :=
  onDie (fun d => d.waitRelease w) s

/-- TALLY_TIMEOUT (R206, R207). -/
def Dev.tallyTimeout (d : Dev) (w : Waiter) : Dev :=
  let x := d.waitAt (pointId w)
  if d.posted (pointId w) = false ∨ x.latch ∨ (x.ended = false ∧ d.time < x.postedAt + x.timeout) then d
  else
    match d.pointCmd w with
    | none => d
    | some c => d.endWait w c

def execTallyTimeout (w : Waiter) (s : State) : Host.Outcome State Fault Refusal :=
  onDie (fun d => d.tallyTimeout w) s

end Sys2Proof.Machine
end

