-- ==== Sys2Proof/Machine/Controller.lean ====
section
/-! DEFINITION. The memory controllers: errors of an access (R246 to R248), rows that fail (R249 to R256), retraining, loss and
relief (R260 to R269), and the traffic generator (R270 to R274). A row keeps its contents under its own positions, whether a
spare serves it or not. -/

namespace Sys2Proof.Machine

/-- The answer reaches the unit whose request it is (R187, R294, R556). -/
def Dev.dispatch (d : Dev) (r : Req) (a : Reply) : Dev :=
  let h := packetHeader r.pkt
  match r.what with
  | .haulWrite _ _ _ _ => d.haulAnswer r.what a
  | .haulRead _ _ _ => d.haulAnswer r.what a
  | .haulReadback _ _ => d.haulAnswer r.what a
  | .signal c => ((if a.status = stOk then d.ctlDone c else d.signalError c a.status)).settle c.k c.u
  | .exchange p => (d.exchangeAnswer p r.pkt a.status).kickExchange p
  | .bedWrite p => d.bedAnswer p a.status h.offset
  | .digestRec p kind =>
    if kind = 2 then if a.status = stOk then d.recordSent p else (d.recordFailed p a.status).kickExchange p
    else if kind = 3 then d.streamAnswer p a.status else d
  | .mirror p step lines => (d.mirrorAnswer p step lines a.status).mirrorOn p
  | .ckpt p => d.ckptAnswer p a.status

/-! Accesses that waited. -/

/-- Marks of the lines of a reader's range that came back poisoned to it (R247), and the note of them gone. -/
def Dev.carry (d : Dev) (who : Requester) (off n : Nat) : NSet × Dev :=
  let mine := fun (x : Requester × Nat) => decide (x.1 = who) && decide (off ≤ x.2) && decide (x.2 < off + n)
  ((d.mem.carried.filter mine).map (fun x => (x.2 - off) / 64),
    { d with mem := { d.mem with carried := d.mem.carried.filter (fun x => !mine x) } })

/-- The requester that a port is. -/
def portRequester (n : Nat) : Requester := .fabric ⟨n % 16, Nat.mod_lt _ (by decide)⟩

/-- A request that came in at a port is performed and answered (R292, R294, R338); what a read met beside the array it carries. -/
def Dev.servePort (d : Dev) (n p : Nat) (pkt : Packet) : Dev :=
  let h := packetHeader pkt
  if h.ptype = ptExchange then
    let r := d.exchangeServe p h pkt.payload
    r.1.respond n h r.2
  else
    let r := d.serve false p h pkt.payload
    if h.ptype = ptReadReq ∧ r.2.status = stOk then
      let c := r.1.carry (portRequester n) h.offset (64 * (h.linesM1 + 1))
      c.2.respond n h { r.2 with lines := c.1.foldl (fun w i => w ||| 2 ^ i) r.2.lines }
    else (r.1.respond n h r.2).endMarked

/-- The packet belongs to the partition's binding and epoch still. -/
def Dev.stillBound (d : Dev) (p : Nat) (pkt : Packet) : Bool :=
  let h := packetHeader pkt
  decide (d.boundTo h.mpart = some p) && decide (h.epoch = d.get (kPartEpoch p))

/-- A host access reaches memory (R480); a read of a poisoned line answers with EP, and an AER error is logged (R258). A LOST
pseudo-channel answers as an Unsupported Request (DEDUCED, log 55). -/
def Dev.hostAccess (d : Dev) (off len : Nat) (op : Bar2Op) : Dev :=
  if (d.lostIn off len).isSome then d.send .bar2Unsupported
  else
    match op with
    | .read _ =>
      let c := d.carry .host (off / 64 * 64) (off + len - off / 64 * 64)
      let bad := decide (c.1 ≠ []) || (d.poisonIn off len).isSome
      let d := c.2.send (.bar2 (d.readMem off len) bad)
      if bad then { d with mgmt := { d.mgmt with aer := d.mgmt.aer + 1 } } else d
    | .write l => d.writeMem off l false

/-- An access that waited is performed; what it was for may have gone meanwhile (DEDUCED, log 143). -/
def Dev.release1 (d : Dev) (x : Held) : Dev :=
  match x.what with
  | .port n p pkt own shared =>
    (if d.stillBound p pkt then d.servePort n p pkt else d).leaveBuffer n (packetHeader pkt).vl own shared
  | .own tag p pkt =>
    match d.req tag with
    | none => d
    | some r =>
      if r.pkt ≠ pkt ∨ r.port ≠ ownPort then d
      else
        let a := d.serve true p (packetHeader pkt) pkt.payload
        (a.1.setReq tag none).dispatch r a.2
  | .host op => d.hostAccess x.off x.len op
  | .stage p bs =>
    match d.lostIn x.off x.len with
    | some a => d.hopperError p a 0 0 1 stLocal
    | none => d.writeMem x.off bs false
  | .outcome c w => d.outcomeWord c w
  | .post bs => if (d.lostIn x.off x.len).isSome then d else d.writeMem x.off bs false

/-- Every access that is held no more is performed, in the order of arrival; the others keep their places (R245). -/
def Dev.releaseHeld (d : Dev) : Dev :=
  d.mem.held.foldl (fun d x =>
      if d.blocked x.off x.len then { d with mem := { d.mem with held := d.mem.held ++ [x] } } else d.release1 x)
    { d with mem := { d.mem with held := [] } }

/-- Accesses are released, or meet a LOST pseudo-channel: those that wait are performed, then every unit with work in hand goes
on (R245, R262, R263; DEDUCED, log 143). -/
def Dev.wakeMemory (d : Dev) : Dev :=
  let d := d.releaseHeld
  let d := (List.range 4).foldl (fun d p => (((d.kickExchange p).mirrorOn p).streamOn p).ckptOn p) d.kickHauls
  d.kickBed

def Dev.setPc (d : Dev) (c : Nat) (v : PcState) : Dev :=
  { d with mem := { d.mem with pcState := SMap.set PcState.online d.mem.pcState c v } }

/-- A checkpoint warning of a stack, once per cause between module resets (R256). -/
def Dev.warnStack (d : Dev) (s cause related : Nat) : Dev :=
  if NSet.mem d.mem.warned (16 * s + cause) then d
  else Dev.ckptWarn { d with mem := { d.mem with warned := NSet.add d.mem.warned (16 * s + cause) } } (atSite s) cause related

/-! Retraining. -/

def retrainAllow : Nat := 40000

/-- A pseudo-channel of the stack retrains. -/
def Dev.stackRetrains (d : Dev) (s : Nat) : Bool :=
  (List.range 64).any (fun k => decide (d.pc (12 * k + s) = .retraining))

def Dev.enterRetrain (d : Dev) (c : Nat) : Dev :=
  let d := d.setPc c .retraining
  { d with mem := { d.mem with retrainAt := SMap.set 0 d.mem.retrainAt c d.time } }

/-- R261: one pseudo-channel of a stack retrains at a time; another trigger waits. -/
def Dev.retrain (d : Dev) (c : Nat) : Dev :=
  if d.pc c ≠ .online then d
  else if d.stackRetrains (c % 12) then
    if d.mem.retrainWaiting.contains c then d
    else { d with mem := { d.mem with retrainWaiting := d.mem.retrainWaiting ++ [c] } }
  else d.enterRetrain c

/-- The next retrain that waits in a stack begins. -/
def Dev.nextRetrain (d : Dev) (s : Nat) : Dev :=
  match d.mem.retrainWaiting.find? (fun c => decide (c % 12 = s)) with
  | none => d
  | some c => Dev.retrain { d with mem := { d.mem with retrainWaiting := d.mem.retrainWaiting.erase c } } c

/-- Every armed gauge is credited with the hold (R262). -/
def Dev.creditGauges (d : Dev) (hold : Nat) : Dev :=
  { d with seqs := { d.seqs with gauges := d.seqs.gauges.map (fun g =>
      (g.1, g.2.map (fun (s : Seg) => { s with deadline := s.deadline + hold, extended := s.extended + hold }))) } }

/-- A hold ends: its record, its counts and its credit (R262, R263). -/
def Dev.holdEnds (d : Dev) (c : Nat) (ok : Bool) : Dev :=
  let hold := min (d.time - SMap.get 0 d.mem.retrainAt c) retrainAllow
  let d := { d with mem := { d.mem with retrainAt := SMap.set 0 d.mem.retrainAt c 0 } }
  let d := (d.bump kMemRetrains 1).bump kMemRetrainHoldNs hold
  (d.record (atSite (c % 12)) 0x305 0 [(6, c / 12), (32, hold), (1, b2n ok)]).creditGauges hold

/-- The pseudo-channel of a line. -/
def lineChannel (l : Nat) : Nat := l / (positions * 4)

/-- The bytes of a write reach the array (R257). -/
def Dev.storeLine (d : Dev) (l : Nat) (data be : Nat) (poison : Bool) : Dev :=
  let hbm := ((List.range 64).filter (fun i => bit be i)).foldl
    (fun m i => Memory.setByte m (64 * l + i) (BitVec.ofNat 8 (data >>> (8 * i)))) d.mem.hbm
  let marks := if poison then NSet.add d.mem.poison l else if be = 2 ^ 64 - 1 then NSet.del d.mem.poison l else d.mem.poison
  { d with mem := { d.mem with hbm := hbm, poison := marks } }

/-- The writes that exhausted parity holds in a pseudo-channel: line, data, byte enables. -/
def Dev.writesHeld (d : Dev) (c : Nat) : List (Nat × Nat × Nat) :=
  d.mem.heldWrites.filterMap (fun x => if lineChannel x.1 = c then x.2.map (fun w => (x.1, w.1, w.2)) else none)

/-- They are held no more. -/
def Dev.dropWrites (d : Dev) (c : Nat) : Dev :=
  { d with mem := { d.mem with heldWrites := d.mem.heldWrites.filter (fun x => decide (lineChannel x.1 ≠ c)) } }

/-- CHANNEL_RETRAIN (R262): held writes of exhausted parity are stored, poisoned (R247). -/
def Dev.channelRetrain (d : Dev) (c : Nat) : Dev :=
  if d.pc c ≠ .retraining ∨ SMap.get 0 d.mem.retrainAt c + retrainAllow < d.time then d
  else
    let d := (d.holdEnds c true).setPc c .online
    let d := (d.writesHeld c).foldl (fun d w => d.storeLine w.1 w.2.1 w.2.2 true) (d.dropWrites c)
    (d.nextRetrain (c % 12)).wakeMemory

def execChannelRetrain (s : Fin 12) (k : Fin 64) (st : State) : Host.Outcome State Fault Refusal :=
  onDie (fun d => d.channelRetrain (12 * k + s)) st

/-! Loss and relief. -/

/-- Relief of a stack is on, or wanted. -/
def Dev.reliefTaken (d : Dev) (s : Nat) : Bool :=
  decide (d.get (kRelievedPc s) < 64) || decide (SMap.get none d.mem.reliefWanted s ≠ none)

/-- R268: a pseudo-channel is LOST beside the one that is relieved or waits for relief. -/
def Dev.degraded (d : Dev) : Bool :=
  (List.range 12).any (fun s => d.reliefTaken s && (List.range 64).any (fun k =>
    decide (d.pc (12 * k + s) = .lost) && decide (d.get (kRelievedPc s) ≠ k) &&
    decide (SMap.get none d.mem.reliefWanted s ≠ some k)))

/-- A loss fails every vote not yet sent, and marks the step of one that was (R263, R266). -/
def Dev.lossVotes (d : Dev) (seq : Nat) : Dev :=
  (List.range 4).foldl (fun d p =>
    let d := d.setTrain p { d.train p with commitSeen := false }
    match d.stepInFlight p with
    | none => d
    | some n =>
      if d.voted p n then d.setTrain p { d.train p with lossAt := some (n, seq) }
      else (d.setTrain p { d.train p with chanLost := true }).voteIfDue p) d

/-- CHANNEL_LOST (R263, R268). -/
def Dev.channelLost (d : Dev) (s k : Nat) : Dev :=
  let c := 12 * k + s
  if d.pc c ≠ .retraining ∨ d.time < SMap.get 0 d.mem.retrainAt c + retrainAllow then d
  else
    let second := d.reliefTaken s
    let d := ((d.holdEnds c false).setPc c .lost).dropWrites c
    let d := d.record (atSite s) 0x306 3 [(6, k)]
    let seq := d.lastSeq
    let d := d.warnStack s 4 d.lastSeq
    let d := if second then
        let d := d.record (atSite s) 0x308 5 [(6, k)]
        let cause := d.lastSeq
        (List.range 4).foldl (fun d p => d.faultTeardown p 0x308 cause) d
      else { d with mem := { d.mem with reliefWanted := SMap.set none d.mem.reliefWanted s (some k) } }
    ((d.lossVotes seq).nextRetrain s).wakeMemory

def execChannelLost (s : Fin 12) (k : Fin 64) (st : State) : Host.Outcome State Fault Refusal :=
  onDie (fun d => d.channelLost s k) st

/-- A partition has no armed gauge. -/
def Dev.ungauged (d : Dev) (p : Nat) : Bool := d.seqs.gauges.all (fun g => decide (g.1 / 136 ≠ p))

/-- R264: an ADMITTED partition has reached a commit point since the loss. -/
def Dev.commitPoint (d : Dev) (p : Nat) : Bool :=
  decide (d.pState p ≠ psAdmitted) || (if d.isTraining p then (d.train p).commitSeen else d.ungauged p)

/-- RELIEF_SWITCH (R264). -/
def Dev.reliefSwitch (d : Dev) (s : Nat) : Dev :=
  match SMap.get none d.mem.reliefWanted s with
  | none => d
  | some k =>
    if (List.range 4).any (fun p => !d.commitPoint p) then d
    else
      let d := d.put (kRelievedPc s) k
      { d with mem := { d.mem with reliefWanted := SMap.set none d.mem.reliefWanted s none
                                   populating := NSet.add d.mem.populating s } }

def execReliefSwitch (s : Fin 12) (st : State) : Host.Outcome State Fault Refusal :=
  onDie (fun d => d.reliefSwitch s) st

/-- Stripes of the last confirmed snapshot of a partition, stripe index and bed position; none where its bed is not whole. -/
def Dev.confirmed (d : Dev) (p : Nat) : List (Nat × Nat) :=
  if d.get (kBedStep p) = 0xFFFFFFFF then []
  else (stripesOf ((d.bed p).regions.map regionOf)).map (fun x => (x.1 / stripeBytes, x.2))

/-- R265, 2: the working state of the partition equals its snapshot. -/
def Dev.stateHeld (d : Dev) (p : Nat) : Bool :=
  decide (d.pState p = psAdmitted) && decide (d.get (kStepBlockAddr p) ≠ 0) &&
  (let o := fld (d.stepBlock p) 447 440
   decide (o = oSkip) || decide (o = oAbort))

/-- One granule goes from place to place as memory `m` holds it, with the marks of its four lines. -/
def Dev.copyPlace (d : Dev) (m : Mem) (src dst : Nat × Nat × Nat) : Dev :=
  let a := posKey src.1 src.2.1 src.2.2 0
  let z := posKey dst.1 dst.2.1 dst.2.2 0
  { d with mem := { d.mem with
      hbm := d.mem.hbm.setBytes z ((List.range 256).map (fun i => Memory.byte m.hbm (a + i)))
      poison := (List.range 4).foldl (fun l i => NSet.put l (z / 64 + i) (NSet.mem m.poison (a / 64 + i))) d.mem.poison } }

/-- A granule is written poisoned, its data free (log 19). -/
def Dev.poisonPlace (d : Dev) (dst : Nat × Nat × Nat) : Dev :=
  let n := d.draws
  let d := { d with draws := n + 1 }
  let k := posKey dst.1 dst.2.1 dst.2.2 0
  { d with mem := { d.mem with
      hbm := d.mem.hbm.setBytes k ((List.range 256).map (fun i => Config.freeByte n i))
      poison := (List.range 4).foldl (fun m i => NSet.add m (k / 64 + i)) d.mem.poison } }

/-- BED_POSITIONS as it stood before the relief of stack `s`: its images lie below. -/
def Dev.bedBefore (d : Dev) (s : Nat) : Nat :=
  if (List.range 12).any (fun i => decide (i ≠ s) && decide (d.get (kRelievedPc i) < 64)) then d.qb - d.rq else d.qb

/-- Some image of the partition lies outside the bed that the relief leaves, so it is whole no more (R237, R265, R375). -/
def Dev.bedCut (d : Dev) (p : Nat) : Bool := (d.confirmed p).any (fun x => decide (d.bedPositions ≤ x.2))

/-- What R265 writes at position x of a relieved pseudo-channel: none for poison. -/
def Dev.reliefSource (d : Dev) (s k x : Nat) : Option (Nat × Nat × Nat) :=
  let other := (k + 32) % 64
  let bed := d.bedBefore s
  if x < d.qw then
    (List.range 4).findSome? (fun p =>
      ((d.confirmed p).find? (fun y => decide (y.1 = x) && decide (y.2 < bed))).map (fun y => (s, other, d.qw + y.2)))
  else
    (List.range 4).findSome? (fun p =>
      if d.stateHeld p then ((d.confirmed p).find? (fun y => decide (d.qw + y.2 = x) && decide (y.2 < bed))).map (fun y => (s, other, y.1)) else none)

/-- A pseudo-channel takes a state, after the run of the traffic generator where it is in TEST (R270). -/
def Dev.becomes (d : Dev) (c : Nat) (v : PcState) : Dev :=
  if d.pc c = .test then { d with mem := { d.mem with pcBefore := SMap.set PcState.online d.mem.pcBefore c v } } else d.setPc c v

/-- CHANNEL_RELIEVED (R265, R375). -/
def Dev.channelRelieved (d : Dev) (s : Nat) : Dev :=
  if NSet.mem d.mem.populating s = false then d
  else
    let k := d.get (kRelievedPc s)
    let total := d.qw + d.qb
    let lost := (List.range 4).filter (fun p => decide (d.confirmed p ≠ []) && (!d.stateHeld p || d.bedCut p))
    let src := (List.range total).map (fun x => (x, d.reliefSource s k x))
    let bad := (src.filter (fun x => x.2.isNone)).length
    let m := d.mem
    let d := src.foldl (fun d x =>
      match x.2 with
      | some y => d.copyPlace m y (d.place s k x.1)
      | none => d.poisonPlace (d.place s k x.1)) d
    let d := lost.foldl (fun d p => d.put (kBedStep p) 0xFFFFFFFF) d
    let d := Dev.becomes { d with mem := { d.mem with populating := NSet.del d.mem.populating s } } (12 * k + s) .relieved
    (d.record (atSite s) 0x307 0
      [(6, k), (32, d.bedPositions), (32, bad), (4, (lost.map (fun p => 2 ^ p)).sum)]).wakeMemory

def execChannelRelieved (s : Fin 12) (st : State) : Host.Outcome State Fault Refusal :=
  onDie (fun d => d.channelRelieved s) st

/-! Rows that fail. -/

/-- Spares of a pool in use, and the next one. -/
def Dev.sparesIn (d : Dev) (c : Nat) : NSet := SMap.get [] d.mem.sparesUsed c
def Dev.freeSpare (d : Dev) (c : Nat) : Nat := ((List.range 64).find? (fun i => !NSet.mem (d.sparesIn c) i)).getD 0

/-- The positions a row holds (R231). -/
def rowPositions (bank row : Nat) : List Nat :=
  (List.range 4).map (fun i => 256 * row + 4 * (bank ^^^ (row % 64)) + i)

/-- The units retired with a row (R253): a marker for a bed quad, and the quad. -/
def Dev.quadsOf (d : Dev) (s k bank row : Nat) : List (Bool × Nat) :=
  let unit := fun (x : Nat) => if x < d.qw then some (false, x / 4) else if x < d.qw + d.qb then some (true, (x - d.qw) / 4) else none
  let kr := d.get (kRelievedPc s)
  let first := d.qw + d.qb - d.rq
  let units := (rowPositions bank row).filterMap (fun x =>
    if kr < 64 ∧ kr ≠ k ∧ first ≤ x ∧ x < d.qw + d.qb
    then unit (63 * (x - first) + if k < kr then k else k - 1) else unit x)
  units.dedup

/-- *RETIRED_PAGES entry*. -/
def retiredEntry (s k cause : Nat) (q : Bool × Nat) : Nat :=
  pack [(1, b2n q.1), (7, 0), (4, s), (6, k), (6, cause), (40, q.2)]

/-- R252 to R254, R256. -/
def Dev.retireRow (d : Dev) (s k bank row cause : Nat) : Dev :=
  let es := ((d.quadsOf s k bank row).map (retiredEntry s k cause)).filter (fun e => !d.mem.retired.contains e)
  es.foldl (fun d e =>
    let d := { d with mem := { d.mem with retired := (d.mem.retired ++ [e]).take 4096 } }
    let d := d.record (atSite s) 0x303 0 [(64, e)]
    d.warnStack s 3 d.lastSeq) d

/-- Spares of a pool that are in use or promised to a row whose copy is under way. -/
def Dev.sparesTaken (d : Dev) (c : Nat) : Nat :=
  (d.sparesIn c).length + (d.mem.remapping.filter (fun x => x.2.isSome && decide (x.1 / 786432 = c))).length

/-- A row meets a trigger of R249: it is held for its copy, or retired. -/
def Dev.remapRow (d : Dev) (s k bank row trigger : Nat) : Dev :=
  let key := rowKey s k bank row
  let again := decide (SMap.get none d.mem.softRemap key ≠ none)
  if SMap.get none d.mem.remapping key ≠ none then d
  else if 64 ≤ d.sparesTaken (12 * k + s) then d.retireRow s k bank row 1
  else if again = true ∧ d.get kRemapBudget ≤ d.get (kRemapRepeats s) then d.retireRow s k bank row 2
  else { d with mem := { d.mem with remapping := SMap.set none d.mem.remapping key (some (b2n again, trigger)) } }

def threeQuarters (n limit : Nat) : Bool := decide (3 * limit ≤ 4 * n)

/-- The warnings a remap may raise (R256). -/
def Dev.remapWarn (d : Dev) (s c again : Nat) : Dev :=
  let remap := d.lastSeq
  let d := if again = 1 ∧ threeQuarters (d.get (kRemapRepeats s)) (d.get kRemapBudget) = true then d.warnStack s 1 remap else d
  if 48 ≤ (d.sparesIn c).length then d.warnStack s 2 remap else d

/-- ROW_REMAPPED (R250, R251, R256). -/
def Dev.rowRemapped (d : Dev) (s k bank row : Nat) : Dev :=
  let key := rowKey s k bank row
  let c := 12 * k + s
  match SMap.get none d.mem.remapping key with
  | none => d
  | some (again, trigger) =>
    -- a row of the pool that fails serves as a spare no more
    let d := if row = 12287 then
        { d with mem := { d.mem with sparesUsed := SMap.set [] d.mem.sparesUsed c (NSet.add (d.sparesIn c) bank) } } else d
    let spare := d.freeSpare c
    let pending := d.mem.pendingRepairs.contains key
    let d := { d with mem := { d.mem with
      remapping := SMap.set none d.mem.remapping key none
      softRemap := SMap.set none d.mem.softRemap key (some spare)
      sparesUsed := SMap.set [] d.mem.sparesUsed c (NSet.add (d.sparesIn c) spare)
      rowCe := SMap.set 0 d.mem.rowCe key 0
      pendingRepairs := if pending then d.mem.pendingRepairs else d.mem.pendingRepairs ++ [key] } }
    let d := d.bump kMemSoftRemaps 1
    let d := if again = 1 then d.put (kRemapRepeats s) (min (d.get (kRemapRepeats s) + 1) 65535)
      else d.put (kSoftRemapUsed s) (d.get (kSoftRemapUsed s) + 1)
    let d := if pending then d else d.put (kPendingHardRepairs s) (d.get (kPendingHardRepairs s) + 1)
    let d := d.record (atSite s) 0x302 0 [(6, k), (6, bank), (14, row), (6, spare), (1, again), (1, trigger)]
    (d.remapWarn s c again).wakeMemory

def execRowRemapped (s : Fin 12) (k : Fin 64) (bank : Fin 64) (row : Fin 12288) (st : State) :
    Host.Outcome State Fault Refusal :=
  onDie (fun d => d.rowRemapped s k bank row) st

/-! One access. -/

/-- *Memory error handling*: MEM_UNCORRECTABLE with its record. -/
def Dev.uncorrectable (d : Dev) (s k x acc cause : Nat) : Dev :=
  (d.bump kMemUncorrectable 1).record (atSite s) 0x301 0
    [(6, k), (6, bankOf x), (14, rowOf x), (4, 4 * (x % 4) + acc), (2, cause)]

/-- Interface parity errors: counted, and 16 on one pseudo-channel within 1 ms start a retrain (R247, R261). -/
def Dev.parityErrors (d : Dev) (c n retries : Nat) : Dev :=
  let d := d.bump kMemParityRetries retries
  let recent := (SMap.get [] d.mem.parityTimes c).filter (fun t => decide (d.time < t + 1000000))
  let times := (recent ++ List.replicate n d.time)
  if 16 ≤ times.length then
    Dev.retrain { d with mem := { d.mem with parityTimes := SMap.set [] d.mem.parityTimes c [] } } c
  else { d with mem := { d.mem with parityTimes := SMap.set [] d.mem.parityTimes c times } }

/-- A correction by the outer code (R247, R249, R368). -/
def Dev.outerCorrected (d : Dev) (s k x : Nat) : Dev :=
  let key := rowKey s k (bankOf x) (rowOf x)
  let n := SMap.get 0 d.mem.rowCe key + 1
  let d := d.bump kMemOuterCorrected 1
  let d := { d with mem := { d.mem with rowCe := SMap.set 0 d.mem.rowCe key n } }
  let d := if d.get kRowCeLimit ≤ n then d.remapRow s k (bankOf x) (rowOf x) 1 else d
  d.ceTrigger

/-- R246: one symbol in error, or both symbols of one pin, can be corrected. -/
def correctable (bad : List (Fin 68)) : Bool :=
  let l := rising (bad.map (fun x => x.val))
  decide (l.length ≤ 1) || decide (l.length = 2 ∧ l.all (fun i => decide (i < 64)) ∧ (l.map (· / 2)).dedup.length = 1)

/-- What the codes and the parity report of one line at a place, beside the data (R246 to R249). `wr`: the data and byte enables of a write. -/
def Dev.lineEvent (d : Dev) (s k x acc : Nat) (wr : Option (Nat × Nat)) (scrub : Bool) (ev : MemEvent) : Dev :=
  let c := 12 * k + s
  let l := posKey s k x (64 * acc) / 64
  match ev with
  | .clean => d
  | .parity n => d.parityErrors c n n
  | .parityExhausted =>
    let d := ((d.parityErrors c 5 4).uncorrectable s k x acc (if wr.isSome then 2 else 1)).retrain c
    match wr with
    | some w => { d with mem := { d.mem with heldWrites := SMap.set none d.mem.heldWrites l (some w) } }
    | none => d
  | .innerCorrected => d.bump kMemInnerCorrected 1
  | .symbols [] => d
  | .symbols bad =>
    if correctable bad then d.outerCorrected s k x
    else
      let d := d.uncorrectable s k x acc (if scrub then 3 else 0)
      Dev.remapRow { d with mem := { d.mem with poison := NSet.add d.mem.poison l } } s k (bankOf x) (rowOf x) 0

/-- A line came back poisoned though the array does not hold it so (R247): carried or consumed by its reader (R258). A fabric
port and the host carry it in the answer they form next from that line. -/
def Dev.readPoisoned (d : Dev) (off l : Nat) (r : Requester) : Dev :=
  match r with
  | .sequencer k u =>
    let c := d.cursor k u
    if c.state = .running ∨ c.state = .polling then
      (d.faultChain k).consumePoison (d.whereCmd (cmdAt k u c (d.readNum c.pos 64))) off 0 0 7 else d
  | .haul h ch back =>
    let c := d.chan h ch
    match c.cur with
    | none => d
    | some cmd =>
      let x := haulOf cmd.word
      if back then if c.state = .closing ∧ x.dst.space = 0 then d.setChan h ch { c with readback := some (stOk, true) } else d
      else if x.src.space ≠ 0 then d
      else
        let places := (x.readPieces.take c.nRead).flatMap (fun p =>
          ((List.range p.len).filter (fun b => decide ((p.addr + b) / 64 = off / 64))).map (fun b => p.place + b))
        d.setChan h ch { c with bad := places.foldl NSet.add c.bad }
  | .exchange p =>
    match (d.train p).hopper with
    | some h => d.consumePoison (d.whereCmd h.cmd) off 0 0 8
    | none => d
  | .bed p =>
    match (d.bed p).run with
    | some b => d.setRun p (some { b with bad := NSet.add b.bad l })
    | none => d
  | .fabric _ => { d with mem := { d.mem with carried := d.mem.carried ++ [(r, off)] } }
  | .host => { d with mem := { d.mem with carried := d.mem.carried ++ [(r, off)] } }

/-- Where an access goes: stack, pseudo-channel, position, access within the granule, and its offset where it has one. -/
def Dev.targetOf (d : Dev) (t : MemTarget) : Nat × Nat × Nat × Nat × Nat :=
  match t with
  | .working off =>
    let h := d.home off.toNat
    (h.1, h.2.1, h.2.2, off.toNat % 256 / 64, off.toNat / 64 * 64)
  | .place l => (l.s, l.k, l.pos.toNat, l.acc, 0)

/-- MEMORY_ACCESS (R245 to R247): not performed beyond the working region (R233), or while its pseudo-channel holds it or
answers with an error response (R260); the requester's own row meets that. -/
def Dev.memoryAccess (d : Dev) (a : MemAccess) (ev : MemEvent) : Dev :=
  let t := d.targetOf a.target
  let s := t.1
  let k := t.2.1
  let x := t.2.2.1
  let acc := t.2.2.2.1
  let off := t.2.2.2.2
  let outside := match a.target with
    | .working off => decide (d.workingBytes ≤ off.toNat) || d.blocked (off.toNat / 64 * 64) 64
    | .place _ => d.rowMoves s k x || decide (SMap.get none d.mem.heldWrites (posKey s k x (64 * acc) / 64) ≠ none)
  let st := d.pc (12 * k + s)
  if outside = true ∨ st = .retraining ∨ st.errs = true then d
  else
    let l := posKey s k x (64 * acc) / 64
    let d := d.lineEvent s k x acc (a.wr.map (fun w => (w.1.toNat, w.2.1.toNat))) false ev
    match a.wr with
    | some (data, be, poison) => if ev = .parityExhausted then d else d.storeLine l data.toNat be.toNat poison
    | none => if ev = .parityExhausted then d.readPoisoned off l a.req else d

/-- The position of an access that names its place. -/
def placePos (t : MemTarget) : Nat :=
  match t with
  | .working _ => 0
  | .place l => l.pos.toNat

def execMemoryAccess (a : MemAccess) (ev : MemEvent) (s : State) : Host.Outcome State Fault Refusal :=
  if positions ≤ placePos a.target then .fault .noSuchPosition else onDie (fun d => d.memoryAccess a ev) s

/-- SCRUB (R248). -/
def Dev.scrub (d : Dev) (l : MemLine) (ev : MemEvent) : Dev :=
  let st := d.pc (12 * l.k + l.s)
  if st = .retraining ∨ st.errs = true ∨ d.rowMoves l.s l.k l.pos.toNat then d
  else d.lineEvent l.s l.k l.pos.toNat l.acc none true ev

def execScrub (l : MemLine) (ev : MemEvent) (s : State) : Host.Outcome State Fault Refusal :=
  if positions ≤ l.pos.toNat then .fault .noSuchPosition else onDie (fun d => d.scrub l ev) s

/-! Traffic generator. -/

/-- *TG_CONFIG fields* (R271). -/
structure TgConfig where
  op : Nat
  pattern : Nat
  order : Nat
  stopOnError : Bool
  posCountM1 : Nat
  posFirst : Nat
  deriving DecidableEq, Repr

def tgConfigOf (w : Nat) : TgConfig :=
  { op := fld w 63 62, pattern := fld w 61 59, order := fld w 58 57, stopOnError := bit w 56, posCountM1 := fld w 53 32,
    posFirst := fld w 31 10 }

/-- A TG_CONFIG that R274 refuses beside its reserved bits. -/
def tgConfigBad (w : Nat) : Bool :=
  let c := tgConfigOf w
  decide (5 < c.pattern) || decide (c.order = 3) || decide (positions ≤ c.posFirst + c.posCountM1)

def Dev.tgRuns (d : Dev) (s : Nat) : Bool := NSet.mem d.mem.tgRunning s

/-- Pseudo-channels a run covers. -/
def Dev.tgChannels (d : Dev) (s : Nat) : List Nat := (List.range 64).filter (fun k => bit (d.get (kTgChannelMask s)) k)

/-- START is allowed (R270). -/
def Dev.tgMayStart (d : Dev) (s : Nat) : Bool :=
  d.allEmpty || (d.tgChannels s).all (fun k => decide (d.pc (12 * k + s) = .lost) || decide (d.pc (12 * k + s) = .relieved))

def Dev.setTg (d : Dev) (s k bits : Nat) : Dev :=
  { d with mem := { d.mem with tgResult := SMap.set 0 d.mem.tgResult (64 * s + k) bits } }

/-- *TG result record*. -/
def tgRecord (r : TgResult) (status : Nat) : Nat :=
  pack [(64, r.errors.toNat), (22, r.failPos.toNat), (2, r.failAcc), (32, r.failPins.toNat), (8, status), (64, r.accesses.toNat),
        (32, r.retries.toNat), (32, r.elapsed.toNat)]

/-- The run's operation writes (R271). -/
def TgConfig.writes (c : TgConfig) : Bool := decide (c.op = 0 ∨ c.op = 2)

/-- The run's operation compares what it reads. -/
def TgConfig.compares (c : TgConfig) : Bool := decide (c.op = 1 ∨ c.op = 2)

/-- Accesses of a whole run: four of each position, in every pass, read and written where the operation does both (R271, R272). -/
def TgConfig.accesses (c : TgConfig) (passes : Nat) : Nat :=
  4 * (c.posCountM1 + 1) * passes * (if c.op = 2 then 2 else 1)

/-- The positions of a run hold the bytes given, and no poison. -/
def Dev.tgFill (d : Dev) (s k : Nat) (f : Nat → Byte) : Dev :=
  let c := tgConfigOf (d.get (kTgConfig s))
  let key := posKey s k c.posFirst 0
  let bytes := 256 * (c.posCountM1 + 1)
  { d with mem := { d.mem with
      hbm := d.mem.hbm.setBytes key ((List.range bytes).map f)
      poison := d.mem.poison.filter (fun l => decide (l < key / 64) || decide ((key + bytes) / 64 ≤ l)) } }

/-- A run that writes destroys what its positions held: free values from its start on (R270, log 19). -/
def Dev.tgDestroy (d : Dev) (s k : Nat) : Dev :=
  if (tgConfigOf (d.get (kTgConfig s))).writes
  then Dev.tgFill { d with draws := d.draws + 1 } s k (fun i => Config.freeByte d.draws i) else d

/-- A whole run of the CONSTANT pattern leaves TG_SEED in every word of 32 bits (DEDUCED, log 145). -/
def Dev.tgLeaves (d : Dev) (s k : Nat) : Dev :=
  let c := tgConfigOf (d.get (kTgConfig s))
  let seed := d.get (kTgSeed s)
  if c.writes ∧ c.pattern = 0 then d.tgFill s k (fun i => BitVec.ofNat 8 (seed >>> (8 * (i % 4)))) else d

/-- A run starts: each pseudo-channel selected enters TEST, its record RUNNING (R270, R272). -/
def Dev.tgStart (d : Dev) (s : Nat) : Dev :=
  let ks := d.tgChannels s
  let d := { d with mem := { d.mem with tgRunning := NSet.add d.mem.tgRunning s } }
  ks.foldl (fun d k =>
    let c := 12 * k + s
    let d := { d with mem := { d.mem with pcBefore := SMap.set PcState.online d.mem.pcBefore c (d.pc c) } }
    ((d.setPc c .test).setTg s k (2 ^ 128)).tgDestroy s k) d

/-- A pseudo-channel leaves TEST for the state it had (R270). -/
def Dev.tgLeave (d : Dev) (s k : Nat) : Dev :=
  let c := 12 * k + s
  let d := d.setPc c (SMap.get PcState.online d.mem.pcBefore c)
  { d with mem := { d.mem with pcBefore := SMap.set PcState.online d.mem.pcBefore c PcState.online } }

/-- A run over the whole pseudo-channel has ended PASS (R269). -/
def Dev.tgWhole (d : Dev) (s k : Nat) (r : TgResult) : Dev :=
  let c := tgConfigOf (d.get (kTgConfig s))
  if r.errors.toNat = 0 ∧ c.posFirst = 0 ∧ c.posCountM1 + 1 = positions
  then { d with mem := { d.mem with tgPassed := NSet.add d.mem.tgPassed (64 * s + k) } } else d

/-- A pseudo-channel's run went over its whole range: it met no error that STOP_ON_ERROR ends it at (R271). -/
def TgConfig.ranWhole (c : TgConfig) (r : TgResult) : Bool := !(c.compares && c.stopOnError && decide (r.errors.toNat ≠ 0))

/-- The result of a pseudo-channel as its operation allows it: nothing miscompares where nothing is compared, one access where the
first miscompare stops the run, and a whole run makes all its accesses (R271, R272). -/
def Dev.tgResultOf (d : Dev) (s : Nat) (r : TgResult) : TgResult :=
  let c := tgConfigOf (d.get (kTgConfig s))
  let r := if c.compares then r else { r with errors := 0, failPos := 0, failAcc := 0, failPins := 0 }
  if c.ranWhole r then { r with accesses := BitVec.ofNat 64 (c.accesses (d.get (kTgPasses s))) } else { r with errors := 1 }

/-- The run of one pseudo-channel ends with its result. -/
def Dev.tgChannelEnd (d : Dev) (s k : Nat) (r : TgResult) : Dev :=
  let c := tgConfigOf (d.get (kTgConfig s))
  let r := d.tgResultOf s r
  let d := if c.ranWhole r then d.tgLeaves s k else d
  (((d.tgLeave s k).setTg s k (tgRecord r (if r.errors.toNat = 0 then 2 else 3))).tgWhole s k r).bump
    kMemParityRetries r.retries.toNat

/-- TG_RUN_END (R272): every pseudo-channel of the run has a result. -/
def Dev.tgRunEnd (d : Dev) (s : Nat) (rs : List TgResult) : Dev :=
  let ks := d.tgChannels s
  if d.tgRuns s = false ∨ ks.any (fun k => !rs.any (fun r => decide ((r.k : Nat) = k))) = true then d
  else
    let d := { d with mem := { d.mem with tgRunning := NSet.del d.mem.tgRunning s } }
    let d := ks.foldl (fun d k =>
      match rs.find? (fun r => decide ((r.k : Nat) = k)) with
      | none => d
      | some r => d.tgChannelEnd s k r) d
    d.wakeMemory

def execTgRunEnd (s : Fin 12) (rs : List TgResult) (st : State) : Host.Outcome State Fault Refusal :=
  onDie (fun d => d.tgRunEnd s rs) st

/-- STOP (R270): the records say STOPPED; what they had counted is free (log 5). -/
def Dev.tgStop (d : Dev) (s : Nat) : Dev :=
  if d.tgRuns s = false then d
  else
    let ks := d.tgChannels s
    let d := { d with mem := { d.mem with tgRunning := NSet.del d.mem.tgRunning s } }
    let d := ks.foldl (fun d k =>
      let v := d.draw
      let d := v.2
      (d.tgLeave s k).setTg s k (setFld v.1.toNat 135 128 4)) d
    d.wakeMemory

/-! Requests to a stack. -/

/-- RELIEF_CLEAR may act at the next power cycle (R269). -/
def Dev.reliefClearable (d : Dev) (s : Nat) : Bool :=
  d.allEmpty && decide (d.get (kRelievedPc s) < 64) && NSet.mem d.mem.tgPassed (64 * s + d.get (kRelievedPc s))

def Dev.reliefClear (d : Dev) (s : Nat) : Dev :=
  { d with mem := { d.mem with reliefClear := NSet.add d.mem.reliefClear s } }

end Sys2Proof.Machine
end

