-- ==== Sys2Proof/Machine/Abort.lean ====
section
/-! DEFINITION. Aborts of issued commands (R190, R439 to R441) and the return of chains to IDLE, shared by resets and teardowns. -/

namespace Sys2Proof.Machine

/-- The four chains of an engine. -/
def chainsOf (p e : Nat) : List ChainId := (List.range 4).map (chainOf p e)

/-- The key under which a wait of a tenant that is not resident is kept: the remaining timeout, and no tally (R404). -/
def savedWait (p l id : Nat) : Nat := 65536 * (1 + 96 * p + l) + id

/-- A waiter key belongs to a bench of a partition, as resident or saved. -/
def Dev.benchWait (d : Dev) (p l key : Nat) : Bool :=
  if d.isResident p l then
    decide (key < 65536) && decide (key / 4096 ≤ 2) && decide (fld key 11 5 = d.hostBench p l) && decide (key % 4 = p)
  else decide (key / 65536 = 1 + 96 * p + l)

def Dev.keepWaits (d : Dev) (f : Nat → Bool) : Dev :=
  { d with tallies := { d.tallies with waits := SMap.keep f d.tallies.waits } }

/-- A chain becomes IDLE with its gauge disarmed; CHAIN_DONE_SEQ stays, and haul records owed are written (R438, R450). -/
def Dev.idleChain (d : Dev) (k : ChainId) : Dev :=
  let d := (List.range (d.unitsOf k)).foldl (fun d u =>
    let d := d.payChain k u
    d.setCursor k u { Cursor.idle with
      doneSeq := (d.cursor k u).doneSeq, doneCount := (d.cursor k u).doneCount }) d
  d.setGauge k []

/-- A segment in flight belongs to a tile that has begun to arrive. -/
def ofPartial (inbox : List InTile) (x : ConvSeg) : Bool :=
  let h := convHeaderOf x.hdr
  inbox.any (fun t => decide (t.rows < 64) && decide (t.face = h.face) && decide (t.chain = h.chain) && decide (t.seq = h.seq))

/-- A bench of a lift: its commands, slots and inbox are discarded, the tile counts cleared, no real pass stands since this
reset (R92), and a credit is returned for each tile (R103, R104, R439). -/
def Dev.abortBench (d : Dev) (p l : Nat) : Dev :=
  let pl := d.placeOf p l
  let b := d.bench pl
  let d := d.keepWaits (fun k => !d.benchWait p l k)
  let d := d.setBench pl { b with matQ := [], vecQ := [], inbox := [], proof := none, ranPass := false, replay := [] }
  { d with benches := { d.benches with
      slots := SMap.keep (fun i => decide (i / 8 ≠ pl)) d.benches.slots
      lanes := SMap.keep (fun i => decide (i / 32768 ≠ pl)) d.benches.lanes
      tilesSent := SMap.keep (fun i => decide (i / 256 ≠ pl)) d.benches.tilesSent
      tilesRecv := SMap.keep (fun i => decide (i / 256 ≠ pl)) d.benches.tilesRecv
      creditFlight := d.benches.creditFlight ++ b.inbox.map (fun t => (logicalKey p l, t.face))
      convFlight := d.benches.convFlight.filter (fun x => decide (x.dst ≠ logicalKey p l) || !ofPartial b.inbox x) } }

/-- The logical benches of a lift. -/
def Dev.liftBenches (d : Dev) (p e : Nat) : List Nat := (List.range (d.liftCount p e)).map (fun i => d.liftFirst p e + i)

/-- The exchange engine of a partition: an unsent vote goes as a fail with ABANDON; the hopper in hand and its new fines go
(R361, R439). -/
def Dev.abortExchange (d : Dev) (p : Nat) : Dev :=
  let votes := (d.train p).xq.filter (fun c => decide ((headerOf c.word).opcode = opVote))
  let d := votes.foldl (fun d c =>
    let n := (voteOf c.word).step
    if d.isMember p = false ∨ d.voted p n ∨ d.mayStep p = false then d else d.sendVote p n true true) d
  let t := d.train p
  let fines := d.finesKept p
  let d := d.setTrain p { t with xq := [], hopper := none, vote := none, cut := t.cut || t.vote.isSome, finesNew := fines
                                 shadowWait := false }
  (d.dropStage p).dropReqs (fun r => isExchange p r.what && r.notReadyAt.isSome)

/-- The bed engine for a partition: a snapshot so stopped leaves no bed (R439). -/
def Dev.stopBed (d : Dev) (p : Nat) : Dev :=
  let d := match (d.bed p).run with
    | some r => d.bedCutOff p r
    | none => d
  d.setBed p { d.bed p with run := none, q := [] }

/-- Waiter keys of an engine's sequencers and units off the lifts. -/
def engineWait (p e key : Nat) : Bool :=
  let kind := key / 4096
  decide (key < 65536) && decide (key % 4 = p) &&
  (if e < 0x20 then (decide (kind = 3) || decide (kind = 4)) && decide (fld key 11 5 = e - 0x10)
   else if e = 0x20 then decide (kind = 5) || decide (kind = 6)
   else decide (kind = 7) || decide (kind = 8))

/-- R439: an engine stops for a partition, and its chains become IDLE. -/
def Dev.abortEngine (d : Dev) (p e : Nat) : Dev :=
  let d :=
    if e < 0x10 then (d.liftBenches p e).foldl (fun d l => d.abortBench p l) d
    else
      let d := if e < 0x20 then d else if e = 0x20 then d.abortExchange p else d.stopBed p
      d.keepWaits (fun k => !engineWait p e k)
  let d := (chainsOf p e).foldl (fun d k => d.idleChain k) d
  if 0x10 ≤ e ∧ e < 0x20 then d.abortHauls p e else d

/-- The engines an ENGINE field names (R437). -/
def enginesOf (engine : Nat) : List Nat := if engine = 0xFF then List.range 34 else [engine]

def Dev.abortEngines (d : Dev) (p engine : Nat) : Dev := (enginesOf engine).foldl (fun d e => d.abortEngine p e) d

/-- R441: nothing that the aborted commands sent is unanswered, and no channel is still ABORTING or owes a record. -/
def Dev.abortsDone (d : Dev) (p engine : Nat) : Bool :=
  d.haulsStill p engine &&
  !d.anyReq (fun r => decide (r.p = p) && (enginesOf engine).any (fun e => decide (reqEngine r.what = some e)))

end Sys2Proof.Machine
end

