-- ==== Sys2Proof/Machine/Partition.lean ====
section
/-! DEFINITION. Partitions: allocations (R398 to R401), shift requests (R407, R408), teardown (R409, R410), admission (R38,
R411) and tenancy (R402 to R406). A check answers the abort code of *Abort codes*; an effect assumes it passed. -/

namespace Sys2Proof.Machine

/-! Abort codes (R461). -/

def abortCode (cls detail : Nat) : Nat := cls * 65536 + detail

def abConflict : Nat := abortCode 0x0303 0
def abRange : Nat := abortCode 0x0301 0
def abBusy : Nat := abortCode 0x0403 0
def abAvailable : Nat := abortCode 0x0404 0
def abDenied : Nat := abortCode 0x0501 0
def abModule : Nat := abortCode 0x0401 0xFF00

/-- STATE_REFUSED and OBJECT_QUIESCING name the partition and its state. -/
def Dev.abState (d : Dev) (p : Nat) : Nat := abortCode 0x0401 (256 * p + d.pState p)
def Dev.abQuiescing (d : Dev) (p : Nat) : Nat := abortCode 0x0402 (256 * p + d.pState p)

/-- The first check that fails. -/
def firstAbort : List (Bool × Nat) → Option Nat
  | [] => none
  | (bad, code) :: cs => if bad then some code else firstAbort cs

/-! Allocations (R399). -/

/-- Hosts a partition needs: the ceiling of logical benches over tenants. -/
def hostCount (logical tenancy : Nat) : Nat := roundUp logical (max tenancy 1)

def benchesIn (mask : Nat) : List Nat := (List.range 96).filter (fun b => bit mask b)

/-- A bench is neither fenced, nor a spare, nor a host of another partition, nor released to replace one (R117). -/
def Dev.benchFree (d : Dev) (p b : Nat) : Bool :=
  !bit (d.get kBenchFenceMask) b && !bit (d.get kBenchSpareMask) b &&
  (List.range 4).all (fun q => decide (q = p) ||
    (!(d.part q).hosts.contains b && !(d.part q).remap.any (fun x => decide (x.2 = b))))

/-- The working range overlaps what another partition holds. -/
def Dev.rangeTaken (d : Dev) (p : Nat) : Bool :=
  (List.range 4).any (fun q =>
    decide (q ≠ p) && decide (0 < (d.heldRange q).2) && decide (0 < d.get (kPartMemBytes p)) &&
    overlap (d.get (kPartMemBase p)) (d.get (kPartMemBytes p)) (d.heldRange q).1 (d.heldRange q).2)

/-- The working range overlaps a retired page (R254). -/
def Dev.rangeRetired (d : Dev) (p : Nat) : Bool :=
  d.mem.retired.any (fun w => !bit w 63 && overlap (d.get (kPartMemBase p)) (d.get (kPartMemBytes p)) (786432 * fld w 39 0) 786432)

/-- The bed range overlaps another partition's. -/
def Dev.bedTaken (d : Dev) (p : Nat) : Bool :=
  (List.range 4).any (fun q =>
    decide (q ≠ p) && decide (d.pState q ≠ psEmpty) &&
    overlap (d.get (kPartBedY0 p)) (d.get (kPartBedPositions p)) (d.bedRange q).1 (d.bedRange q).2 &&
    decide (0 < d.get (kPartBedPositions p)) && decide (0 < (d.bedRange q).2))

def saveBytes : Nat := 9 * 2 ^ 20

/-- The save area of tenancy lies inside the working range (R399, R403). -/
def Dev.saveFits (d : Dev) (p tenancy : Nat) : Bool :=
  decide (tenancy ≤ 1) ||
  (decide (d.get (kPartMemBase p) ≤ d.get (kTenantSaveBase p)) &&
   decide (d.get (kTenantSaveBase p) + saveBytes * d.get (kPartLogicalBenches p) ≤ d.get (kPartMemBase p) + d.get (kPartMemBytes p)))

/-- Every condition of R399 holds for the staged ranges, with these benches and tenants; a RESUME also keeps the range held. -/
def Dev.allocFits (d : Dev) (p : Nat) (benches : List Nat) (tenancy : Nat) (resume : Bool) : Bool :=
  let base := d.get (kPartMemBase p)
  let bytes := d.get (kPartMemBytes p)
  let hold := d.get (kPartHoldBase p)
  let holdBytes := d.get (kPartHoldBytes p)
  decide (d.get (kPartLogicalBenches p) ≠ 0) &&
  decide (benches.length = hostCount (d.get (kPartLogicalBenches p)) tenancy) &&
  benches.all (fun b => d.benchFree p b) &&
  decide (base % stripeBytes = 0) && decide (bytes % stripeBytes = 0) && decide (base + bytes ≤ d.workingBytes) &&
  !d.rangeTaken p && !d.rangeRetired p &&
  (decide (holdBytes = 0) || (decide (base ≤ hold) && decide (hold + holdBytes ≤ base + bytes))) &&
  (!resume || (decide (holdBytes = (d.part p).heldBytes) && (decide (holdBytes = 0) || decide (hold = (d.part p).heldBase)))) &&
  decide (d.get (kPartBedY0 p) + d.get (kPartBedPositions p) ≤ d.bedPositions) && !d.bedTaken p &&
  d.saveFits p tenancy

/-- The staged allocation, as LOAD and RESUME check it. -/
def Dev.allocOk (d : Dev) (p : Nat) (resume : Bool) : Bool :=
  d.allocFits p (benchesIn (d.get (kPartBenchMask p))) (d.tenancy p) resume

/-- Saved images of a partition's tenants go. -/
def Dev.clearImages (d : Dev) (p : Nat) : Dev := (List.range 96).foldl (fun d l => d.clearBench (imagePlace p l)) d

/-- The staged benches become hosts; no bench has passed its proof, and the proof image is written (R399, R428, R432). -/
def Dev.takeBenches (d : Dev) (p : Nat) (hosts : List Nat) : Dev :=
  let d := d.setPart p { d.part p with hosts := hosts, resident := [], remap := [] }
  (d.put (kProofPassed p) 0).writeProofImage p

/-- LOAD (R396, R399). -/
def Dev.loadPart (d : Dev) (p : Nat) : Dev := (d.setPState p psLoading).takeBenches p (benchesIn (d.get (kPartBenchMask p)))

/-- RESUME (R396, R399): what was held is part of the working range again. -/
def Dev.resumePart (d : Dev) (p : Nat) : Dev :=
  let d := d.setPart p { d.part p with heldBase := 0, heldBytes := 0, heldBedY0 := 0, heldBed := 0 }
  ((d.setPState p psRestoring).setShift p 5).takeBenches p (benchesIn (d.get (kPartBenchMask p)))

/-! Release at the end of a teardown. -/

/-- Released benches are cleared before another partition can have them (R401). -/
def Dev.dropHosts (d : Dev) (gone : List Nat) : Dev := gone.foldl (fun d b => d.clearBench b) d

/-- R408: a RESHAPE keeps the first hosts, or takes the lowest-numbered free benches as well; host indices go up in physical order
(R399; DEDUCED, log 140). -/
def Dev.reshapeHosts (d : Dev) (p tenancy : Nat) : List Nat :=
  let n := hostCount (d.get (kPartLogicalBenches p)) tenancy
  let have_ := (d.part p).hosts
  rising <| if n ≤ have_.length then have_.take n
  else have_ ++ (((List.range 96).filter (fun b => d.benchFree p b && !have_.contains b)).take (n - have_.length))

def maskOf (bs : List Nat) : Nat := bs.foldl (fun m b => setBitTo m b true) 0

/-- What the end state does not hold is released, and the partition enters it (R396, R408, R409). -/
def Dev.release (d : Dev) (p : Nat) : Dev :=
  match (d.part p).teardown with
  | none => d
  | some t =>
    let hosts := (d.part p).hosts
    let d := if t.endState = psRestoring then
        let keep := d.reshapeHosts p t.tenancy
        let d := (d.dropHosts (hosts.filter (fun b => !keep.contains b))).clearImages p
        let d := (d.put (kPartTenancy p) t.tenancy).put (kPartBenchMask p) (maskOf keep)
        d.takeBenches p keep
      else
        let d := (d.dropHosts hosts).clearImages p
        d.setPart p { d.part p with
          hosts := [], resident := [], remap := []
          heldBase := if t.endState = psSuspended then d.get (kPartHoldBase p) else 0
          heldBytes := if t.endState = psSuspended then d.get (kPartHoldBytes p) else 0
          heldBedY0 := if t.endState = psSuspended then d.get (kPartBedY0 p) else 0
          heldBed := if t.endState = psSuspended then d.get (kPartBedPositions p) else 0 }
    let d := d.setPart p { d.part p with teardown := none, shift := none }
    (d.setPState p t.endState).setShift p 5

/-! Teardown (R409). -/

/-- A wait on a tally stands before the command, so it is aborted (R409). -/
def waiting (cs : List Cmd) : List Cmd := cs.filter (fun c => c.free)

/-- A tile HELD for its conveyor inbox, or in DRAIN for a credit, is aborted. -/
def Dev.slotStuck (d : Dev) (pl i : Nat) : Bool :=
  let x := d.slot pl i
  match x.cmd with
  | none => false
  | some c =>
    let b := matmulOf c.word
    decide (x.state = .held) && !d.sumArrived pl b ||
    decide (x.state = .drain) && (decide (b.convPos = 1) || decide (b.convPos = 2)) && !d.canSend c

/-- What waits on a bench is aborted; the rest of its queues may start and run on. -/
def Dev.drainBench (d : Dev) (p l : Nat) : Dev :=
  let pl := d.placeOf p l
  let d := d.keepWaits (fun k => !d.benchWait p l k)
  let b := d.bench pl
  let d := (d.setBench pl { b with matQ := waiting b.matQ, vecQ := waiting b.vecQ }).kickBench pl
  let d := (List.range 8).foldl (fun d i => if d.slotStuck pl i then d.setSlot pl i Slot.empty else d) d
  let b := d.bench pl
  d.setBench pl { b with matQ := b.matQ.filter (fun c => (matmulOf c.word).slots.all (fun i => decide ((d.slot pl i).state = .free))) }

def Dev.logicalBenches (d : Dev) (p : Nat) : List Nat := List.range (d.get (kPartLogicalBenches p))

/-- The sequencers' own waits end with the teardown. -/
def Dev.dropControls (d : Dev) (p : Nat) : Dev :=
  { d with seqs := { d.seqs with cursors := d.seqs.cursors.map (fun x =>
      if x.1 / 13056 = p then (x.1, { x.2 with ctl := none, held := none }) else x) } }

/-- Steps 1 and 2: what waits is aborted, transfers abort, hoppers go, a checkpoint write and the mirror stop (R190, R384). -/
def Dev.drainWork (d : Dev) (p : Nat) : Dev :=
  let d := (((List.range 16).flatMap (fun h => chainsOf p (0x10 + h))).foldl (fun d k => d.settle k 0) (d.stopCkpt p)).abortHauls
    p 0xFF
  let d := (d.abortExchange p).dropControls p
  let d := d.setTrain p { d.train p with finesNew := [], contribBytes := [], mirror := none, mirrorQ := [] }
  let b := d.bed p
  let d := (d.setBed p { b with q := if b.run.isSome then b.q.take 1 ++ waiting (b.q.drop 1) else waiting b.q }).kickBed
  (d.logicalBenches p).foldl (fun d l => d.drainBench p l) d

/-- No command of the partition still runs. -/
def Dev.workDone (d : Dev) (p : Nat) : Bool :=
  d.abortsDone p 0xFF && decide ((d.bed p).q = []) &&
  (d.logicalBenches p).all (fun l =>
    let pl := d.placeOf p l
    decide ((d.bench pl).matQ = []) && decide ((d.bench pl).vecQ = []) && decide ((d.bench pl).proof = none) &&
    (List.range 8).all (fun i => decide ((d.slot pl i).state = .free)))

/-- Completion queues number from 0 again (R179, R191); HAUL_CQ_HEAD stays as written (log 34). -/
def Dev.restartQueues (d : Dev) (p : Nat) : Dev :=
  (d.channelsOf p 0xFF).foldl (fun d x =>
    (d.setChan x.1 x.2 { d.chan x.1 x.2 with spilled := false }).put (kHaulCqTail x.1 x.2) 0) d

/-- PART_JOIN_STATUS UNBOUND (R312). -/
def Dev.unbind (d : Dev) (p : Nat) : Dev := ((d.put (kPartMpart p) 0).put (kPartEpoch p) 0).put (kPartJoinStatus p) 0

/-- Steps 3 to 5 and the end (R409). -/
def Dev.tearEnd (d : Dev) (p : Nat) (t : Teardown) : Dev :=
  let d := (d.abortEngines p 0xFF).unbind p
  let d := (d.clearAllTallies p true).restartQueues p
  let d := d.setTrain p Train.start
  let d := d.setBed p { d.bed p with ckptDue := none }
  let d := (d.setPart p { d.part p with teardown := some { t with torn := true } }).setShift p 4
  let d := d.kickBed
  if t.confirm then d else d.release p

def Dev.tornDown (d : Dev) (p : Nat) : Dev :=
  match (d.part p).teardown with
  | none => d
  | some t =>
    if t.torn then d
    else
      let d := d.drainWork p
      if d.workDone p then d.tearEnd p t else d

def execTornDown (p : Fin 4) (s : State) : Host.Outcome State Fault Refusal :=
  onDev (fun d => d.tornDown p) s

def cutoffNs : Nat := 20000000

/-- A BED_SNAPSHOT of the partition is in progress. -/
def Dev.snapshotting (d : Dev) (p : Nat) : Bool :=
  match (d.bed p).run with | some r => decide ((headerOf r.cmd.word).opcode = opSnapshot) | none => false

/-- R409: the engines stop at the cutoff, but a BED_SNAPSHOT in progress completes. -/
def Dev.cutEngines (d : Dev) (p : Nat) : Dev :=
  if d.snapshotting p then
    let d := ((List.range 33).foldl (fun d e => d.abortEngine p e) d).keepWaits (fun k => !engineWait p 0x21 k)
    d.setBed p { d.bed p with q := (d.bed p).q.take 1 }
  else d.abortEngines p 0xFF

/-- TEARDOWN_CUTOFF (R409): what still runs 20 ms after the teardown began is aborted, a snapshot excepted. -/
def Dev.cutoff (d : Dev) (p : Nat) : Dev :=
  match (d.part p).teardown with
  | none => d
  | some t =>
    if t.torn ∨ d.time < t.startedAt + cutoffNs then d
    else
      let d := ((d.stopCkpt p).cutEngines p).kickBed
      d.setPart p { d.part p with teardown := some { t with cutoff := true } }

def execTeardownCutoff (p : Fin 4) (s : State) : Host.Outcome State Fault Refusal :=
  onDev (fun d => d.cutoff p) s

/-- SHIFT_CONFIRM names a partition that is TORN_DOWN (R409, R413). -/
def Dev.confirmable (d : Dev) (p : Nat) : Bool := match (d.part p).teardown with | some t => t.torn | none => false

/-! Shift requests (R407). -/

/-- *SHIFT_REQUEST fields*. -/
structure ShiftReq where
  tenancy : Nat
  confirm : Bool
  mode : Nat
  action : Nat
  p : Nat
  deriving DecidableEq, Repr

def shiftReqOf (w : Nat) : ShiftReq :=
  { tenancy := fld w 19 16, confirm := bit w 11, mode := fld w 10 8, action := fld w 7 4, p := fld w 1 0 }

def shiftReqBits (x : ShiftReq) : Nat :=
  pack [(12, 0), (4, x.tenancy), (4, 0), (1, b2n x.confirm), (3, x.mode), (4, x.action), (2, 0), (2, x.p)]

/-- *Shift actions*: the states an action is accepted in. -/
def Dev.shiftState (d : Dev) (x : ShiftReq) : Bool :=
  let st := d.pState x.p
  if x.action = 1 ∨ x.action = 2 then decide (st = psAdmitted)
  else if x.action = 3 then d.loading x.p || decide (st = psAdmitted) || decide (st = psSuspended)
  else decide (st = psSuspended)

/-- The modes and the tenancy an action takes. -/
def Dev.shiftForm (d : Dev) (x : ShiftReq) : Bool :=
  let training := decide (d.get (kStepBlockAddr x.p) ≠ 0)
  let modeOk :=
    if x.action = 1 ∨ x.action = 2 then if training then decide (x.mode = 1) || decide (x.mode = 2) else decide (x.mode = 3)
    else if x.action = 3 then
      if d.pState x.p = psSuspended then decide (x.mode = 0) else decide (1 ≤ x.mode) && decide (x.mode ≤ 3)
    else decide (x.mode = 0)
  let tenancyOk := if x.action = 2 then decide (x.tenancy = 1) || decide (x.tenancy = 2) || decide (x.tenancy = 4)
    else decide (x.tenancy = 0)
  modeOk && tenancyOk

/-- R398, R399 for a RESHAPE: the allocation as a whole, with the benches it will have once the replacements that wait have taken
effect. -/
def Dev.reshapeOk (d : Dev) (p tenancy : Nat) : Bool :=
  let d := d.applyRemap p
  d.allocFits p (d.reshapeHosts p tenancy) tenancy false

/-- A shift request that is refused (R407, R448, R459). -/
def Dev.shiftRefused (d : Dev) (w : Nat) : Option Nat :=
  let x := shiftReqOf w
  let pending := decide (d.shiftStatus x.p = 1)
  firstAbort [
    (decide (d.pState x.p = psQuiescing), d.abQuiescing x.p),
    (decide (1 ≤ x.action) && decide (x.action ≤ 4) && !d.shiftState x, d.abState x.p),
    (pending && decide (x.mode ≠ 2), d.abState x.p),
    (decide (x.action = 0) || decide (4 < x.action) || !d.shiftForm x, abRange),
    (decide (x.action = 4) && !d.allocOk x.p true, abConflict),
    (decide (x.action = 2) && !d.reshapeOk x.p x.tenancy, abConflict)]

/-- Every chain of the partition gets a HALT request (R139, R408). -/
def Dev.haltAll (d : Dev) (p : Nat) : Dev :=
  (List.range 34).foldl (fun d e => (chainsOf p e).foldl (fun d k =>
    (List.range (d.unitsOf k)).foldl (fun d u =>
      let c := d.cursor k u
      if c.state = .running ∨ c.state = .polling then (d.setCursor k u { c with haltReq := true }).haltCheck k u else d) d) d) d

/-- R408: when QUIESCING begins. -/
def Dev.quiesce (d : Dev) (x : ShiftReq) : Dev :=
  let p := x.p
  let sh : Shift := { action := x.action, mode := x.mode, tenancy := x.tenancy, confirm := x.confirm, committed := false }
  if x.mode = 1 then
    if d.stepInFlight p = none then d.startTeardown p (shiftEnd x.action) x.confirm x.tenancy
    else (d.setPart p { d.part p with shift := some sh }).setShift p 1
  else if x.mode = 2 then (d.abandonVote p).startTeardown p (shiftEnd x.action) x.confirm x.tenancy
  else
    let d := ((d.setPart p { d.part p with shift := some sh }).setPState p psQuiescing).setShift p 2
    (d.haltAll p).drainCheck p

/-- An accepted shift request (R396, R407, R408). -/
def Dev.shift (d : Dev) (w : Nat) : Dev :=
  let x := shiftReqOf w
  if x.action = 4 then d.resumePart x.p
  else if d.pState x.p = psSuspended then
    let d := d.setPart x.p { d.part x.p with heldBase := 0, heldBytes := 0, heldBedY0 := 0, heldBed := 0 }
    (d.setPState x.p psEmpty).setShift x.p 5
  else d.quiesce x

/-! Admission (R38, R310, R378, R391, R411). -/

/-- A spare takes the place of another module: its inbox holds the record of a state stream from its buddy (DEDUCED, log 119). -/
def Dev.takesOver (d : Dev) (p : Nat) : Bool :=
  let r := d.inboxRecord p 2
  decide (d.fabric.coords.buddy ≠ 0xFFFF) && decide (r.kind = 3) && decide (r.src = d.fabric.coords.buddy)

/-- The snapshot of the streamed state has completed, and its digest is known (R378). -/
def Dev.snapshotOf (d : Dev) (p step : Nat) : Bool :=
  decide (stateStep (d.get (kStateDigest p)) = step) && decide (d.get (kBedStep p) = step)

/-- The state stream a spare has received differs from the snapshot it took (R378). -/
def Dev.streamDiffers (d : Dev) (p : Nat) : Bool :=
  let r := d.inboxRecord p 2
  let own := d.get (kStateDigest p)
  d.takesOver p && d.snapshotOf p r.step && !digestsAgree (stateDigest own) r.digest (stateBad own) r.poisoned

/-- A spare does not yet hold the state of the module it replaces: no snapshot of the streamed step, a step control block of
another step, or a digest that differs (R378; what only the buddy knows is the job's to compare, log 119). -/
def Dev.takeoverIncomplete (d : Dev) (p : Nat) : Bool :=
  let r := d.inboxRecord p 2
  d.takesOver p &&
  (!d.snapshotOf p r.step || d.streamDiffers p ||
    (decide (d.get (kStepBlockAddr p) ≠ 0) && decide (fld (d.stepBlock p) 511 480 ≠ r.step)))

/-- Every bench of the mask has passed its proof block (R432). -/
def Dev.proven (d : Dev) (p : Nat) : Bool := (d.part p).hosts.all (fun b => bit (d.get (kProofPassed p)) b)

/-- ADMIT is refused (R310, R391, R411, and R268 while a stack is degraded). -/
def Dev.admissionRefused (d : Dev) (p : Nat) : Bool :=
  !d.loading p || !d.proven p || decide (d.get (kPartJoinStatus p) ≠ 1) || d.fabricIsShort || d.degraded ||
  (d.isMember p && decide (d.get kShadowRequired = 1) && decide (d.get kShadowQualified = 0)) || d.takeoverIncomplete p

/-- The record of a digest that keeps a spare in LOADING (R378). -/
def Dev.admissionRecord (d : Dev) (p : Nat) : Dev :=
  let r := d.inboxRecord p 2
  if d.loading p ∧ d.streamDiffers p then
    (d.bump kDigestMismatches 1).record (atPart p) 0x505 3
      [(2, 3), (16, r.src), (256, stateDigest (d.get (kStateDigest p))), (256, r.digest)]
  else d

/-- ADMIT (R38, R411): what the exchange engine has in hand goes on, the step in flight is that of the step control block, and the stockpile is waited for. -/
def Dev.admitPart (d : Dev) (p : Nat) : Dev :=
  let t := d.train p
  let d := (d.setPState p psAdmitted).setTrain p { Train.start with xq := t.xq, hopper := t.hopper }
  let d := ((d.beginStep p).applyRemap p).kickExchange p
  match d.phys p (d.get (kStockInputTally p)) with
  | some t => d.evaluate t
  | none => d

/-! Tenancy (R402 to R406). -/

/-- The bench's matrix and vector heads wait for a tally or for something that waits itself (R404). -/
def Dev.unitsBlocked (d : Dev) (pl : Nat) : Bool :=
  let head := fun (q : List Cmd) => match q with | [] => true | c :: _ => !c.free
  head (d.bench pl).vecQ && decide ((d.bench pl).proof = none) &&
  (head (d.bench pl).matQ || (d.matrixReady pl).isNone) &&
  (List.range 8).all (fun i => decide ((d.slot pl i).state = .free) || d.slotStuck pl i)

/-- A cursor can advance only by a tally signal or a new link word. -/
def Dev.cursorBlocked (d : Dev) (k : ChainId) (u : Nat) (pl : Nat) : Bool :=
  let c := d.cursor k u
  match c.state with
  | .running =>
    let op := (headerOf (d.readNum c.pos 64)).opcode
    c.ctl.isSome || (decide (op = opMatmul) && decide (unitQueue ≤ (d.bench pl).matQ.length)) ||
    (decide (op = opVector) && decide (unitQueue ≤ (d.bench pl).vecQ.length)) ||
    (decide ((headerOf (d.readNum c.pos 64)).ordered = 1) && decide (c.outst ≠ []))
  | _ => true

def Dev.tenantBlocked (d : Dev) (p l : Nat) : Bool :=
  let pl := d.placeOf p l
  d.unitsBlocked pl &&
  (List.range 16).all (fun e =>
    decide (l < d.liftFirst p e) || decide (d.liftFirst p e + d.liftCount p e ≤ l) ||
    (chainsOf p e).all (fun k => d.cursorBlocked k (l - d.liftFirst p e) pl))

/-- Bench store with its marks is copied from one place to another, one of them an image in device memory (R403). -/
def Dev.copyStore (d : Dev) (a b : Nat) : Dev :=
  let d' := (List.range storeBytes).foldl (fun x i => x.setStoreByte b i (d.storeByte a i)) d
  (List.range (storeBytes / 64)).foldl (fun x i => x.markStore b (64 * i) (d.storePoisoned a (64 * i))) d'

/-- The rest of an image as it is saved: the spec does not say how its slots, inbox, registers, queues and sequencers lie in it, so
its bytes are free (log 108). -/
def Dev.fillImage (d : Dev) (pl : Nat) : Dev :=
  if pl < 96 then d
  else
    let n := d.draws
    Dev.writeMem { d with draws := n + 1 } (d.imageAt pl + storeBytes)
      ((List.range (saveBytes - storeBytes)).map (fun i => Config.freeByte n i)) false

/-- All state of a bench goes from one place to another (R403): bench store through device memory, the rest as a whole. -/
def Dev.moveBench (d : Dev) (a b : Nat) : Dev :=
  let d := (d.copyStore a b).fillImage b
  { d with benches := { d.benches with
      unit := rekey 1 a b d.benches.unit
      vregs := rekey 32 a b d.benches.vregs
      masks := rekey 8 a b d.benches.masks
      slots := rekey 8 a b d.benches.slots
      tilesSent := rekey 256 a b d.benches.tilesSent
      tilesRecv := rekey 256 a b d.benches.tilesRecv } }

/-- Waits of a tenant that leaves are kept with the timeout they had left (R404). -/
def Dev.saveWaits (d : Dev) (p l : Nat) : Dev :=
  let mine := d.tallies.waits.filter (fun x => d.benchWait p l x.1)
  let d := d.keepWaits (fun k => !d.benchWait p l k)
  mine.foldl (fun d x =>
    d.setWait (savedWait p l x.1)
      { x.2 with pt := 16384, timeout := x.2.timeout - (d.time - x.2.postedAt), postedAt := d.time }) d

/-- The waits of a tenant that has come are posted afresh. -/
def Dev.restoreWaits (d : Dev) (p l : Nat) : Dev :=
  let mine := d.tallies.waits.filter (fun x => decide (x.1 / 65536 = 1 + 96 * p + l))
  let d := d.keepWaits (fun k => decide (k / 65536 ≠ 1 + 96 * p + l))
  mine.foldl (fun d x =>
    match d.phys p x.2.vt with
    | none => d
    | some t => (d.setWait (x.1 % 65536) { x.2 with pt := t, postedAt := d.time, ended := (d.tally t).overflowed }).evaluate t) d

/-- TENANT_SWITCH (R404): abandoned where a grant of the resident tenant is pending. The activity of the bench is its own, and no
tenant's. -/
def Dev.tenantSwitch (d : Dev) (p host : Nat) : Dev :=
  let f := d.tenancy p
  let first := host * f
  let n := min (first + f) (d.get (kPartLogicalBenches p)) - first
  if n ≤ 1 ∨ (d.part p).hosts.length ≤ host then d
  else
    let l := d.residentOf p host
    let next := first + (l - first + 1) % n
    let b := d.hostBench p l
    if d.tenantBlocked p l = false ∨ d.tallies.waits.any (fun x => d.benchWait p l x.1 && x.2.latch) = true then d
    else
      let x := d.bench b
      let d := ((d.saveWaits p l).moveBench b (imagePlace p l)).moveBench (imagePlace p next) b
      let d := d.setBench b { d.bench b with faces := x.faces, vec := x.vec, ranPass := x.ranPass, replay := x.replay }
      let d := d.setPart p { d.part p with resident := SMap.set first (d.part p).resident host next }
      ((d.restoreWaits p next).endMarked).kickBench b

def execTenantSwitch (p : Fin 4) (host : Fin 96) (s : State) : Host.Outcome State Fault Refusal :=
  onDie (fun d => d.tenantSwitch p host) s

end Sys2Proof.Machine
end

