-- ==== Sys2Proof/Machine/Refuse.lean ====
section
/-! DEFINITION. Re-fuse tokens (R512, R514): the descriptor, the challenge, and what an armed token does at the end of a module
reset. Every fuse programmed verifies (DESIGN CHOICE, log 52: no row brings a fuse that fails). -/

namespace Sys2Proof.Machine

/-- *Token descriptor*. -/
structure Token where
  challenge : Nat
  repairs : Nat
  serial : Nat
  levelsAdd : Nat
  kind : Nat
  repairCount : Nat
  keySlot : Nat
  reserved : Nat
  format : Nat
  magic : Nat
  deriving DecidableEq, Repr

def tokenOf (w : Nat) : Token :=
  { challenge := fld w 1023 768, repairs := fld w 767 512, serial := fld w 511 448, levelsAdd := fld w 447 416
    kind := fld w 415 408, repairCount := fld w 407 404, keySlot := fld w 403 402, reserved := fld w 401 64
    format := fld w 63 32, magic := fld w 31 0 }

/-- *Repair word*. -/
structure Repair where
  bench : Nat
  face : Nat
  column : Bool
  index : Nat
  reserved : Nat
  deriving DecidableEq, Repr

def repairOf (w : Nat) : Repair :=
  { bench := fld w 31 25, face := fld w 24 23, column := bit w 22, index := fld w 21 16, reserved := fld w 15 0 }

/-- The repair words a token names. -/
def Token.words (t : Token) : List Repair :=
  (List.range t.repairCount).map (fun i => repairOf (fld t.repairs (32 * i + 31) (32 * i)))

/-- Spares of a kind a face has used: ROWS_USED or COLS_USED. -/
def Fuses.spares (f : Fuses) (x : Repair) : Nat :=
  if x.column then fld (f.faceByte x.bench x.face) 5 4 else fld (f.faceByte x.bench x.face) 7 6

/-- One repair blows the fuses of one spare and sets FIELD_FUSED (R514). -/
def Fuses.repair (f : Fuses) (x : Repair) : Fuses :=
  if 2 ≤ f.spares x then f
  else
    let lo := 8 * x.face
    let w := SMap.get 0 f.faceRepair x.bench
    let w := setBitTo w (lo + 3) true
    let w := if x.column then setFld w (lo + 5) (lo + 4) (f.spares x + 1) else setFld w (lo + 7) (lo + 6) (f.spares x + 1)
    { f with faceRepair := SMap.set 0 f.faceRepair x.bench w }

/-- UNREPAIRED is cleared where no defect remains, which the spec leaves to the defects: free for each face (log 51). -/
def Dev.clearFace (d : Dev) (x : Repair) : Dev :=
  let i := 4 * x.bench + x.face
  if NSet.mem d.benches.unrepaired i = false then d
  else
    let r := d.draw
    if r.1.getLsbD 0 then { r.2 with benches := { r.2.benches with unrepaired := NSet.del r.2.benches.unrepaired i } } else r.2

/-- REFUSE_CHALLENGE takes a fresh random value (R512; free, log 5). -/
def Dev.freshChallenge (d : Dev) : Dev :=
  let r := d.draw
  r.2.put kRefuseChallenge r.1.toNat

/-- The armed token is applied (R514): repairs, level bits, REFUSES, REFUSE_STATE DONE, SHADOW_QUALIFIED cleared (R390). -/
def Dev.applyToken (d : Dev) (f : Fuses) : Fuses × Dev :=
  match d.sec.token with
  | none => (f, d)
  | some w =>
    let t := tokenOf w
    let f := t.words.foldl Fuses.repair f
    let d := t.words.foldl Dev.clearFace d
    let d := (d.put kRefuseState 2).put kShadowQualified 0
    ({ f with levels := f.levels ||| t.levelsAdd, refuses := min (f.refuses + 1) 255 },
     { d with sec := { d.sec with token := none } })

/-- A module reset requested while a partition is not EMPTY discards it: REFUSE_STATE DISCARDED (R514). -/
def Dev.discardToken (d : Dev) : Dev :=
  if d.get kRefuseState = 1 then { (d.put kRefuseState 3) with sec := { d.sec with token := none } } else d

/-! Values of FW_STATE (R507, R508). -/

def fwIdle : Nat := 0
def fwStaging : Nat := 1
def fwPending : Nat := 3
def fwTrial : Nat := 4
def fwRejected : Nat := 5

end Sys2Proof.Machine
end

