-- ==== Sys2Proof/Machine/Capture.lean ====
section
/-! DEFINITION. Captures (R434 to R436): what each section of a capture holds, and the taking of one. -/

namespace Sys2Proof.Machine

/-! The states that captures and the dictionary report. -/

/-- CHAIN_STATE (R138): FAULTED if any of its units is, else the state of the least advanced (DEDUCED, log 70). -/
def Dev.chainCode (d : Dev) (k : ChainId) : Nat :=
  let states := (List.range (d.unitsOf k)).map (fun u => (d.cursor k u).state)
  if states.contains .faulted then 4
  else if states.contains .running then 1
  else if states.contains .polling then 2
  else if states.contains .halted then 3
  else 0

/-- CHAIN_DONE_SEQ (R141): the lowest over the units of the chain, that of the unit which has reported the fewest words since
START. -/
def Dev.chainDone (d : Dev) (k : ChainId) : Nat :=
  match (List.range (d.unitsOf k)).map (fun u => d.cursor k u) with
  | [] => 0
  | x :: xs => (xs.foldl (fun a b => if a.doneCount ≤ b.doneCount then a else b) x).doneSeq

def ChanState.code : ChanState → Nat
  | .idle => 0 | .active => 1 | .closing => 2 | .pausing => 3 | .paused => 4 | .stopped => 5 | .aborting => 6

/-- *HAUL_CHAN_STATE fields*; HOLD_BYTES counts the bytes read and not yet written (R185, R186). -/
def Dev.chanBits (d : Dev) (h ch : Nat) : Nat :=
  let c := d.chan h ch
  pack [(3, c.state.code), (8, c.data.length), (40, c.bytesDone), (1, b2n c.queued.isSome), (12, 0)]

def PcState.code : PcState → Nat
  | .online => 0 | .retraining => 1 | .lost => 2 | .relieved => 3 | .test => 4

/-- Accesses that wait at a pseudo-channel, each counted where its first line lives, with the writes it holds to be poisoned (R247). -/
def Dev.waitingAt (d : Dev) (c : Nat) : Nat :=
  (d.mem.held.filter (fun h => decide (d.channelOf h.off = c))).length +
  (d.mem.heldWrites.filter (fun x => decide (x.1 / (4 * positions) = c))).length

def SlotState.code : SlotState → Nat
  | .free => 0 | .preload => 1 | .accum => 2 | .held => 3 | .drain => 4

/-- In the order of *Face activity states*. -/
def Activity.code : Activity → Nat
  | .run => 0 | .fill => 1 | .rampDown => 2 | .resting => 3 | .rampUp => 4

def Special.code : Special → Nat
  | .none => 0 | .pinf => 1 | .ninf => 2 | .nan => 3

/-! The content of an entry, as a list of the values that *Capture sections* names. -/

/-- CHAINS: of each unit that reads the chain the state, position and next CMD_SEQ; CHAIN_STATE and CHAIN_DONE_SEQ; the deadline
of each armed segment. -/
def Dev.chainEntry (d : Dev) (i : Nat) : List Nat :=
  let k := chainOf (i / 136) (i / 4 % 34) (i % 4)
  [d.chainCode k, d.chainDone k, (d.gauge k).length] ++ (d.gauge k).map Seg.deadline ++
  (List.range (d.unitsOf k)).flatMap (fun u => [(d.cursor k u).pos, (d.cursor k u).expSeq])

/-- QUEUES: CMD_SEQ and address of each command in a bench's matrix queue, then in its vector queue. -/
def Dev.queueEntry (d : Dev) (b : Nat) : List Nat :=
  let x := d.bench b
  (x.matQ.length :: x.matQ.flatMap (fun c => [c.seq, c.addr])) ++ (x.vecQ.length :: x.vecQ.flatMap (fun c => [c.seq, c.addr]))

/-- BENCHES: activity, slot states, the feeders (which hold nothing between two commands of the block) and the tile counts of up to
8 chains. -/
def Dev.benchEntry (d : Dev) (b : Nat) : List Nat :=
  let x := d.bench b
  let counts := fun (m : SMap Nat) => ((m.filter (fun y => decide (y.1 / 256 = b))).take 8).flatMap (fun y => [y.1 % 256, y.2])
  List.flatten [[x.faces.state.code, x.faces.level, x.vec.state.code, x.vec.level],
    (List.range 8).map (fun i => (d.slot b i).state.code), List.replicate 5 0, counts d.benches.tilesSent, counts d.benches.tilesRecv]

/-- HAUL: HAUL_CHAN_STATE, the descriptor, the pieces read and sent, and the holding register with its places (R185). -/
def Dev.haulEntry (d : Dev) (i : Nat) : List Nat :=
  let c := d.chan (i / 8) (i % 8)
  [d.chanBits (i / 8) (i % 8), (c.cur.map Cmd.word).getD 0, c.nRead, c.nSent] ++ c.data.flatMap (fun y => [y.1, y.2.toNat])

/-- TALLIES: COUNT, STATE, and the partition and virtual identifier that map to it. -/
def Dev.tallyEntry (d : Dev) (t : Nat) : List Nat :=
  let owner := (List.range 16384).find? (fun i => decide (d.phys (i / 4096) (i % 4096) = some t))
  [(d.tally t).count, b2n (d.tally t).overflowed] ++ (match owner with | some i => [i / 4096, i % 4096] | none => [])

/-- Every waiter: the posted ones, then the agents' and the stockpiles' (R220, R363), in the order of their tallies. -/
def Dev.waiterEntries (d : Dev) : List (List Nat) :=
  (d.tallies.waits.filter (fun x => decide (x.1 < 65536))).map (fun x => [x.1, x.2.pt, x.2.kind, x.2.thresh, x.2.postedAt]) ++
  (List.range 16384).flatMap (fun t => (d.ownTakers t).map (fun x => [x.id, t, 1, x.thresh]))

/-- BARRIERS: generation, in-flight mark, accumulated payload. -/
def Dev.barrierEntry (d : Dev) (i : Nat) : List Nat :=
  [d.get (kBarrierGen (i / 64) (i % 64)), b2n (NSet.mem d.tallies.inFlight i), SMap.get 0 d.tallies.payload i]

/-- PORTS: state, reason, credits by lane and of the pool, frames in the retry buffer. -/
def Dev.portEntry (d : Dev) (n : Nat) : List Nat :=
  let x := SMap.get Port.fresh d.fabric.ports n
  [d.get (kPortState n), d.get (kPortReason n)] ++ (List.range 4).map (fun v => SMap.get 0 x.reserve v) ++ [x.pool, x.retry.length]

/-- PSEUDO_CHANNELS: state, queue depth and held accesses; what stands in a queue between two commands is held. -/
def Dev.channelEntry (d : Dev) (c : Nat) : List Nat := [(d.pc c).code, d.waitingAt c, d.waitingAt c]

/-- EXCHANGE_BED: of an exchange engine its commands, the hopper's packets held and to send, and the vote; of the bed engine the
command, the writes sent and the record's progress, partition by partition. -/
def Dev.exchangeEntry (d : Dev) (p : Nat) : List Nat :=
  let t := d.train p
  if p < 4 then
    List.flatten [t.xq.map Cmd.seq,
      (match t.hopper with
       | some h => [h.cmd.seq, h.contrib.length, h.sums.length, h.sumsDone.length, h.toSend.length, b2n h.summed]
       | none => []),
      (match t.vote with | some v => [v.cmd.seq, v.step, b2n v.sent] | none => [])]
  else
    (List.range 4).flatMap (fun q => match (d.bed q).run with
      | some r => [q, r.cmd.seq, r.sent, b2n r.record, b2n r.acked]
      | none => [])

/-- LANES: ACC in 22 bits, EREF, EMPTY and SPECIAL, of the head and of the tail (R52, R61). -/
def Dev.laneEntry (d : Dev) (i : Nat) : List Nat :=
  (List.range 2).flatMap (fun h =>
    let x := SMap.get Lane.start d.benches.lanes (32768 * (i / 16384) + 16384 * h + i % 16384)
    [(BitVec.ofInt 22 x.acc).toNat, (BitVec.ofInt 16 x.eref).toNat, b2n x.empty, x.special.code])

/-- The header of a segment in an inbox (R105). -/
def Dev.inboxHeader (d : Dev) (b : Nat) (t : InTile) (m : Nat) : Nat :=
  let p := ((d.tenantAt b).map Prod.fst).getD 0
  convHeaderBits { chain := t.chain, seq := t.seq, epoch := d.get (kPartEpoch p) % 2 ^ 16, src := t.src, face := t.face, segment := m,
                   last := decide (m = 63), poison := t.poison, sat := bit t.flags 2, ovf := bit t.flags 1,
                   nonfinite := bit t.flags 0, p := p }

/-- INBOXES: the header at a place of a bench's inbox: face, tile place and segment; 0 where none has arrived. -/
def Dev.inboxEntry (d : Dev) (i : Nat) : List Nat :=
  let b := i / 512
  let tiles := (d.bench b).inbox.filter (fun t => decide (t.face = i / 128 % 4))
  match tiles[i / 64 % 2]? with
  | none => [0]
  | some t => [if i % 64 < t.rows then d.inboxHeader b t (i % 64) else 0]

/-! Sections. -/

/-- Sections of a capture (R436): KIND, entry bytes, count; the last two in full captures only. -/
def captureSections : List (Nat × Nat × Nat) :=
  [(1, 32, 544), (2, 128, 96), (3, 64, 96), (4, 256, 128), (5, 8, 16384), (6, 16, 1256), (7, 16, 256), (8, 64, 16),
   (9, 8, 768), (10, 256, 5)]

def fullSections : List (Nat × Nat × Nat) := [(11, 8, 1572864), (12, 8, 49152)]

def sectionsBytes (l : List (Nat × Nat × Nat)) : Nat := (l.map (fun x => 16 + x.2.1 * x.2.2)).sum

/-- What the entries of a section hold at one moment. -/
def Dev.sectionContent (d : Dev) (kind count : Nat) : List (List Nat) :=
  if kind = 6 then
    let l := d.waiterEntries
    (List.range count).map (fun i => l.getD i [])
  else
    let f : Nat → List Nat :=
      if kind = 1 then d.chainEntry else if kind = 2 then d.queueEntry else if kind = 3 then d.benchEntry
      else if kind = 4 then d.haulEntry else if kind = 5 then d.tallyEntry else if kind = 7 then d.barrierEntry
      else if kind = 8 then d.portEntry else if kind = 9 then d.channelEntry else if kind = 10 then d.exchangeEntry
      else if kind = 11 then d.laneEntry else d.inboxEntry
    (List.range count).map f

/-- EXACT of a section (R434): every unit is stopped for a module reset and none where nothing is reset; a section that an engine or
partition reset stops in part is not settled by the spec (free, log 5). -/
def exactBit (domain draw kind : Nat) : Bool :=
  decide (domain = 4) || (decide (domain ≠ 0) && (Config.freeByte draw kind).getLsbD 0)

def Dev.sectionOf (d : Dev) (domain draw : Nat) (x : Nat × Nat × Nat) : Section :=
  { kind := x.1, size := x.2.1, exact := exactBit domain draw x.1, entries := d.sectionContent x.1 x.2.2 }

/-- A section with its header (R436); where the values of an entry stand in it is not given (free, log 5). -/
def Section.bytes (x : Section) : List Byte :=
  toBytes (pack [(8, x.kind), (16, x.size), (32, x.entries.length), (1, b2n x.exact), (71, 0)]) 16 ++
  x.entries.zipIdx.flatMap (fun e => toBytes (Config.captureEntry x.kind e.2 e.1) x.size)

/-- What CAPTURE_SET reads for a capture that is kept. -/
def Capture.bytes (c : Capture) : List Byte := toBytes c.header 64 ++ c.sections.flatMap Section.bytes

/-- CAPTURE_NEXT as the identifier of the capture to come. -/
def Dev.captureId (d : Dev) : Nat := d.get kCaptureNext

/-- A capture is taken (R434 to R436): a summary, and full sections where CAPTURE_DEPTH and CAPTURE_BASE ask for them. It
takes no module time (DESIGN CHOICE, log 40), so all its entries are of one moment. -/
def Dev.capture (d : Dev) (domain p engine faultSeq : Nat) : Dev :=
  let id := d.captureId
  let full := decide (d.get kCaptureDepth = 1) && decide (d.get kCaptureBase ≠ 0)
  let hdr := pack [(64, d.time), (16, id), (32, faultSeq), (4, domain), (2, p), (8, engine), (1, b2n full),
                   (8, if full then 12 else 10), (32, 64 + sectionsBytes captureSections), (345, 0)]
  let draw := d.draws
  let c : Capture := { id := id, header := hdr, sections := captureSections.map (d.sectionOf domain draw) }
  let lanes := fullSections.flatMap (fun x => (d.sectionOf domain draw x).bytes)
  let d := { d with draws := draw + 1
                    faults := { d.faults with captures := ((d.faults.captures ++ [c]).reverse.take 4).reverse } }
  let d := (d.put kCaptureNext (if id = 65535 then 1 else id + 1)).bump kCaptures 1
  if full then d.postMem (d.get kCaptureBase) lanes else d

end Sys2Proof.Machine
end

