-- ==== Sys2Proof/Machine/Recovery.lean ====
section
/-! DEFINITION. Misses and hung segments (R422 to R426), the four resets with their limits (R437 to
R446), beds across a module reset (R447), and the restart of a management core. -/

namespace Sys2Proof.Machine

/-! What holds a unit (R425). -/

/-- The unit that holds a command, as a waiter identifier, with its engine number and *Block causes* code, BLOCK_ID and
BLOCK_VALUE. -/
structure Block where
  unit : Nat
  engine : Nat
  cause : Nat
  id : Nat
  value : Nat
  deriving DecidableEq, Repr

/-- A cause with its identifier and value. -/
abbrev Cause := Nat × Nat × Nat

def unknownCause : Cause := (0, 0, 0)

/-- TALLY_WAIT: a wait posted at the point. -/
def Dev.waitCause (d : Dev) (id : Nat) : Option Cause :=
  if d.posted id then some (1, (d.waitAt id).vt, (d.tally (d.waitAt id).pt).count) else none

/-- FABRIC_CREDIT while the packet stands in its port's queue, RESPONSE_WAIT once it is sent. -/
def Dev.requestCause (d : Dev) (f : Req → Bool) : Option Cause :=
  d.fabric.reqs.findSome? (fun x =>
    match x.2 with
    | none => none
    | some r =>
      if f r = false then none
      else
        let h := packetHeader r.pkt
        let q := d.port r.port
        if (SMap.get [] q.txq h.vl).any (fun y => decide (y = r.pkt)) then
          some (6, 4 * r.port + h.vl, SMap.get 0 q.reserve h.vl + q.pool)
        else some (7, x.1, r.port))

/-- RETRAIN_HOLD with the hold so far, or MEMORY_HOLD with the accesses queued. -/
def Dev.holdCause (d : Dev) (off n : Nat) : Option Cause :=
  match (linesOf off n).find? (fun l => d.heldIn l 1) with
  | none => none
  | some l =>
    let c := d.channelOf l
    if d.pc c = .retraining then some (11, c, (d.time - SMap.get 0 d.mem.retrainAt c) % 2 ^ 32)
    else some (5, c, d.waitingAt c)

/-- The first cause that holds. -/
def firstCause (l : List (Option Cause)) : Cause := (l.findSome? id).getD unknownCause

def isHaul (h ch : Nat) : ReqFor → Bool
  | .haulWrite a b _ _ => a = h && b = ch
  | .haulRead a b _ => a = h && b = ch
  | .haulReadback a b => a = h && b = ch
  | _ => false

/-- What a channel at work waits for. -/
def Dev.chanCause (d : Dev) (h ch : Nat) : Cause :=
  let c := d.chan h ch
  let piece := match c.cur with
    | none => none
    | some cmd =>
      let x := haulOf cmd.word
      let rd := if x.src.space = 0 then (x.readPieces[c.nRead]?).bind (fun p => d.holdCause p.addr p.len) else none
      let wr := if x.dst.space = 0 then (x.writePieces[c.nSent]?).bind (fun p => d.holdCause p.addr p.len) else none
      if rd.isSome then rd else wr
  firstCause [
    if c.full then some (8, 8 * (0x10 + h) + ch, d.get (kHaulCqHead h ch)) else none,
    if c.cur.isNone then d.waitCause (waiterId 4 h ch (d.get (kHaulOwner h) % 4)) else none,
    d.requestCause (fun r => isHaul h ch r.what), piece]

/-- The block of a bench's matrix unit: its head's wait, or the first slot it needs that is not FREE. -/
def Dev.matrixCause (d : Dev) (pl p : Nat) : Cause :=
  let b := d.bench pl
  firstCause [
    d.waitCause (waiterId 1 pl 0 p),
    b.matQ.head?.bind (fun c =>
      ((matmulOf c.word).slots.find? (fun i => decide ((d.slot pl i).state ≠ .free))).map (fun i =>
        (2, i, match (d.slot pl i).state with | .free => 0 | .preload => 1 | .accum => 2 | .held => 3 | .drain => 4)))]

/-- A tile in DRAIN without a credit of its receiver (R104). -/
def Dev.slotCause (d : Dev) (pl i : Nat) : Cause :=
  let x := d.slot pl i
  match x.cmd with
  | none => unknownCause
  | some c =>
    let b := matmulOf c.word
    if x.state = .drain ∧ (b.convPos = 1 ∨ b.convPos = 2) ∧ d.canSend c = false
    then (3, b.chainId, (lowestBit b.faceMask 4).getD 0) else unknownCause

/-- The unit that holds an issued command, and its block. -/
def Dev.blockOf (d : Dev) (k : ChainId) (u : Nat) (seq : Nat) : Block :=
  let p : Nat := k.p
  let mine := fun (c : Cmd) => decide (c.k = k) && decide (c.u = u) && decide (c.seq = seq)
  let mk := fun (unit : Nat) (x : Cause) => { unit := unit, engine := k.e, cause := x.1, id := x.2.1, value := x.2.2 : Block }
  let sq := d.seqWaiter k u
  let cur := d.cursor k u
  if cur.ctl.any mine then
    mk sq (firstCause [d.waitCause sq, d.requestCause (fun r => match r.what with | .signal c => mine c | _ => false)])
  else if isLift k then
    let pl := d.unitPlace k u
    if (d.bench pl).matQ.any mine then mk (waiterId 1 pl 0 p) (d.matrixCause pl p)
    else if (d.bench pl).vecQ.any mine then mk (waiterId 2 pl 0 p) (firstCause [d.waitCause (waiterId 2 pl 0 p)])
    else
      match (List.range 8).find? (fun i => (d.slot pl i).cmd.any mine) with
      | some i => mk (waiterId 1 pl 0 p) (d.slotCause pl i)
      | none => mk sq unknownCause
  else if k.e.val < 0x20 then
    let h := k.e.val - 0x10
    match (List.range 8).find? (fun ch => (d.chan h ch).cur.any mine || (d.chan h ch).queued.any mine) with
    | some ch => mk (waiterId 4 h ch p) (d.chanCause h ch)
    | none =>
      match cur.outst.find? (fun (o : Outst) => decide (o.seq = seq)) with
      | some o =>
        match o.haul with
        | some e => mk (waiterId 4 h e.ch p) (if d.cqFull e.h e.ch then (8, 8 * k.e + e.ch, d.get (kHaulCqHead e.h e.ch)) else unknownCause)
        | none => mk sq unknownCause
      | none => mk sq unknownCause
  else if k.e.val = 0x20 then
    let w := waiterId 6 0 0 p
    if (d.train p).xq.any mine = false then mk sq unknownCause
    else mk w (firstCause [d.waitCause w,
      (d.train p).vote.bind (fun v => if v.sent then some (9, v.step, d.get (kVoteSlot p)) else none),
      d.requestCause (fun r => isExchange p r.what)])
  else
    let w := waiterId 8 0 0 p
    if (d.bed p).q.any mine = false then mk sq unknownCause
    else mk w (firstCause [d.waitCause w,
      ((List.range 4).find? (fun q => decide (q ≠ p) && (d.bed q).run.isSome)).map (fun q => (10, q, 0)),
      d.requestCause (fun r => isBedReq p r.what),
      ((d.bed p).run).bind (fun r => match r.regions.map regionOf with
        | x :: _ => d.holdCause x.off stripeBytes
        | [] => none)])

/-- A word not yet issued is held by its sequencer: for a full queue, or for memory. -/
def Dev.blockUnread (d : Dev) (k : ChainId) (u : Nat) : Block :=
  let c := d.cursor k u
  let word := d.readNum c.pos 64
  let op := (headerOf word).opcode
  let h := k.e.val - 0x10
  let pl := d.unitPlace k u
  let full : Option Nat :=
    if op = opMatmul ∧ unitQueue ≤ (d.bench pl).matQ.length then some (d.bench pl).matQ.length
    else if op = opVector ∧ unitQueue ≤ (d.bench pl).vecQ.length then some (d.bench pl).vecQ.length
    else if op = opHaul ∧ (d.chan h (headerOf word).channel).queued.isSome then some 1
    else if (op = opHopper ∨ op = opVote) ∧ engineQueue ≤ (d.train k.p).xq.length then some (d.train k.p).xq.length
    else if 0x21 ≤ k.e.val ∧ engineQueue ≤ (d.bed k.p).q.length then some (d.bed k.p).q.length
    else none
  let x := firstCause [d.holdCause c.pos 64, full.map (fun n => (4, (k.e : Nat), n))]
  { unit := d.seqWaiter k u, engine := k.e, cause := x.1, id := x.2.1, value := x.2.2 }

/-- A CMD_SEQ belongs to the segment or comes after its SEGMENT word. -/
def Seg.holds (s : Seg) (seq : Nat) : Bool :=
  let at_ := (seq + 2 ^ 32 - s.seq0) % 2 ^ 32
  decide (at_ < 2 ^ 31) &&
  (match s.endSeq with
   | none => true
   | some e => decide (at_ < (e + 2 ^ 32 - s.seq0) % 2 ^ 32))

/-- The oldest command of a segment that one unit has not completed: its CMD_SEQ, and whether it has been issued. -/
def Dev.oldestAt (d : Dev) (k : ChainId) (s : Seg) (u : Nat) : Option (Nat × Bool) :=
  let c := d.cursor k u
  match c.outst.find? (fun (o : Outst) => s.holds o.seq) with
  | some o => some (o.seq, true)
  | none => if s.doneBy.contains u ∨ s.holds c.expSeq = false then none else some (c.expSeq, false)

/-- The unit furthest behind, the command it holds, and its block. -/
def Dev.laggard (d : Dev) (k : ChainId) (s : Seg) : Nat × Nat × Block :=
  let all := (List.range (d.unitsOf k)).filterMap (fun u => (d.oldestAt k s u).map (fun x => (u, x.1, x.2)))
  match ordered (fun x y => decide ((x.2.1 + 2 ^ 32 - s.seq0) % 2 ^ 32 ≤ (y.2.1 + 2 ^ 32 - s.seq0) % 2 ^ 32)) all with
  | [] => (0, s.seq0, { unit := d.seqWaiter k 0, engine := k.e, cause := 0, id := 0, value := 0 })
  | (u, seq, issued) :: _ => (u, seq, if issued then d.blockOf k u seq else d.blockUnread k u)

/-- The body of a DEADLINE_MISS record. -/
def missBody (s : Seg) (b : Block) : List (Nat × Nat) :=
  [(64, s.deadline), (64, s.extended), (16, b.unit), (8, b.cause), (32, b.id), (32, b.value)]

def Dev.whereSeg (d : Dev) (k : ChainId) (s : Seg) (u seq : Nat) : Where :=
  { atCmd k s.kind s.step s.segId seq with bench := if isLift k then d.hostBench k.p (d.logicalOf k u) else 0x7F }

/-- *Effects of a miss* (R423): 1 STEP_PHASE, 2 EVALUATION, 3 SERVING_BATCH. -/
def Dev.missEffect (d : Dev) (p kind : Nat) : Dev :=
  if kind = 1 ∨ kind = 2 then d.stepMiss p else if kind = 3 then d.servingMiss p else d

/-- A segment is reported missed (R422, R423, R425); the chain keeps running (R147). -/
def Dev.missSeg (d : Dev) (k : ChainId) (s : Seg) : Dev :=
  let x := d.laggard k s
  let d := d.setGauge k (mapSeg (d.gauge k) s.seq0 (fun s => { s with missed := true }))
  let d := (d.bump kDeadlineMisses 1).record (d.whereSeg k s x.1 x.2.1) 0x104 3 (missBody s x.2.2)
  d.missEffect k.p s.kind

/-- DEADLINE_MISS; no deadline passes while a hold lasts that will extend it (R262; DEDUCED, log 151). -/
def Dev.deadlineMiss (d : Dev) (k : ChainId) : Dev :=
  if d.memHolds then d else
  match (d.gauge k).find? (fun (s : Seg) => !s.missed && s.heldAt.isNone && decide (s.deadline ≤ d.time)) with
  | none => d
  | some s => d.missSeg k s

/-- The batches of the serving partitions are closed as deadline faults (R310). -/
def Dev.closeBatches (d : Dev) : Dev :=
  (d.seqs.gauges.flatMap (fun g =>
    (g.2.filter (fun (s : Seg) => decide (s.kind = 3) && !s.missed)).map (fun s => (g.1, s)))).foldl
    (fun d x => d.missSeg (chainOf (x.1 / 136) (x.1 / 4 % 34) (x.1 % 4)) x.2) d

def execDeadlineMiss (k : ChainId) (s : State) : Host.Outcome State Fault Refusal :=
  onDie (fun d => d.deadlineMiss k) s

/-! Resets. -/

/-- *RESET_REQUEST fields*. -/
structure ResetReq where
  domain : Nat
  engine : Nat
  clear : Bool
  chain : Nat
  p : Nat
  deriving DecidableEq, Repr

def resetReqOf (w : Nat) : ResetReq :=
  { domain := fld w 19 16, engine := fld w 15 8, clear := bit w 4, chain := fld w 3 2, p := fld w 1 0 }

def resetReqBits (x : ResetReq) : Nat :=
  pack [(12, 0), (4, x.domain), (8, x.engine), (3, 0), (1, b2n x.clear), (2, x.chain), (2, x.p)]

/-- Causes of a reset, in the order of R437 (DEDUCED, log 41). -/
def rcRequest : Nat := 1
def rcFlr : Nat := 2
def rcTray : Nat := 3
def rcHang : Nat := 4
def rcEscalated : Nat := 5

def Dev.setRun' (d : Dev) (r : Option ResetRun) : Dev := { d with faults := { d.faults with run := r } }

/-- RESET_STATUS (R446). -/
def Dev.setResetStatus (d : Dev) (v : Nat) : Dev := d.putRaise 2 kResetStatus v

def Dev.startReset (d : Dev) (r : ResetRun) : Dev := (d.setRun' (some r)).setResetStatus 2

/-- The chain issues nothing further (R438). -/
def Dev.commandReset (d : Dev) (k : ChainId) (cause : Nat) : Dev :=
  let d := (List.range (d.unitsOf k)).foldl (fun d u =>
    let c := d.cursor k u
    if c.state = .polling ∨ c.state = .running then d.setCursor k u { c with state := .halted } else d) d
  d.startReset { domain := 1, cause := cause, clear := false, refuse := false, discarded := false, parts := [((k.p : Nat), 0)], engine := k.e, chain := k.c, startedAt := d.time }

/-- Issued commands of the partition's engines are aborted, and an ADMITTED training partition fails its step (R439). -/
def Dev.engineReset (d : Dev) (p engine cause : Nat) (clear : Bool) (capture : Nat) : Dev :=
  let d := d.startReset
    { domain := 2, cause := cause, clear := clear, refuse := false, discarded := false, parts := [(p, capture)], engine := engine, chain := 0, startedAt := d.time }
  let d := if d.isTraining p then d.setFlag p pfCheckFail true else d
  ((d.abortEngines p engine).kickBed).voteIfDue p

/-- A partition's vote fails, its teardown runs, and what it issued is aborted at once (R443). -/
def Dev.resetPart (d : Dev) (p causeType causeSeq : Nat) : Dev :=
  let d := d.abandonVote p
  let d := d.faultTeardown p causeType causeSeq
  (((d.stopCkpt p).abortEngines p 0xFF).kickBed)

/-- The states a partition reset acts in. -/
def Dev.resettable (d : Dev) (p : Nat) : Bool := d.loading p || decide (d.pState p = psAdmitted) || decide (d.pState p = psQuiescing)

def Dev.partitionReset (d : Dev) (p cause causeType causeSeq capture : Nat) : Dev :=
  let d := d.startReset
    { domain := 3, cause := cause, clear := false, refuse := false, discarded := false, parts := [(p, capture)], engine := 0xFF, chain := 0, startedAt := d.time }
  d.resetPart p causeType causeSeq

/-- *Retained bed record*. -/
def Dev.retainedBits (d : Dev) (p : Nat) : Nat :=
  let b := d.bed p
  pack [(512, stateDigest (d.get (kStateDigest p))), (32, d.get (kBedStep p)), (32, d.get (kPartBedY0 p)),
        (32, d.get (kPartBedPositions p)), (44, b.listAddr), (16, b.regions.length), (16, d.get (kPartMpart p)), (339, 0), (1, 1)]

/-- R447: what the beds hold is kept across the reset; RETAINED_STATE HELD. -/
def Dev.retainBeds (d : Dev) : Dev :=
  (List.range 4).foldl (fun d p =>
    if d.get (kBedStep p) = 0xFFFFFFFF then d
    else (d.put (kRetainedBed p) (d.retainedBits p)).put (kRetainedState p) 1) d

/-- RESET_DONE (R446): the record, LAST_RESET and RESET_STATUS. -/
def Dev.resetRecord (d : Dev) (r : ResetRun) (w : Where) (result : Nat) : Dev :=
  let seq := d.get kFaultSeqNext
  let d := d.record w 0x702 0 [(4, r.domain), (4, r.cause), (2, result), (64, d.time - r.startedAt)]
  d.put kLastReset (pack [(4, r.domain), (4, r.cause), (24, 0), (32, seq)])

/-- The scope a reset's record names: one record per partition reset. -/
def resetScopes (r : ResetRun) : List Where :=
  if r.domain = 4 then [{ noWhere with capture := ((r.parts.head?).map Prod.snd).getD 0 }]
  else r.parts.map (fun x =>
    if r.domain = 1 then { noWhere with ctx := 3, p := x.1, e := r.engine, c := r.chain }
    else if r.domain = 2 then { atEngine x.1 r.engine with capture := x.2 }
    else { atPart x.1 with capture := x.2 })

/-- Telemetry of resets (R454). -/
def Dev.countResets (d : Dev) (r : ResetRun) : Dev :=
  if r.domain = 2 then d.bump kResetsEngine 1
  else if r.domain = 3 then d.bump kResetsPartition r.parts.length
  else if r.domain = 4 then d.bump kResetsModule 1 else d

/-- The reset in progress ends with a result: 0 DONE, 1 ESCALATED. -/
def Dev.endReset (d : Dev) (r : ResetRun) (result : Nat) : Dev :=
  let d := (resetScopes r).foldl (fun d w => d.resetRecord r w result) d
  let d := ((d.countResets r).setRun' none).setResetStatus (if result = 0 then 3 else 4)
  match d.faults.next with
  | some n => Dev.startReset { d with faults := { d.faults with next := none } } n
  | none => d

/-- A reset in progress is taken over. -/
def Dev.endRunning (d : Dev) : Dev :=
  match d.faults.run with
  | some r => d.endReset r 1
  | none => d

/-- Each partition that is not EMPTY is reset; the rest follows when they are torn down (R444). A smaller reset in progress is
taken over. -/
def Dev.moduleReset (d : Dev) (cause : Nat) : Dev :=
  let d := d.endRunning.endRunning
  let d := d.commitHeld
  let armed := decide (d.get kRefuseState = 1)
  let refuse := armed && d.allEmpty
  let d := if refuse then d else d.discardToken
  let id := d.captureId
  let d := ((d.capture 4 0 0 0).retainBeds).put kModuleState 3
  let d := d.startReset
    { domain := 4, cause := cause, clear := false, refuse := refuse, discarded := armed && !refuse, parts := [(0, id)], engine := 0xFF, chain := 0, startedAt := d.time }
  (List.range 4).foldl (fun d p => if d.resettable p then d.resetPart p 0 0 else d) d

/-! Completion. -/

/-- A command of the chain is still at work on some unit. -/
def Dev.atWork (d : Dev) (k : ChainId) : Bool :=
  let mine := fun (c : Cmd) => decide (c.k = k)
  (List.range (d.unitsOf k)).any (fun u => (d.cursor k u).ctl.isSome || (d.cursor k u).proof) ||
  d.benches.unit.any (fun x => x.2.matQ.any mine || x.2.vecQ.any mine) ||
  d.benches.slots.any (fun x => x.2.cmd.any mine) ||
  d.haul.any (fun x => x.2.cur.any mine || x.2.queued.any mine) ||
  (d.train k.p).xq.any mine || (d.bed k.p).q.any mine

/-- The partition has gone through its teardown. -/
def Dev.atRest (d : Dev) (p : Nat) : Bool := decide (d.pState p ≠ psQuiescing) || d.confirmable p

/-- The reset in progress can complete (R438, R441, R443, R444). -/
def Dev.resetReady (d : Dev) (r : ResetRun) : Bool :=
  if r.domain = 1 then r.parts.all (fun x => !d.atWork (chainOf x.1 r.engine r.chain))
  else if r.domain = 2 then r.parts.all (fun x => d.abortsDone x.1 r.engine)
  else if r.domain = 3 then r.parts.all (fun x => d.atRest x.1)
  else (List.range 4).all (fun p => d.atRest p)

/-- R440: the partition's tallies, its graders and its non-finite flag are cleared. -/
def Dev.clearForEngine (d : Dev) (p : Nat) : Dev :=
  let d := ((d.clearTallies p false).clearGraders p).setFlag p pfNonfinite false
  (d.barrierSlots p).foldl (fun d i =>
    let e := d.barrier p i
    match d.phys p e.release with
    | some t => if e.enable then d.setTally t { Tally.zero with count := d.get (kBarrierGen p i) } else d
    | none => d) d

/-! What a module reset leaves (R444, R445). -/

/-- VOLATILE entries that have no default to take, and report what a module reset leaves running (R444, R515): the T1S port, the
CONFIG slot in force, the rails, the envelope, the boot stage, and the unlocking of JTAG until the next power cycle (DEDUCED, log 42). -/
def keptKeys : List Nat :=
  [kT1sNodeId, kT1sState, kConfigSeq, kEnvelopeState, kRailState, kRailPhases, kBootStage, kDebugState]

/-- A value of an entry outlasts a module reset (R20, R444). FW_STATE keeps PENDING and TRIAL, as the boot control record and the
running image do (R507; DEDUCED, log 42). -/
def survives (k v : Nat) : Bool :=
  match cardOf k with
  | none => false
  | some c => decide (c.pers ≠ .volatile) || keptKeys.contains k ||
      (decide (k = kFwState) && (decide (v = fwPending) || decide (v = fwTrial)))

/-- LOST and RELIEVED persist (R269); every other state of a pseudo-channel is rebuilt. -/
def Dev.keptChannels (d : Dev) : SMap PcState :=
  d.mem.pcState.filterMap (fun x =>
    let v := if x.2 = .test then SMap.get PcState.online d.mem.pcBefore x.1 else x.2
    if v = .lost ∨ v = .relieved then some (x.1, v) else none)

def Dev.resetMem (d : Dev) : Mem :=
  { d.mem with
    held := [], carried := []
    poison := d.mem.heldWrites.foldl (fun m x => NSet.add m x.1) d.mem.poison
    pcState := d.keptChannels, pcBefore := [], retrainAt := [], retrainWaiting := [], heldWrites := [], parityTimes := []
    rowCe := [], remapping := [], warned := [], tgRunning := [], tgResult := [], tgPassed := [] }

/-- Every port in TRAINING, but those that PORT_DISABLE holds DOWN, and all DOWN without light while the rails are off (R444, R497,
*Fabric entries*; log 152). -/
def Dev.startPorts (d : Dev) : Dev :=
  (List.range 16).foldl (fun d n =>
    let x := { Port.fresh with trainedAt := d.time, waitFrom := d.time }
    let d := d.setPort n x
    if d.get (kPortDisable n) = 1 then d.setPortState n 0 9
    else if d.env.railsOff then d.setPortState n 0 1
    else d.setPortState n 1 0) d

/-- The units are reset and VOLATILE entries take their defaults. -/
def Dev.wipe (d : Dev) : Dev :=
  let d := { d with
    dict := d.dict.filter (fun x => survives x.1 x.2)
    seqs := Seqs.reset
    benches := { Benches.reset with unrepaired := d.benches.unrepaired }
    haul := [], haulStop := [], tallies := Tallies.reset, mem := d.resetMem, fabric := Fabric.reset
    training := Training.reset, parts := [], sec := { d.sec with report := [] }
    faults := { d.faults with lastProof := [], rangeAt := [], rangeUnrep := [] } }
  d.updateUsable.startPorts

/-- Stack of a row key. -/
def rowStack (key : Nat) : Nat := key / 786432 % 12

/-- One pending hard repair (R255): whether the stack has a repair resource left is free; success frees the soft entry and its
spare. -/
def Dev.hardRepair (d : Dev) (key : Nat) : Dev :=
  let r := d.draw
  let d := r.2
  if r.1.getLsbD 0 = false then d
  else
    let c := key / 786432
    let spare := SMap.get none d.mem.softRemap key
    let s := rowStack key
    let d := { d with mem := { d.mem with
      softRemap := SMap.set none d.mem.softRemap key none
      sparesUsed := match spare with
        | some i => SMap.set [] d.mem.sparesUsed c (NSet.del (SMap.get [] d.mem.sparesUsed c) i)
        | none => d.mem.sparesUsed
      pendingRepairs := d.mem.pendingRepairs.erase key } }
    (d.put (kSoftRemapUsed s) (d.get (kSoftRemapUsed s) - 1)).put (kPendingHardRepairs s) (d.get (kPendingHardRepairs s) - 1)

def Dev.hardRepairs (d : Dev) : Dev := d.mem.pendingRepairs.foldl (fun d key => d.hardRepair key) d

/-- Extremes cover the time since the last module reset (R553). -/
def Point.restart (x : Point) : Point := { x with min := x.value, max := x.value }

/-- A vector for status entries that have changed (R479). -/
def Dev.raiseFor (d old : Dev) (v : Nat) (ks : List Nat) : Dev := if ks.any (fun k => decide (d.get k ≠ old.get k)) then d.msix v else d

/-- A module reset ends in STANDBY with a fresh challenge (R444, R512, *Communication entries*); what only a power cycle clears, a
failure or an envelope shutdown, stays FAILED (R446, R493, R550; DEDUCED, log 152). -/
def Dev.moduleEnd (d : Dev) : Dev :=
  let failed := d.env.fatalLow || d.env.shutAt.isSome
  let e := (((d.wipe.hardRepairs).put kModuleState (if failed then 4 else 1)).freshChallenge).raiseFor d 1 [kShiftStatus]
  let d := (e.raiseFor d 3 ((List.range 4).map kPartState)).raiseFor d 4 (kCoordState :: (List.range 16).map kPortState)
  { d with env := { d.env with points := d.env.points.map (fun x => (x.1, x.2.restart)) } }

/-- What the end of a reset does. -/
def Dev.resetEffect (d : Dev) (r : ResetRun) : Dev :=
  if r.domain = 1 then r.parts.foldl (fun d x => d.idleChain (chainOf x.1 r.engine r.chain)) d
  else if r.domain = 2 then r.parts.foldl (fun d x => if r.clear then d.clearForEngine x.1 else d) d
  else if r.domain = 4 then (if r.discarded then d.moduleEnd.put kRefuseState 3 else d.moduleEnd) else d

/-- RESET_DONE: of a module reset that applies an armed re-fuse, with its fuses blown (R514). -/
def Dev.resetDone (f : Fuses) (d : Dev) : Fuses × Dev :=
  match d.faults.run with
  | none => (f, d)
  | some r =>
    if d.resetReady r = false then (f, d)
    else
      let d := (d.resetEffect r).endReset r 0
      if r.refuse then d.applyToken f else (f, d)

def execResetDone (s : State) : Host.Outcome State Fault Refusal := onAll Dev.resetDone s

/-! Limits. -/

/-- *Reset limits*, in ns; a module reset is given 2 ms for each pending repair of the stack with the most. -/
def Dev.resetLimit (d : Dev) (r : ResetRun) : Nat :=
  let most := ((List.range 12).map (fun s => d.get (kPendingHardRepairs s))).foldl max 0
  if r.domain = 1 ∨ r.domain = 2 then 10000000
  else if r.domain = 3 then 50000000
  else 2000000000 + 2000000 * most

/-- RESET_FAILED (R446): of its STAGE the spec gives nothing for a module reset (free). -/
def Dev.resetFailed (d : Dev) : Dev :=
  let r := d.draw
  let d := r.2.record noWhere 0x703 5 [(4, 4), (8, r.1.toNat)]
  let d := ((d.setRun' none).setResetStatus 5).put kModuleState 4
  { d with env := { d.env with fatalLow := true } }

/-- RESET_ESCALATION: the next domain takes over (R446). -/
def Dev.resetEscalation (d : Dev) : Dev :=
  match d.faults.run with
  | none => d
  | some r =>
    if d.time < r.startedAt + d.resetLimit r then d
    else if r.domain = 4 then (d.endReset r 1).resetFailed
    else if r.domain = 3 then d.moduleReset rcEscalated
    else
      let d := d.endReset r 1
      let p := ((r.parts.head?).map Prod.fst).getD 0
      let id := d.captureId
      if r.domain = 1 then (d.capture 2 p r.engine 0).engineReset p r.engine rcEscalated false id
      else (d.capture 3 p 0xFF 0).partitionReset p rcEscalated 0 0 id

def execResetEscalation (s : State) : Host.Outcome State Fault Refusal := onDev Dev.resetEscalation s

/-! Hung segments. -/

/-- SEGMENT_HUNG (R426): the capture, the record that names it, then HANG_ACTION. A reset in progress stands. -/
def Dev.segmentHung (d : Dev) (k : ChainId) : Dev :=
  let p : Nat := k.p
  match (d.gauge k).find? (fun (s : Seg) => !s.hung && s.heldAt.isNone && decide (s.deadline + d.get (kHangAfter p) ≤ d.time)) with
  | none => d
  | some s =>
    let x := d.laggard k s
    let action := d.get (kHangAction p)
    let id := d.captureId
    let seq := d.get kFaultSeqNext
    let d := d.setGauge k (mapSeg (d.gauge k) s.seq0 (fun s => { s with hung := true }))
    let d := d.capture (if action = 1 then 2 else if action = 2 then 3 else 0) p (if action = 1 then x.2.2.engine else 0xFF) seq
    let d := (d.bump kSegmentsHung 1).record { d.whereSeg k s x.1 x.2.1 with capture := id } 0x106 3
      (missBody s x.2.2 ++ [(2, action)])
    if d.faults.run.isSome then d
    else if action = 1 ∧ (d.loading p ∨ d.pState p = psAdmitted) then d.engineReset p x.2.2.engine rcHang false id
    else if action = 2 ∧ d.resettable p then d.partitionReset p rcHang 0x106 seq id
    else d

def execSegmentHung (k : ChainId) (s : State) : Host.Outcome State Fault Refusal :=
  onDie (fun d => d.segmentHung k) s

/-! Requests for a reset. -/

/-- RESET_REQUEST is refused (R437 to R444, R448). -/
def Dev.resetRefused (d : Dev) (w : Nat) : Option Nat :=
  let x := resetReqOf w
  let form :=
    if x.domain = 1 then decide (x.engine < 34) && !x.clear
    else if x.domain = 2 then (decide (x.engine < 34) || decide (x.engine = 0xFF)) && (!x.clear || decide (x.engine = 0xFF)) && decide (x.chain = 0)
    else if x.domain = 3 then decide (x.engine = 0) && !x.clear && decide (x.chain = 0)
    else if x.domain = 4 then decide (x.engine = 0) && !x.clear && decide (x.chain = 0) && decide (x.p = 0)
    else false
  let still := fun (s : ChainState) => decide (s = .faulted) || decide (s = .halted) || decide (s = .polling)
  let k := chainOf x.p x.engine x.chain
  let state :=
    if x.domain = 1 then (List.range (d.unitsOf k)).any (fun u => still (d.cursor k u).state)
    else if x.domain = 2 then d.loading x.p || decide (d.pState x.p = psAdmitted)
    else if x.domain = 3 then d.resettable x.p
    else true
  let busy := match d.faults.run with
    | none => false
    | some r => decide (x.domain ≠ 4) || decide (r.domain = 4)
  firstAbort [
    (decide (x.domain = 1 ∨ x.domain = 2) && decide (d.pState x.p = psQuiescing), d.abQuiescing x.p),
    (form && !state, d.abState x.p),
    (!form, abRange),
    (busy, abBusy)]

/-- An accepted RESET_REQUEST. -/
def Dev.requestReset (d : Dev) (w : Nat) : Dev :=
  let x := resetReqOf w
  let id := d.captureId
  if x.domain = 1 then d.commandReset (chainOf x.p x.engine x.chain) rcRequest
  else if x.domain = 2 then (d.capture 2 x.p x.engine 0).engineReset x.p x.engine rcRequest x.clear id
  else if x.domain = 3 then (d.capture 3 x.p 0xFF 0).partitionReset x.p rcRequest 0 0 id
  else d.moduleReset rcRequest

/-- A module reset from a line or an operation outside the dictionary: ignored while one is in progress (R531). -/
def Dev.moduleResetLine (d : Dev) (cause : Nat) : Dev :=
  match d.faults.run with
  | some r => if r.domain = 4 then d else d.moduleReset cause
  | none => d.moduleReset cause

/-- TRAY_RESET_N (R531): high for 10 ms before the edge and low for 1 ms. -/
def execTrayResetN (highMs lowMs : BitVec 32) (s : State) : Host.Outcome State Fault Refusal :=
  onDev (fun d =>
    if d.powered = true ∧ 10 ≤ highMs.toNat ∧ 1 ≤ lowMs.toNat ∧ d.get kModuleState ≠ 0 ∧ d.get kModuleState ≠ 4
    then d.moduleResetLine rcTray else d) s

/-- A capture for each partition, and the partition reset that a Function Level Reset makes of them (R434, R443). -/
def Dev.flrRun (d : Dev) (ps : List Nat) : Dev × ResetRun :=
  let ids := ps.zipIdx.map (fun x => (x.1, (d.captureId + x.2 - 1) % 65535 + 1))
  let d := ps.foldl (fun d p => d.capture 3 p 0xFF 0) d
  (d, { domain := 3, cause := rcFlr, clear := false, refuse := false, discarded := false, parts := ids, engine := 0xFF, chain := 0, startedAt := d.time })

/-- FUNCTION_LEVEL_RESET (R443): a partition reset of every partition in the states it acts in, one capture each. A command or
engine reset in progress is taken over; beside a partition reset in progress the new ones run on their own; a module reset in
progress resets every partition itself (DESIGN CHOICE, log 148). -/
def Dev.functionReset (d : Dev) : Dev :=
  let d := { (d.put kBar2Base 0) with mgmt := { d.mgmt with msixTable := [], msixPending := [], d3hot := false, busMaster := false } }
  let ps := (List.range 4).filter (fun p => d.resettable p)
  let moduleRuns := d.faults.run.any (fun r => decide (r.domain = 4))
  if ps = [] ∨ moduleRuns = true then d
  else if d.faults.run.any (fun r => decide (r.domain = 3)) then
    match d.faults.next with
    | some n =>
      let qs := ps.filter (fun p => !n.parts.any (fun x => decide (x.1 = p)))
      let x := d.flrRun qs
      let d := { x.1 with faults := { x.1.faults with next := some { n with parts := n.parts ++ x.2.parts } } }
      qs.foldl (fun d p => d.resetPart p 0 0) d
    | none =>
      let x := d.flrRun ps
      let d := { x.1 with faults := { x.1.faults with next := some x.2 } }
      ps.foldl (fun d p => d.resetPart p 0 0) d
  else
    let x := d.endRunning.flrRun ps
    ps.foldl (fun d p => d.resetPart p 0 0) (x.1.startReset x.2)

def execFunctionLevelReset (s : State) : Host.Outcome State Fault Refusal := onDev Dev.functionReset s

/-! The management cores. -/

/-- MGMT_CORE_RESTART (R446): a core silent for 100 ms. -/
def execMgmtCoreRestart (core : Fin 2) (silentMs : BitVec 16) (s : State) : Host.Outcome State Fault Refusal :=
  onDev (fun d =>
    if silentMs.toNat < 100 then d else d.record noWhere 0x704 0 [(1, core.val), (16, silentMs.toNat)]) s

/-! Retained beds (R447). -/

/-- RETAINED_ADOPT is accepted. -/
def Dev.adoptable (d : Dev) (p : Nat) : Bool :=
  let w := d.get (kRetainedBed p)
  d.loading p && bit w 0 && decide (d.get (kPartBedY0 p) = fld w 479 448) && decide (d.get (kPartBedPositions p) = fld w 447 416) &&
  d.inAlloc p (fld w 415 372) (16 * fld w 371 356)

/-- The bed images in place are digested and compared; a poisoned line matches nothing (R371). -/
def Dev.adopt (d : Dev) (p : Nat) : Dev :=
  let w := d.get (kRetainedBed p)
  let ws := d.readRegions (fld w 415 372) (fld w 371 356)
  let rs := ws.map regionOf
  let digest := d.stateDigestOf p false rs
  let bad := d.statePoisoned p false [] (rs.filter Region.digest) || d.badRegions p ws
  let d := d.put (kRetainedBed p) (setBitTo w 0 false)
  if digestsAgree digest (fld w 1023 512) bad false then
    let d := ((d.put (kBedStep p) (fld w 511 480)).setStateDigest p (fld w 511 480) false digest).put (kRetainedState p) 3
    d.setBed p { d.bed p with regions := ws, listAddr := fld w 415 372 }
  else d.put (kRetainedState p) 4

/-! Smaller actions. -/

/-- FAULT_LOG_CLEAR (R420): every place empty, the numbering kept. -/
def Dev.clearLog (d : Dev) : Dev := { d with faults := { d.faults with log := [] } }

/-- BENCH_UNFENCE (R116, R118): the bench is usable again, as a spare is (its mask bit goes). -/
def Dev.unfence (d : Dev) (b : Nat) : Dev :=
  (d.put kBenchFenceMask (setBitTo (d.get kBenchFenceMask) b false)).updateUsable

/-- A face of the bench has a defect that no spare covers. -/
def Dev.unrepairedBench (d : Dev) (b : Nat) : Bool := d.benches.unrepaired.any (fun i => decide (i / 4 = b))

end Sys2Proof.Machine
end

