-- ==== Sys2Proof/Machine/Links.lean ====
section
/-! DEFINITION. Ports: lanes and their spares (R276 to R282), link retry (R283, R284), credits and the choice of the next
packet (R285 to R288), training, discovery and admission (R301 to R310), and module time across the job (R314, R315). -/

namespace Sys2Proof.Machine

/-! Port states (R303 to R309). -/

def poDown : Nat := 0
def poTraining : Nat := 1
def poQuiet : Nat := 2
def poStandby : Nat := 3
def poAdmitted : Nat := 4
def poFenced : Nat := 5
def poUnplanned : Nat := 6

def reNoLight : Nat := 1
def reTrainingFailed : Nat := 2
def reLanes : Nat := 3
def reRetrain : Nat := 4
def reSwapped : Nat := 5
def reWrong : Nat := 6
def reForeign : Nat := 7
def reNotInPlan : Nat := 8
def reDisabled : Nat := 9
def reNoNeighbour : Nat := 10

def Dev.portState (d : Dev) (n : Nat) : Nat := d.get (kPortState n)

/-- The link is trained. -/
def Dev.linked (d : Dev) (n : Nat) : Bool := decide (poQuiet ≤ d.portState n)

/-- R310: the number of ADMITTED ports has fallen below MIN_PORTS. ADMITTED of the record is a port mask (DEDUCED, log 44). -/
def Dev.shortRecord (d : Dev) : Dev :=
  d.record noWhere 0x407 3 [(16, maskOf d.admittedPorts), (5, d.fabric.coords.minPorts)]

/-- The record, a fail vote of each step in flight, and the serving batches closed (R310). -/
def Dev.fabricShort (d : Dev) : Dev :=
  let d := d.shortRecord
  let d := (List.range 4).foldl (fun d p =>
    match d.stepInFlight p with
    | none => d
    | some n =>
      if d.voted p n then d else (d.setTrain p { d.train p with fabricShort := true }).voteIfDue p) d
  d.closeBatches

/-- What follows a change from a module whose fabric was not short. -/
def Dev.shortCheck (d : Dev) (before : Bool) : Dev := if before = false ∧ d.fabricIsShort then d.fabricShort else d

/-- Credits of one lane are granted to the neighbour, its reserve with a share of the pool. -/
def Dev.grant (d : Dev) (n vl pool : Nat) : Dev :=
  let x := d.port n
  let r := x.split.getD vl 0
  (d.setPort n { x with granted := SMap.set 0 x.granted vl r, grantedPool := x.grantedPool + pool }).tell n (.grant vl r pool)

/-- The credits of a lane are revoked. -/
def Dev.revoke (d : Dev) (n vl : Nat) : Dev :=
  let x := d.port n
  (d.setPort n { x with granted := SMap.set 0 x.granted vl 0 }).tell n (.revoke vl)

/-- A port enters a state. QUIET grants MANAGEMENT its reserve, ADMITTED the other lanes theirs and the pool, which go with
ADMITTED (R303, R307). -/
def Dev.enterPort (d : Dev) (n state reason : Nat) : Dev :=
  let was := d.portState n
  let d := d.setPortState n state reason
  if state = was then d
  else if state = poQuiet then d.grant n vlManagement 0
  else if state = poAdmitted then
    ((d.grant n vlData ((d.port n).split.getD 4 0)).grant n vlCollective 0).grant n vlReplay 0
  else if was = poAdmitted then
    let d := ((d.revoke n vlData).revoke n vlCollective).revoke n vlReplay
    d.setPort n { d.port n with grantedPool := 0 }
  else d

/-- A port enters a state; leaving ADMITTED may leave the module short. -/
def Dev.movePort (d : Dev) (n state reason : Nat) : Dev := (d.enterPort n state reason).shortCheck d.fabricIsShort

/-- A port goes DOWN: its record, the warning, and the frames in its retry buffer are lost (R281, R284, R309). -/
def Dev.dropPort (d : Dev) (n reason : Nat) : Dev :=
  let x := d.port n
  let d := d.setPort n { x with retry := [], replays := [], retraining := false, wanted := [], identDue := none, downAt := d.time }
  let d := d.record (atSite n) 0x404 0 [(4, reason)]
  let seq := d.lastSeq
  let d := if reason = reDisabled then d else d.ckptWarn (atSite n) 6 seq
  d.enterPort n poDown reason

/-- A port enters DOWN, which may leave the module short (R310). -/
def Dev.downPort (d : Dev) (n reason : Nat) : Dev := (d.dropPort n reason).shortCheck d.fabricIsShort

/-- Link training begins: substitutions and credits are built anew (R282, R287). -/
def Dev.startTraining (d : Dev) (n : Nat) : Dev :=
  let x := d.port n
  let d := d.setPort n { Port.fresh with
    trainedAt := d.time, waitFrom := d.time, lastIdent := x.lastIdent, txq := x.txq, ptr := x.ptr, violationAt := x.violationAt
    malformedAt := x.malformedAt, unrepViolation := x.unrepViolation, unrepMalformed := x.unrepMalformed }
  (d.put (kPortLanes n) 0).movePort n poTraining 0

/-! Messages of a port on the MANAGEMENT lane. -/

def Dev.sendManagement (d : Dev) (n type : Nat) (payload : List Byte) : Dev :=
  let c := d.freeChip
  c.2.enqueue n vlManagement (packetFrom
    { noHeader with dstChip := c.1, srcChip := d.chip, ptype := type, vl := vlManagement, plane := n } payload)

def Dev.sendProbe (d : Dev) (n : Nat) : Dev :=
  let d := d.setPort n { d.port n with lastProbe := d.time }
  d.sendManagement n ptProbe []

def ms : Nat := 1000000

/-- The hold-off of an IDENT (R304): 0 to 63 ms, of which the spec leaves the draw open (free, log 5). -/
def Dev.dueIdent (d : Dev) (n : Nat) : Dev :=
  if (d.port n).identDue.isSome then d
  else
    let r := d.draw
    let start := match (d.port n).lastIdent with
      | some t => max d.time (t + 64 * ms)
      | none => d.time
    r.2.setPort n { d.port n with identDue := some (start + (r.1.toNat % 64) * ms) }

/-- *IDENT payload*. -/
structure Ident where
  identity : Nat
  port : Nat
  epoch : Nat
  chip : Nat
  plane : Nat
  kind : Nat
  state : Nat
  numerics : Nat
  deriving DecidableEq, Repr

def identOf (w : Nat) : Ident :=
  { identity := fld w 255 192, port := fld w 191 176, epoch := fld w 175 160, chip := fld w 159 144, plane := fld w 143 140,
    kind := fld w 139 136, state := fld w 135 128, numerics := fld w 127 96 }

def identBits (x : Ident) : Nat :=
  pack [(256, 0), (64, x.identity), (16, x.port), (16, x.epoch), (16, x.chip), (4, x.plane), (4, x.kind), (8, x.state),
        (32, x.numerics), (96, 0)]

/-- The module's own IDENT of a port (R305). -/
def Dev.ownIdent (d : Dev) (f : Fuses) (n : Nat) : Ident :=
  { identity := f.serial, port := n, epoch := d.get kCompatEpoch, chip := d.chip, plane := n, kind := 1,
    state := d.portState n, numerics := f.levels }

/-! Comparison with the plan (R302, R306, R307, R309). -/

/-- *Port plan record* of a port. -/
def Dev.planRecord (d : Dev) (n : Nat) : Nat := fld d.fabric.coords.planPorts (128 * n + 127) (128 * n)

/-- Identity, port and plane that a record expects. -/
def planOf (w : Nat) : Nat × Nat × Nat := (fld w 127 64, fld w 63 48, fld w 31 28)

def Dev.committed (d : Dev) : Bool := decide (d.get kCoordState = 1)

def Dev.planned (d : Dev) (n : Nat) : Bool := d.committed && bit d.fabric.coords.planeMask n

/-- *Discovery outcomes*: the state and its reason. -/
def Dev.discovery (d : Dev) (n : Nat) (x : Ident) : Nat × Nat :=
  let got := (x.identity, x.port, x.plane)
  if bit d.fabric.coords.planeMask n = false then (poUnplanned, reNotInPlan)
  else if got ≠ planOf (d.planRecord n) then
    if (List.range 16).any (fun q => decide (q ≠ n) && decide (got = planOf (d.planRecord q)))
    then (poFenced, reSwapped) else (poFenced, reWrong)
  else if x.epoch ≠ fld (d.planRecord n) 47 32 ∨ x.epoch = 0 ∨ x.epoch = 0xFFFF then (poFenced, reForeign)
  else (poStandby, 0)

/-- FENCED or UNPLANNED, with the record of the entry. -/
def Dev.fencePort (d : Dev) (n state reason ident : Nat) : Dev :=
  let d' := d.enterPort n state reason
  if d.portState n = state then d'
  else d'.record (atSite n) 0x403 0 [(4, reason), (256, ident % 2 ^ 256), (128, d.planRecord n)]

/-- A port whose neighbour is known takes its outcome from the plan; an IDENT held that reports STANDBY or ADMITTED admits it
(DEDUCED, log 45). -/
def Dev.judgePort (d : Dev) (n : Nat) : Dev :=
  match (d.port n).ident with
  | none => d
  | some w =>
    if d.committed = false ∨ d.linked n = false then d
    else
      let x := identOf w
      let o := d.discovery n x
      if o.1 ≠ poStandby then d.fencePort n o.1 o.2 w
      else if d.portAdmitted n then d
      else
        let d := if d.portState n = poStandby then d else (d.enterPort n poStandby 0).dueIdent n
        if x.state = poStandby ∨ x.state = poAdmitted then d.enterPort n poAdmitted 0 else d

/-- One port is compared (R306); the module may be short after it (R310). -/
def Dev.comparePort (d : Dev) (n : Nat) : Dev := (d.judgePort n).shortCheck d.fabricIsShort

/-! Lanes (R278 to R282). -/

/-- PORT_LANES of one direction: FIBRE_SUB and the λ4 of each fibre. -/
def laneField (rx : Bool) (w : Nat) : Nat := if rx then fld w 14 4 else fld w 25 15

def setLaneField (rx : Bool) (w v : Nat) : Nat := if rx then setFld w 14 4 v else setFld w 25 15 v

def fibreSub (v : Nat) : Nat := fld v 10 9

def lambdaSub (v fibre : Nat) : Nat := fld v (8 - 3 * fibre) (6 - 3 * fibre)

def setLambdaSub (v fibre x : Nat) : Nat := setFld v (8 - 3 * fibre) (6 - 3 * fibre) x

/-- A fibre carries traffic in this direction. -/
def fibreActive (v fibre : Nat) : Bool :=
  if fibre = 2 then decide (fibreSub v ≠ 0) else decide (fibreSub v ≠ fibre + 1)

/-- A fault finds its spare still unused. -/
def spareLeft (v : Nat) (f : LaneFault) : Bool :=
  match f with
  | .lane fibre _ => decide (lambdaSub v fibre = 0)
  | .fibre _ => decide (fibreSub v = 0)

/-- Both wavelengths that serve the active fibres are used, so none is left (DEDUCED, log 46). -/
def lastLambda (v : Nat) : Bool := (List.range 3).all (fun i => !fibreActive v i || decide (lambdaSub v i ≠ 0))

/-- A receive fault as it is remembered: its fibre, and its lane. -/
def failKey : LaneFault → Nat
  | .lane i l => 8 * i + l
  | .fibre i => 8 * i + 7

/-- The fault as it counts (R278): a second lane of a fibre within 1 ms fails the fibre. -/
def Dev.faultSeen (d : Dev) (n : Nat) (f : LaneFault) : LaneFault :=
  match f with
  | .fibre i => .fibre i
  | .lane fibre l =>
    if (d.port n).rxFails.any (fun x => decide (x.2 / 8 = fibre) && decide (x.2 % 8 ≠ l) && decide (d.time < x.1 + ms))
    then .fibre fibre else .lane fibre l

def faultFibre : LaneFault → Nat
  | .lane i _ => i
  | .fibre i => i

/-- LANE_FAILED: the receiver asks for a substitution, or has no spare left (R281). -/
def Dev.laneFailed (d : Dev) (n : Nat) (f : LaneFault) : Dev :=
  let v := laneField true (d.get (kPortLanes n))
  if d.linked n = false ∨ fibreActive v (faultFibre f) = false then d
  else
    let x := d.port n
    let g := d.faultSeen n f
    if spareLeft v g = false then d.downPort n reLanes
    else
      let others := match g with
        | .fibre i => x.wanted.filter (fun w => decide (faultFibre w ≠ i))
        | .lane _ _ => x.wanted
      let fails := (x.rxFails.filter (fun y => decide (d.time < y.1 + ms))) ++ [(d.time, failKey f)]
      if others.contains g then d.setPort n { x with rxFails := fails }
      else (d.setPort n { x with wanted := others ++ [g], rxFails := fails }).tell n (.substitute g)

/-- A codeword of a lane could not be corrected: counted, and beyond LAMBDA_FAIL_LIMIT within 1 ms the lane has failed (R278,
R318). -/
def Dev.badWord (d : Dev) (n : Nat) (fibre : Fin 3) (lambda : Fin 4) : Dev :=
  let x := d.port n
  let l := (x.badWords.filter (fun y => decide (d.time < y.1 + ms))) ++ [(d.time, failKey (.lane fibre lambda))]
  let d := (d.setPort n { x with badWords := l }).bump (kFecUncorrectable n) 1
  if d.get kLambdaFailLimit < (l.filter (fun y => decide (y.2 = failKey (.lane fibre lambda)))).length
  then d.laneFailed n (.lane fibre lambda) else d

def execLaneFailed (port : Fin 16) (f : LaneFault) (s : State) : Host.Outcome State Fault Refusal :=
  onDie (fun d => d.laneFailed port f) s

/-- Frames not acknowledged are sent again (R280, R283). -/
def Dev.replayAll (d : Dev) (n : Nat) : Dev := d.bump (kLinkReplays n) (d.port n).retry.length

/-- A substitution completes (R279, R280): PORT_LANES, the record, and the warning of a last spare (R281). A transmit one is
asked for by the neighbour; a receive one by this port. -/
def Dev.spared (d : Dev) (n : Nat) (rx : Bool) (f : LaneFault) : Dev :=
  let w := d.get (kPortLanes n)
  let v := laneField rx w
  let x := d.port n
  if d.linked n = false ∨ (rx = true ∧ x.wanted.contains f = false) ∨ fibreActive v (faultFibre f) = false then d
  else if spareLeft v f = false then d.downPort n reLanes
  else
    let v := match f with
      | .lane i l => setLambdaSub v i (4 + l)
      | .fibre i => setFld v 10 9 (i + 1)
    let d := (d.setPort n { x with wanted := if rx then x.wanted.erase f else x.wanted }).put (kPortLanes n) (setLaneField rx w v)
    let d := d.replayAll n
    let last := match f with
      | .lane _ _ => lastLambda v
      | .fibre _ => true
    let d := match f with
      | .lane i l => d.record (atSite n) 0x401 0 [(1, b2n rx), (2, i), (2, l), (1, b2n last)]
      | .fibre i => d.record (atSite n) 0x402 0 [(1, b2n rx), (2, i), (1, b2n last)]
    if last then d.ckptWarn (atSite n) 5 d.lastSeq else d

def execLaneSpared (port : Fin 16) (rx : Bool) (fibre : Fin 3) (lambda : Fin 4) (s : State) : Host.Outcome State Fault Refusal :=
  onDie (fun d => d.spared port rx (.lane fibre lambda)) s

def execFibreSpared (port : Fin 16) (rx : Bool) (fibre : Fin 2) (s : State) : Host.Outcome State Fault Refusal :=
  onDie (fun d => d.spared port rx (.fibre fibre.castSucc)) s

/-! Transmission (R283, R286, R288). -/

/-- Credits of 64 B a packet costs. -/
def creditCost (p : Packet) : Nat := roundUp (32 + p.payload.length) 64

/-- Frames of up to 512 B that carry it. -/
def frameCount (p : Packet) : Nat := roundUp (32 + p.payload.length) 512

/-- Frames the 512 KiB retry buffer holds. The table has no row for an acknowledgement, so the oldest frames leave it as new
ones are sent (DESIGN CHOICE, log 47). -/
def retryFrames : Nat := 1024

def Port.creditsFor (x : Port) (vl : Nat) (p : Packet) : Bool :=
  decide (creditCost p ≤ SMap.get 0 x.reserve vl + x.pool)

/-- The lane's next packet can be sent. -/
def Port.canSend (x : Port) (vl : Nat) : Bool :=
  match SMap.get [] x.txq vl with
  | [] => false
  | p :: _ => x.creditsFor vl p

/-- The lane that R288 picks: MANAGEMENT, else the first ready one of the rotation. -/
def Port.nextLane (x : Port) : Option Nat :=
  if x.canSend vlManagement then some vlManagement
  else
    let lanes := [vlData, vlCollective, vlReplay]
    (((lanes.filter (fun l => decide (x.ptr ≤ l))) ++ lanes.filter (fun l => decide (l < x.ptr))).find? (fun l => x.canSend l))

/-- *TIME payload*: T_SEND, T_ECHO, T_HOLD (R314). -/
def Port.timeBody (x : Port) (now : Nat) : List Byte :=
  let hold := if x.timeEcho = 0 then 0 else now - x.timeArr
  toBytes (pack [(64, hold), (64, x.timeEcho), (64, now)]) 64

/-- A TIME packet takes its times as it leaves (R314). -/
def Port.stamp (x : Port) (now : Nat) (p : Packet) : Packet :=
  if (packetHeader p).ptype = ptTime then { p with payload := x.timeBody now } else p

/-- A packet leaves at a time: credits from the reserve first, and its frames into the retry buffer. -/
def Port.sendLane (x : Port) (now vl : Nat) : Port :=
  match SMap.get [] x.txq vl with
  | [] => x
  | p :: rest =>
    let p := x.stamp now p
    let own := min (creditCost p) (SMap.get 0 x.reserve vl)
    let n := frameCount p
    let frames := (List.range n).map (fun i => ((x.nextFrame + i) % 4096, p))
    let kept := x.retry ++ frames
    { x with
      txq := SMap.set [] x.txq vl rest
      reserve := SMap.set 0 x.reserve vl (SMap.get 0 x.reserve vl - own)
      pool := x.pool - (creditCost p - own)
      ptr := if vl = vlManagement then x.ptr else (vl + 1) % 4
      nextFrame := (x.nextFrame + n) % 4096
      retry := kept.drop (kept.length - retryFrames) }

/-- A packet waits and none has its credits. -/
def Port.stalled (x : Port) : Bool := x.nextLane.isNone && x.txq.any (fun q => decide (q.2 ≠ []))

/-- A stall for credits begins, or ends and is counted (R318; DEDUCED, log 87). -/
def Dev.countStall (d : Dev) (n : Nat) : Dev :=
  let x := d.port n
  match x.stallAt with
  | none => if x.stalled then d.setPort n { x with stallAt := some d.time } else d
  | some t => if x.stalled then d else (d.setPort n { x with stallAt := none }).bump (kCreditStallNs n) (d.time - t)

/-- PACKET_TRANSMIT: no new frames during a retrain or a substitution (R280, R284). -/
def Dev.packetTransmit (d : Dev) (n : Nat) : Dev :=
  let x := d.port n
  if d.linked n = false ∨ x.retraining ∨ x.wanted ≠ [] then d
  else
    match x.nextLane with
    | none => d.countStall n
    | some vl => (d.countStall n).setPort n (((d.countStall n).port n).sendLane d.time vl)

def execPacketTransmit (port : Fin 16) (s : State) : Host.Outcome State Fault Refusal :=
  onDie (fun d => d.packetTransmit port) s

/-- CREDIT_RETURN (R286). -/
def execCreditReturn (port : Fin 16) (vl : Fin 4) (reserve pool : BitVec 14) (s : State) : Host.Outcome State Fault Refusal :=
  onDie (fun d =>
    let x := d.port port
    if d.linked port = false then d
    else (d.setPort port { x with reserve := SMap.set 0 x.reserve vl (SMap.get 0 x.reserve vl + reserve.toNat)
                                  pool := x.pool + pool.toNat }).countStall port) s

/-- A retrain begins; a third within 1 s puts the port DOWN (R284). -/
def Dev.beginRetrain (d : Dev) (n : Nat) : Dev :=
  let x := d.port n
  let recent := (x.retrains.filter (fun t => decide (d.time < t + 1000 * ms))) ++ [d.time]
  let d := (d.setPort n { x with retraining := true, retrains := recent, replays := [] }).bump (kLinkRetrains n) 1
  if 3 ≤ recent.length then d.downPort n reRetrain else d

/-- How often each frame still unacknowledged has been replayed, once these are. -/
def Port.replayed (x : Port) (rest : List (Nat × Packet)) : SMap Nat :=
  rest.foldl (fun m y => SMap.set 0 m y.1 (SMap.get 0 x.replays y.1 + 1)) []

/-- FRAME_NAK (R283, R284): that frame and every later one are replayed; the earlier ones were accepted. -/
def Dev.frameNak (d : Dev) (n frame : Nat) : Dev :=
  let x := d.port n
  let rest := x.retry.dropWhile (fun y => decide (y.1 ≠ frame))
  if d.linked n = false ∨ x.retraining ∨ rest = [] then d
  else
    let d := (d.setPort n { x with retry := rest, replays := x.replayed rest }).bump (kLinkReplays n) rest.length
    if 8 ≤ SMap.get 0 (x.replayed rest) frame then d.beginRetrain n else d

def execFrameNak (port : Fin 16) (frame : BitVec 12) (s : State) : Host.Outcome State Fault Refusal :=
  onDie (fun d => d.frameNak port frame.toNat) s

/-- LINK_RETRAIN (R284): the retry buffer, the credits and the admission state are kept, or the port goes DOWN. -/
def Dev.linkRetrain (d : Dev) (n : Nat) (ok : Bool) : Dev :=
  let x := d.port n
  if d.linked n = false ∨ x.retraining = false then d
  else if ok then (d.setPort n { x with retraining := false }).replayAll n
  else d.downPort n reRetrain

def execLinkRetrain (port : Fin 16) (ok : Bool) (s : State) : Host.Outcome State Fault Refusal :=
  onDie (fun d => d.linkRetrain port ok) s

/-! Training and discovery. -/

/-- The credit split that the port takes up at link training (R287). -/
def Dev.creditSplit (d : Dev) : List Nat := (List.range 4).map (fun i => d.get (kCreditReserve i)) ++ [d.get kCreditShared]

/-- A split that fills the receive buffer (R285, R287). -/
def splitOk (l : List Nat) : Bool := decide (l.sum = 8192)

/-- LINK_TRAINED (R303, R304): CREDIT_SPLIT comes into force, the defaults where what is staged is not whole (log 71). -/
def Dev.linkTrained (d : Dev) (n : Nat) : Dev :=
  if d.portState n ≠ poTraining then d
  else
    let split := if splitOk d.creditSplit then d.creditSplit else [512, 512, 256, 512, 6400]
    let d := d.setPort n { d.port n with waitFrom := d.time, split := split }
    (d.movePort n poQuiet 0).sendProbe n

def execLinkTrained (port : Fin 16) (s : State) : Host.Outcome State Fault Refusal :=
  onDie (fun d => d.linkTrained port) s

/-- TRAINING_FAILED (R309). -/
def execTrainingFailed (port : Fin 16) (s : State) : Host.Outcome State Fault Refusal :=
  onDie (fun d => if d.portState port = poTraining then d.downPort port reTrainingFailed else d) s

/-- TRAINING_RETRY (R308): 1 s after the port went DOWN. -/
def execTrainingRetry (port : Fin 16) (s : State) : Host.Outcome State Fault Refusal :=
  onDie (fun d =>
    if d.portState port = poDown ∧ d.get (kPortDisable port) = 0 ∧ (d.port port).downAt + 1000 * ms ≤ d.time
    then d.startTraining port else d) s

/-- PROBE_RETRY (R304): every 256 ms until the neighbour's IDENT is held. -/
def execProbeRetry (port : Fin 16) (s : State) : Host.Outcome State Fault Refusal :=
  onDie (fun d =>
    let x := d.port port
    if d.linked port ∧ x.ident = none ∧ x.lastProbe + 256 * ms ≤ d.time then d.sendProbe port else d) s

/-- IDENT_HOLDOFF (R304, R305). -/
def execIdentHoldoff (port : Fin 16) (s : State) : Host.Outcome State Fault Refusal :=
  onDieFused (fun f d =>
    match (d.port port).identDue with
    | none => d
    | some t =>
      if d.time < t ∨ d.linked port = false then d
      else
        let d := d.setPort port { d.port port with identDue := none, lastIdent := some d.time }
        d.sendManagement port ptIdent (toBytes (identBits (d.ownIdent f port)) 64)) s

/-- DISCOVERY_TIMEOUT (R308), for planned ports. -/
def Dev.discoveryTimeout (d : Dev) (n : Nat) : Dev :=
  if d.planned n = false ∨ d.time < (d.port n).waitFrom + d.get kDiscoveryWait * ms then d
  else if d.portState n = poTraining then d.downPort n reNoLight
  else if d.portState n = poQuiet ∧ (d.port n).ident = none then d.downPort n reNoNeighbour
  else d

def execDiscoveryTimeout (port : Fin 16) (s : State) : Host.Outcome State Fault Refusal :=
  onDie (fun d => d.discoveryTimeout port) s

/-- PORT_DISABLE takes effect at once (*Fabric entries*). -/
def Dev.setDisable (d : Dev) (n v : Nat) : Dev :=
  let was := d.get (kPortDisable n)
  let d := d.put (kPortDisable n) v
  if v = was then d else if v = 1 then d.downPort n reDisabled else d.startTraining n

/-! Coordinates (R301). -/

/-- The staged coordinates. -/
def Dev.staged (d : Dev) : Coords :=
  { chip := d.get kChipNumber, planeMask := d.get kPlaneMask, buddy := d.get kBuddyChip, dedup := d.get kDedupGroup,
    mparts := d.get kMpartAllowed, minPorts := d.get kMinPorts, planPorts := d.get kPlanPorts }

/-- The commit changes what only EMPTY partitions allow. -/
def Dev.commitMoves (d : Dev) : Bool :=
  decide (d.staged.chip ≠ d.fabric.coords.chip) || decide (d.staged.mparts ≠ d.fabric.coords.mparts)

/-- The abort code of a commit that is refused: the first partition that is not EMPTY. -/
def Dev.commitRefused (d : Dev) : Option Nat :=
  let busy := (List.range 4).find? (fun p => decide (d.pState p ≠ psEmpty))
  firstAbort [
    (d.commitMoves && busy.isSome, d.abState (busy.getD 0)),
    (decide (d.staged.chip = 0xFFFF), abConflict)]

/-- COORD_COMMIT: the comparison of every port (R306), DISCOVERY_WAIT anew (R308). -/
def Dev.commitCoords (d : Dev) : Dev :=
  let short := d.fabricIsShort
  let d := { d with fabric := { d.fabric with coords := d.staged } }
  let d := d.putRaise 4 kCoordState 1
  let d := if d.get kModuleState = 1 then d.put kModuleState 2 else d
  let d := (List.range 16).foldl (fun d n => d.setPort n { d.port n with waitFrom := d.time }) d
  ((List.range 16).foldl (fun d n => d.judgePort n) d).shortCheck short

/-! Machine partitions (R311 to R313). -/

/-- A machine partition whose traffic the module may carry. -/
def Dev.mpartAllowed (d : Dev) (m : Nat) : Bool :=
  decide (m ≠ 0) && (List.range 4).any (fun i => decide (fld d.fabric.coords.mparts (16 * i + 15) (16 * i) = m))

/-- *PART_JOIN fields*. -/
structure JoinReq where
  epoch : Nat
  mpart : Nat
  level : Nat
  deriving DecidableEq, Repr

def joinOf (w : Nat) : JoinReq := { epoch := fld w 63 32, mpart := fld w 31 16, level := fld w 15 8 }

def joinBits (x : JoinReq) : Nat := pack [(64, 0), (32, x.epoch), (16, x.mpart), (8, x.level), (8, 0)]

/-- The greatest epoch bound to a machine partition since the last module reset; none bound admits every epoch. -/
def Dev.epochFresh (d : Dev) (m epoch : Nat) : Bool := decide (SMap.get 0 d.fabric.epochs m < epoch + 1)

/-- *Join refusals*: 1 where the join is accepted; the states come first, as R459 orders them. -/
def Dev.joinStatus (d : Dev) (f : Fuses) (p w : Nat) : Nat :=
  let x := joinOf w
  if d.emptyOrLoading p = false ∨ d.isBound p then 7
  else if d.committed = false then 6
  else if bit f.levels x.level = false ∨ x.level = 0 ∨ 31 < x.level then 2
  else if x.mpart = 0 ∨ x.mpart = 0xFFFF ∨ d.mpartAllowed x.mpart = false then 3
  else if (List.range 4).any (fun q => decide (q ≠ p) && decide (d.get (kPartMpart q) = x.mpart)) then 4
  else if d.epochFresh x.mpart x.epoch = false then 5
  else 1

/-- R312: bound under EPOCH, at the level. -/
def Dev.bindPart (d : Dev) (p w : Nat) : Dev :=
  let x := joinOf w
  let d := ((d.put (kPartMpart p) x.mpart).put (kPartEpoch p) x.epoch).put (kNumericsLevel p) x.level
  let d := { d with fabric := { d.fabric with epochs := SMap.set 0 d.fabric.epochs x.mpart (x.epoch + 1) } }
  d.put (kPartJoinStatus p) 1

/-- A join that is refused leaves its code and an ADMISSION_REFUSED record. -/
def Dev.refuseJoin (d : Dev) (p w code : Nat) : Dev :=
  let x := joinOf w
  (d.put (kPartJoinStatus p) code).record (atPart p) 0x408 0 [(8, code), (16, x.mpart), (32, x.epoch), (8, x.level)]

/-- PART_REBIND is refused (R313). -/
def Dev.rebindRefused (d : Dev) (p v : Nat) : Option Nat :=
  firstAbort [
    (decide (d.pState p = psQuiescing), d.abQuiescing p),
    (!(d.loading p || decide (d.pState p = psAdmitted)) || decide (d.get (kPartJoinStatus p) ≠ 1), d.abState p),
    (!d.chainsStill p || !d.workDone p, d.abState p),
    (!d.epochFresh (d.get (kPartMpart p)) v, abConflict)]

def Dev.rebind (d : Dev) (p v : Nat) : Dev :=
  { (d.put (kPartEpoch p) v) with
    fabric := { d.fabric with epochs := SMap.set 0 d.fabric.epochs (d.get (kPartMpart p)) (v + 1) } }

/-! Module time (R314, R315). -/

/-- TIME_TICK: every ADMITTED port once per 1 ms; the packet takes its times anew as it leaves. -/
def Dev.timeTick (d : Dev) (n : Nat) : Dev :=
  let x := d.port n
  let due := match x.timeSent with
    | some t => decide (t + ms ≤ d.time)
    | none => true
  if d.portAdmitted n = false ∨ due = false then d
  else (d.setPort n { x with timeSent := some d.time }).sendManagement n ptTime (x.timeBody d.time)

def execTimeTick (port : Fin 16) (s : State) : Host.Outcome State Fault Refusal :=
  onDie (fun d => d.timeTick port) s

/-- A sample of the time of the job: the first sets module time while every partition is EMPTY; later ones slew it. -/
def Dev.timeSample (d : Dev) (n sample : Nat) : Dev :=
  let off : Int := (sample : Int) - d.time
  let d := d.put kTimeOffset (unsigned 32 off)
  let bad := if 200 < off.natAbs then d.fabric.timeBad + 1 else 0
  let d := if bad = 10 then d.record (atSite n) 0x409 0 [(32, unsigned 32 off)] else d
  let d := { d with fabric := { d.fabric with timeBad := if bad = 10 then 0 else bad } }
  if d.fabric.timeSynced = false ∧ d.allEmpty then
    { d with time := sample % 2 ^ 64, fabric := { d.fabric with timeSynced := true, slew := 0, slewAt := sample % 2 ^ 64 } }
  else if d.time < d.fabric.slewAt + ms then { d with fabric := { d.fabric with timeSynced := true } }
  else
    { d with fabric := { d.fabric with
        timeSynced := true, slewAt := d.time, slew := if off < -100 then -100 else if 100 < off then 100 else off } }

/-- A TIME message: kept for the echo, and a sample where the port is the lowest-numbered ADMITTED one. One that echoes nothing
gives no delay, so no sample (DESIGN CHOICE, log 48). -/
def Dev.timeArrives (d : Dev) (n body : Nat) : Dev :=
  let send := fld body 63 0
  let echo := fld body 127 64
  let hold := fld body 191 128
  let d := d.setPort n { d.port n with timeEcho := send, timeArr := d.time }
  if d.admittedPorts.head? ≠ some n ∨ echo = 0 then d
  else d.timeSample n (send + (d.time - echo - hold) / 2)

end Sys2Proof.Machine
end

