-- ==== Sys2Proof/Machine/Fabric.lean ====
section
/-! DEFINITION. Packets that arrive (R289 to R296, R303, R311): requests served and answered, responses, barrier releases, and
the messages of the MANAGEMENT lane; response timeouts and the retry of an EXCHANGE (R294, R339). -/

namespace Sys2Proof.Machine

/-! The form of a packet (R290, R291). -/

/-- The lanes a TYPE may travel on; none for an unknown one. -/
def lanesOf (t : Nat) : List Nat :=
  if t = ptWrite ∨ t = ptWriteAck ∨ t = ptReadReq ∨ t = ptReadResp then [vlData, vlReplay]
  else if t = ptSignal ∨ t = ptSignalAck then [vlData]
  else if t = ptExchange ∨ t = ptExchangeAck ∨ t = ptBarrier then [vlCollective]
  else if t = ptProbe ∨ t = ptIdent ∨ t = ptTime then [vlManagement]
  else []

/-- Bytes of payload a packet must have. -/
def payloadBytes (h : PacketHeader) : Nat :=
  let lines := 64 * (h.linesM1 + 1)
  if h.ptype = ptWrite ∨ h.ptype = ptExchange then lines
  else if h.ptype = ptReadResp then if h.status = stOk then lines else 0
  else if h.ptype = ptSignal ∨ h.ptype = ptBarrier ∨ h.ptype = ptIdent ∨ h.ptype = ptTime then 64
  else 0

/-- Reserved bits, the TYPE on its lane, the payload's size and its fixed bits (R290, R291, R305; which fields beside the reserved
ones are held against a packet is DEDUCED, log 49). -/
def malformedPacket (pkt : Packet) : Bool :=
  let w := pkt.hdr.toNat
  let h := packetOf w
  let body := ofBytes pkt.payload
  reservedBits w packetReserved != [] || !(lanesOf h.ptype).contains h.vl || decide (h.offset % 64 ≠ 0) ||
  decide (pkt.payload.length ≠ payloadBytes h) ||
  (decide (h.ptype = ptWrite) && decide (h.guard = 1) && decide (h.guardCount = 0)) ||
  (decide (h.ptype = ptSignal) && (decide (h.guard = 0) || decide (body = 0) || decide (2 ^ 32 ≤ body))) ||
  (decide (h.ptype = ptBarrier) && decide (2 ^ 128 ≤ body)) ||
  (decide (h.ptype = ptIdent) && decide (fld body 139 136 ≠ 1) && decide (fld body 139 136 ≠ 2)) ||
  (decide (h.ptype = ptTime) && decide (2 ^ 192 ≤ body))

/-! What is dropped. -/

def Dev.answerIf (d : Dev) (n : Nat) (h : PacketHeader) (status : Nat) : Dev :=
  if isRequest h.ptype then d.respond n h (replyOf status) else d

/-- A record that a port writes at most once a second is due. -/
def secondPassed (d : Dev) (t : Option Nat) : Bool :=
  match t with
  | some t => decide (t + 1000 * ms ≤ d.time)
  | none => true

/-- R311: a machine partition that is not allowed. -/
def Dev.fenceDrop (d : Dev) (n : Nat) (h : PacketHeader) : Dev :=
  let d := d.bump (kFenceDrops n) 1
  let x := d.port n
  if secondPassed d x.violationAt then
    let d := d.setPort n { x with violationAt := some d.time, unrepViolation := 0 }
    d.record (atSite n) 0x406 0 [(16, h.srcChip), (16, h.mpart), (32, x.unrepViolation)]
  else d.setPort n { x with unrepViolation := x.unrepViolation + 1 }

/-- R296. -/
def Dev.malformedDrop (d : Dev) (n : Nat) (h : PacketHeader) : Dev :=
  let d := d.bump (kMalformedPackets n) 1
  let x := d.port n
  let d := if secondPassed d x.malformedAt then
      let d := d.setPort n { x with malformedAt := some d.time, unrepMalformed := 0 }
      d.record (atSite n) 0x405 0 [(16, h.srcChip), (6, h.ptype), (2, h.vl), (32, x.unrepMalformed)]
    else d.setPort n { x with unrepMalformed := x.unrepMalformed + 1 }
  d.answerIf n h stMalformed

/-- A packet of an old epoch is dropped without a response; signals, guards and barriers among them are counted (R214, R295). -/
def Dev.staleDrop (d : Dev) (h : PacketHeader) : Dev :=
  if h.ptype = ptSignal ∨ h.ptype = ptBarrier ∨ (h.ptype = ptWrite ∧ h.guard = 1) then d.bump kStaleSignals 1 else d

/-! The link's frames (R283, R286). -/

/-- The frames of a packet are accepted; the numbers half a turn ahead may come anew (DEDUCED, log 146). -/
def Port.acceptFrames (x : Port) (seq n : Nat) : Port :=
  { x with rxSeen := (List.range n).foldl (fun l i => NSet.del (NSet.add l ((seq + i) % 4096)) ((seq + i + 2048) % 4096)) x.rxSeen }

/-- A packet comes off the link: none where its frame is bad, and asked for again, or was accepted before; else the credits it
takes of its lane's reserve and of the pool. -/
def Dev.accept (d : Dev) (n : Nat) (x : Incoming) : Dev × Option (Nat × Nat) :=
  if d.linked n = false then (d, none)
  else
    let d := d.bump (kFecCorrected n) x.corrected.toNat
    match x.state with
    | .crc => (d.tell n (.nak x.seq.toNat), none)
    | .codeword fibre lambda => ((d.tell n (.nak x.seq.toNat)).badWord n fibre lambda, none)
    | .good =>
      let q := d.port n
      if NSet.mem q.rxSeen x.seq.toNat then (d, none)
      else
        let vl := (packetHeader x.pkt).vl
        let own := min (creditCost x.pkt) (SMap.get 0 q.granted vl)
        let shared := min (creditCost x.pkt - own) q.grantedPool
        let q := q.acceptFrames x.seq.toNat (frameCount x.pkt)
        (d.setPort n { q with granted := SMap.set 0 q.granted vl (SMap.get 0 q.granted vl - own)
                              grantedPool := q.grantedPool - shared }, some (own, shared))

/-- A packet that is accepted is handled, and leaves the receive buffer. -/
def Dev.received (d : Dev) (n : Nat) (x : Incoming) (f : Dev → Dev) : Dev :=
  match d.accept n x with
  | (d, none) => d
  | (d, some c) => (f d).leaveBuffer n (packetHeader x.pkt).vl c.1 c.2

/-- What becomes of a packet at its port. -/
inductive Arrival where
  /-- Taken for the partition it is bound to. -/
  | take (p : Nat) (h : PacketHeader)
  | drop (d : Dev)
  deriving DecidableEq, Repr

/-- A job packet of TYPE `t` arrives at port `n`. A packet of another known type is not the row's. -/
def Dev.arrival (d : Dev) (n t : Nat) (pkt : Packet) : Arrival :=
  let h := packetHeader pkt
  if d.linked n = false ∨ (h.ptype ≠ t ∧ lanesOf h.ptype ≠ []) then .drop d
  else if d.portAdmitted n = false then .drop ((d.bump (kNotAdmittedDrops n) 1).answerIf n h stNotAdmitted)
  else if d.mpartAllowed h.mpart = false then .drop (d.fenceDrop n h)
  else if malformedPacket pkt then .drop (d.malformedDrop n h)
  else
    match d.boundTo h.mpart with
    | none => .drop (d.answerIf n h stNotAdmitted)
    | some p => if h.epoch ≠ d.get (kPartEpoch p) then .drop (d.staleDrop h) else .take p h

/-! Requests. -/

/-- A WRITE, READ_REQ or SIGNAL is performed and answered, once its lines are not held (R245, R292, R294). -/
def Dev.serveAt (d : Dev) (n t : Nat) (x : Incoming) : Dev :=
  match d.accept n x with
  | (d, none) => d
  | (d, some c) =>
    match d.arrival n t x.pkt with
    | .drop d => d.leaveBuffer n (packetHeader x.pkt).vl c.1 c.2
    | .take p h =>
      if d.mustHold p h then
        let r := h.span.getD (0, 0)
        d.hold r.1 r.2 (.port n p x.pkt c.1 c.2)
      else (d.servePort n p x.pkt).leaveBuffer n h.vl c.1 c.2

def execWrite (port : Fin 16) (x : Incoming) (s : State) : Host.Outcome State Fault Refusal :=
  onDie (fun d => d.serveAt port ptWrite x) s

def execReadReq (port : Fin 16) (x : Incoming) (s : State) : Host.Outcome State Fault Refusal :=
  onDie (fun d => d.serveAt port ptReadReq x) s

def execRemoteSignal (port : Fin 16) (x : Incoming) (s : State) : Host.Outcome State Fault Refusal :=
  onDie (fun d => d.serveAt port ptSignal x) s

/-- EXCHANGE (R338, R339); a descriptor that does not fit is a malformed packet (R296). -/
def Dev.exchangeArrives (d : Dev) (n : Nat) (x : Incoming) : Dev :=
  match d.accept n x with
  | (d, none) => d
  | (d, some c) =>
    match d.arrival n ptExchange x.pkt with
    | .drop d => d.leaveBuffer n (packetHeader x.pkt).vl c.1 c.2
    | .take p h =>
      match d.exchangeHeld p h x.pkt.payload with
      | some r => d.hold r.1 r.2 (.port n p x.pkt c.1 c.2)
      | none =>
        let r := d.exchangeServe p h x.pkt.payload
        (if r.2.status = stMalformed then r.1.malformedDrop n h else r.1.respond n h r.2).leaveBuffer n h.vl c.1 c.2

def execExchange (port : Fin 16) (x : Incoming) (s : State) : Host.Outcome State Fault Refusal :=
  onDie (fun d => d.exchangeArrives port x) s

/-- RELEASE (R222, R224); another KIND is dropped and counted. -/
def Dev.barrierArrives (d : Dev) (n : Nat) (pkt : Packet) : Dev :=
  match d.arrival n ptBarrier pkt with
  | .drop d => d
  | .take p _ =>
    let b := ofBytes pkt.payload
    if fld b 127 120 ≠ 2 then d.bump kStaleReleases 1
    else (d.releaseArrives p (fld b 111 96) (fld b 95 64) (fld b 63 32) (fld b 31 16) (fld b 119 112)).endMarked

def execRelease (port : Fin 16) (x : Incoming) (s : State) : Host.Outcome State Fault Refusal :=
  onDie (fun d => d.received port x (fun d => d.barrierArrives port x.pkt)) s

/-! Responses. -/

/-- The request an arriving response answers: its TAG is outstanding and the types belong together. -/
def Dev.answered (d : Dev) (p : Nat) (h : PacketHeader) : Option Req :=
  match d.req h.tag with
  | none => none
  | some r => if r.p = p ∧ ackType (packetHeader r.pkt).ptype = h.ptype then some r else none

/-- A response is not as its request: on another lane, or with another number of lines (R291). -/
def unlikeRequest (r : Req) (h : PacketHeader) : Bool :=
  let q := packetHeader r.pkt
  decide (h.vl ≠ q.vl) || (decide (h.ptype = ptReadResp ∧ h.status = stOk) && decide (h.linesM1 ≠ q.linesM1))

/-- A response arrives; NOT_READY to an EXCHANGE waits for its retry (R339), any other ends the request. -/
def Dev.responseArrives (d : Dev) (n t : Nat) (pkt : Packet) : Dev :=
  match d.arrival n t pkt with
  | .drop d => d
  | .take p h =>
    match d.answered p h with
    | none => d
    | some r =>
      if unlikeRequest r h then d.malformedDrop n h
      else if h.status = stNotReady ∧ t = ptExchangeAck then d.setReq h.tag (some { r with notReadyAt := some d.time })
      else (d.setReq h.tag none).dispatch r { status := h.status, data := pkt.payload, lines := h.byteEnOrLinePoison }

def execWriteAck (port : Fin 16) (x : Incoming) (s : State) : Host.Outcome State Fault Refusal :=
  onDie (fun d => d.received port x (fun d => d.responseArrives port ptWriteAck x.pkt)) s

def execReadResp (port : Fin 16) (x : Incoming) (s : State) : Host.Outcome State Fault Refusal :=
  onDie (fun d => d.received port x (fun d => d.responseArrives port ptReadResp x.pkt)) s

def execSignalAck (port : Fin 16) (x : Incoming) (s : State) : Host.Outcome State Fault Refusal :=
  onDie (fun d => d.received port x (fun d => d.responseArrives port ptSignalAck x.pkt)) s

def execExchangeAck (port : Fin 16) (x : Incoming) (s : State) : Host.Outcome State Fault Refusal :=
  onDie (fun d => d.received port x (fun d => d.responseArrives port ptExchangeAck x.pkt)) s

/-- RESPONSE_TIMEOUT (R294): from the moment the requester sent the packet to its port; a request to the module
itself is sent to none. -/
def Dev.responseTimeout (d : Dev) (tag : Nat) : Dev :=
  match d.req tag with
  | none => d
  | some r =>
    if r.notReadyAt.isSome ∨ r.port = ownPort ∨ d.time < r.sentAt + d.get kFabricRespTimeout then d
    else (d.setReq tag none).dispatch r (replyOf stTimeout)

def execResponseTimeout (tag : BitVec 16) (s : State) : Host.Outcome State Fault Refusal :=
  onDie (fun d => d.responseTimeout tag.toNat) s

/-- EXCHANGE_RETRY (R339): 2 µs after NOT_READY, on a port chosen anew. -/
def Dev.exchangeRetry (d : Dev) (tag : Nat) : Dev :=
  match d.req tag with
  | none => d
  | some r =>
    match r.notReadyAt with
    | none => d
    | some t =>
      if d.time < t + 2000 then d
      else
        let h := packetHeader r.pkt
        match d.pickPort (rotationOf r.p r.what) h.dstChip with
        | none => (d.setReq tag none).dispatch r (replyOf stNoRoute)
        | some (n, d) =>
          let pkt := packetFrom { h with plane := n } r.pkt.payload
          (d.enqueue n h.vl pkt).setReq tag (some { r with pkt := pkt, sentAt := d.time, port := n, notReadyAt := none })

def execExchangeRetry (tag : BitVec 16) (s : State) : Host.Outcome State Fault Refusal :=
  onDie (fun d => d.exchangeRetry tag.toNat) s

/-! The MANAGEMENT lane (R303, R304, R309, R314). -/

/-- A message of TYPE `t` that the port accepts: its link is trained and it is well formed. -/
def Dev.management (d : Dev) (n t : Nat) (x : Incoming) (f : Dev → Nat → Dev) : Dev :=
  d.received n x (fun d =>
    let h := packetHeader x.pkt
    if h.ptype ≠ t ∧ lanesOf h.ptype ≠ [] then d
    else if malformedPacket x.pkt then d.malformedDrop n h
    else f d (ofBytes x.pkt.payload))

def execProbe (port : Fin 16) (x : Incoming) (s : State) : Host.Outcome State Fault Refusal :=
  onDie (fun d => d.management port ptProbe x (fun d _ => d.dueIdent port)) s

/-- IDENT: kept, readable in NBR_IDENT, and compared (R306, R309). -/
def execIdent (port : Fin 16) (x : Incoming) (s : State) : Host.Outcome State Fault Refusal :=
  onDie (fun d => d.management port ptIdent x (fun d w =>
    ((d.setPort port { d.port port with ident := some w }).put (kNbrIdent port) w).comparePort port)) s

def execTime (port : Fin 16) (x : Incoming) (s : State) : Host.Outcome State Fault Refusal :=
  onDie (fun d => d.management port ptTime x (fun d w => d.timeArrives port w)) s

end Sys2Proof.Machine
end

