-- ==== Sys2Proof/Machine/Security.lean ====
section
/-! DEFINITION. Firmware images, staging, installing and confirming (R498, R503 to R508), attestation (R509 to R511), tokens
(R512 to R515), security events (R520) and who may write what (R522, R523). -/

namespace Sys2Proof.Machine

/-! Signed blocks and images. -/

/-- *Image descriptor*. -/
structure ImageDesc where
  payloadDigest : Nat
  payloadBytes : Nat
  fwVersion : Nat
  compatEpoch : Nat
  svn : Nat
  svnFloor : Nat
  levels : Nat
  minHw : Nat
  revoke : Nat
  keySlot : Nat
  reserved : Nat
  format : Nat
  magic : Nat
  deriving DecidableEq, Repr

def imageDescOf (w : Nat) : ImageDesc :=
  { payloadDigest := fld w 1023 512, payloadBytes := fld w 511 480, fwVersion := fld w 479 448, compatEpoch := fld w 447 432
    svn := fld w 431 424, svnFloor := fld w 423 416, levels := fld w 415 384, minHw := fld w 383 352, revoke := fld w 351 348
    keySlot := fld w 347 346, reserved := fld w 345 64, format := fld w 63 32, magic := fld w 31 0 }

/-- Bytes of an image slot (R498). -/
def imageSlotBytes : Nat := 71303168

/-- Address of a slot in the image area: A 0, B 1. -/
def slotBase (slot : Bool) : Nat := if slot then imageSlotBytes else 0

/-- The largest payload (*Image descriptor*). -/
def payloadMax : Nat := 67104768

def Dev.slotRead (d : Dev) (slot : Bool) (off n : Nat) : List Byte := d.sec.images.bytes (slotBase slot + off) n

def Dev.slotWrite (d : Dev) (slot : Bool) (off : Nat) (bs : List Byte) : Dev :=
  { d with sec := { d.sec with images := d.sec.images.setBytes (slotBase slot + off) bs } }

/-- The 128-byte descriptor of a slot; all zeros when erased. -/
def Dev.slotDesc (d : Dev) (slot : Bool) : Nat := ofBytes (d.slotRead slot 0 128)

def Dev.eraseDesc (d : Dev) (slot : Bool) : Dev := d.slotWrite slot 0 (List.replicate 128 0#8)

/-- A key is trusted (R504): its digest is that of its slot, which is not revoked. -/
def Fuses.trusts (f : Fuses) (key : List Byte) (keySlot : Nat) : Bool :=
  decide (shake256 key = (f.keyDigests.drop (64 * keySlot)).take 64) && !bit f.keysRevoked keySlot

/-- The key at 0x080 of a signed block, and whether the signature at 0x800 verifies under it (R503, R504). -/
def blockKey (b : List Byte) : List Byte := (b.drop 0x80).take 1793

def blockSigned (b : List Byte) : Bool :=
  Config.falconVerify (blockKey b) (shake256 (b.take 0x800)) ((b.drop 0x800).take 1280)

def blockBytes : Nat := 0xD00

/-- *Image checks* in order (R505): the code of the first that fails, 0 where all pass. -/
def Dev.imageCheck (d : Dev) (f : Fuses) (slot : Bool) : Nat :=
  let x := imageDescOf (d.slotDesc slot)
  let block := d.slotRead slot 0 blockBytes
  let hw := f.hwRevision
  if x.magic ≠ 0x494B4649 ∨ x.format ≠ 1 ∨ x.reserved ≠ 0 then 1
  else if x.payloadBytes = 0 ∨ payloadMax < x.payloadBytes then 2
  else if f.trusts (blockKey block) x.keySlot = false then 3
  else if blockSigned block = false then 4
  else if x.payloadDigest ≠ ofBytes (shake256 (d.slotRead slot 0x1000 x.payloadBytes)) then 5
  else if x.svn < f.svnFloor ∨ x.svn < x.svnFloor then 6
  else if x.levels &&& f.levels ≠ f.levels then 7
  else if fld hw 31 16 < fld x.minHw 31 16 ∨ fld hw 15 8 < fld x.minHw 15 8 ∨ fld hw 7 0 < fld x.minHw 7 0 then 8
  else 0

/-! Security events (R520). -/

def securityBody (sub detail : Nat) : List (Nat × Nat) := [(16, sub), (64, detail)]

def Dev.securityEvent (d : Dev) (sub detail : Nat) : Dev := d.record noWhere 0x803 5 (securityBody sub detail)

/-- A fatal event (R520): its record, and the module is halted. FUSE_INTEGRITY, IDENTITY_FAILURE and REFUSE_FAILED are findings of
hardware that no row of the table brings (log 52). -/
def Dev.fatalEvent (d : Dev) (sub detail : Nat) : Dev :=
  let d := ((d.securityEvent sub detail).put kBootStage 15).put kModuleState 4
  { d with env := { d.env with fatalLow := true } }

/-! Staging (R506). -/

/-- The slot an image is staged into. -/
def Dev.stageSlot (d : Dev) : Bool := !d.sec.slotInForce


/-- Staging is refused: FW_STATE is TRIAL, or the one slot that is left holds an image that has been tried. -/
def Dev.stageLocked (d : Dev) : Bool := decide (d.get kFwState = fwTrial) || (d.sec.pendingValid && d.sec.tried)

/-- The first staging write erases the descriptor, and what was pending there no longer is. -/
def Dev.beginStage (d : Dev) : Dev :=
  let slot := d.stageSlot
  let d :=
    if d.sec.staged then d
    else
      let d := d.eraseDesc slot
      if d.sec.pendingValid ∧ d.sec.pendingSlot = slot then { d with sec := { d.sec with pendingValid := false } } else d
  { (d.put kFwState fwStaging) with sec := { d.sec with staged := true, stagedSlot := slot } }

/-- FW_STAGE_DATA. -/
def Dev.stageData (d : Dev) (data : List Byte) : Dev :=
  let off := d.get kFwStageOffset
  let d := d.beginStage
  (d.slotWrite d.stageSlot off data).put kFwStageOffset (off + data.length)

/-- Bytes that FW_STAGE_FROM copies: the length its descriptor gives. -/
def Dev.stageBytes (d : Dev) (off : Nat) : Nat := 0x1000 + (imageDescOf (d.readNum off 128)).payloadBytes

/-- The image at the offset is one that a slot can hold and lies below WORKING_BYTES. -/
def Dev.stageFits (d : Dev) (off : Nat) : Bool :=
  let n := d.stageBytes off
  decide (0x1000 < n) && decide (n ≤ 0x1000 + payloadMax) && decide (off + n ≤ d.workingBytes)

/-- FW_STAGE_FROM. -/
def Dev.stageFrom (d : Dev) (off : Nat) : Dev :=
  let bs := d.readMem off (d.stageBytes off)
  let d := d.beginStage
  d.slotWrite d.stageSlot 0 bs

/-! Installing and confirming. -/

/-- FW_INSTALL (R507). -/
def Dev.install (d : Dev) (f : Fuses) : Dev :=
  let code := d.imageCheck f d.sec.stagedSlot
  let d := { (d.put kFwReject code) with sec := { d.sec with staged := false } }
  if code = 0 then
    { (d.put kFwState fwPending) with sec := { d.sec with
        pendingValid := true, pendingSlot := d.sec.stagedSlot, tried := false, trialOk := false } }
  else d.put kFwState fwRejected

/-- FW_CONFIRM (R508): fuses first, then the boot control record, then the other slot. -/
def Dev.confirm (d : Dev) (f : Fuses) : Fuses × Dev :=
  let x := imageDescOf d.sec.runningDesc
  let f := { f with svnFloor := max f.svnFloor (min x.svnFloor 128), keysRevoked := f.keysRevoked ||| x.revoke }
  let d := { (d.put kFwState fwIdle) with sec := { d.sec with slotInForce := d.sec.runningSlot, pendingValid := false } }
  let other := !d.sec.runningSlot
  (f, if (imageDescOf (d.slotDesc other)).svn < f.svnFloor then d.eraseDesc other else d)

/-! Identity and attestation. -/

/-- A byte string cut or filled with zeros to `n` bytes. -/
def fitBytes (n : Nat) (l : List Byte) : List Byte := (l ++ List.replicate n 0#8).take n

/-- The module's signature under a seed, padded to 1,280 bytes. -/
def signBytes (seed msg : List Byte) : List Byte := fitBytes 1280 (Config.falconSign seed (shake256 msg))

/-- *Certificate descriptor*. -/
def certBits (digest serial hw fw boots kind issuer svn : Nat) (trial : Bool) : Nat :=
  pack [(512, digest), (64, serial), (32, hw), (32, fw), (32, boots), (8, kind), (8, issuer), (8, svn), (7, 0), (1, b2n trial),
        (256, 0), (32, 1), (32, 0x434B4649)]

/-- A signed block of a descriptor and a subject's key, signed under a seed (R503). -/
def signedBlock (desc : Nat) (key seed : List Byte) : List Byte :=
  let msg := List.flatten [toBytes desc 128, fitBytes 1793 key, List.replicate 127 0#8]
  List.flatten [msg, signBytes seed msg]

/-- ALIAS_CERT (R501, R509): the identity key signs the attestation key and what was booted. -/
def Dev.aliasCert (d : Dev) (f : Fuses) : List Byte :=
  let x := imageDescOf d.sec.runningDesc
  signedBlock (certBits (ofBytes d.sec.imageDigest) f.serial f.hwRevision x.fwVersion (d.get kBootCount) 2 0xFF x.svn
    (decide (d.get kFwState = fwTrial))) d.sec.attestKey f.deviceSeed

/-- The digest of the CONFIG slot in force (R510). -/
def Dev.configDigest (d : Dev) : Nat := ofBytes (shake256 (configBody (SMap.get [] d.mgmt.confBody d.mgmt.confSlot)))

/-- *Attestation report*. -/
def Dev.reportBits (d : Dev) (f : Fuses) (nonce : Nat) : Nat :=
  let x := imageDescOf d.sec.runningDesc
  pack [(512, ofBytes d.sec.imageDigest), (512, d.configDigest), (256, nonce), (64, d.time), (64, f.serial), (32, f.hwRevision),
        (32, d.get kFwVersion), (32, f.levels), (16, d.get kCompatEpoch), (8, x.svn), (8, f.svnFloor), (32, d.get kBootCount),
        (16, d.fabric.coords.chip), (8, d.get kModuleState), (4, f.keysRevoked), (1, d.get kSecurityPolicy),
        (1, d.get kShadowQualified), (1, d.get kDebugState), (1, b2n (decide (d.get kFwState = fwTrial))), (8, f.refuses),
        (376, 0), (32, 1), (32, 0x524B4649)]

/-- The body and its signature; all zeros once the attestation key is locked (R510, R515). -/
def Dev.reportBytes (d : Dev) (f : Fuses) (nonce : Nat) : List Byte :=
  let body := toBytes (d.reportBits f nonce) 256
  List.flatten [body, if d.sec.attestLocked then List.replicate 1280 0#8 else signBytes d.sec.attestSeed body]

/-- ATTEST_NONCE (R510). -/
def Dev.attest (d : Dev) (f : Fuses) (nonce : Nat) : Dev :=
  { d with sec := { d.sec with report := d.reportBytes f nonce } }

/-- The DOE mailbox answers once the image runs and the PCIe link is up (R495, R496, R511). -/
def Dev.doeServed (d : Dev) : Bool := d.powered && d.mgmt.pcieLink && decide (3 < d.get kBootStage) && decide (d.get kBootStage ≠ 14)

/-- DOE_ATTEST (R511): the report, ALIAS_CERT and DEVICE_CERT. -/
def execDoeAttest (nonce : BitVec 256) (s : State) : Host.Outcome State Fault Refusal :=
  onFused (fun f d =>
    if d.doeServed then
      { d with mgmt := { d.mgmt with
          doe := List.flatten [d.reportBytes f nonce.toNat, fitBytes blockBytes d.sec.aliasCert, fitBytes blockBytes d.sec.deviceCert] } }
    else d) s

/-- DOE_ABORT (R511): the report is discarded. -/
def execDoeAbort (s : State) : Host.Outcome State Fault Refusal :=
  onDev (fun d => { d with mgmt := { d.mgmt with doe := [] } }) s

/-! Tokens (R512 to R515). -/

/-- The block verifies under R504 with the key its descriptor names. -/
def Fuses.tokenVerifies (f : Fuses) (b : List Byte) : Bool :=
  decide (b.length = blockBytes) && f.trusts (blockKey b) (tokenOf (ofBytes (b.take 128))).keySlot && blockSigned b

/-- The lowest reserved bit of a token that is set. -/
def Token.reservedBit (t : Token) : Option Nat :=
  match lowestBit t.reserved 338 with
  | some i => some (64 + i)
  | none => (List.range t.repairCount).findSome? (fun i =>
      (lowestBit (fld t.repairs (32 * i + 15) (32 * i)) 16).map (fun j => 512 + 32 * i + j))

/-- Some repair finds no spare of its kind left. -/
def Fuses.sparesShort (f : Fuses) : List Repair → Bool
  | [] => false
  | x :: xs => decide (2 ≤ f.spares x) || (f.repair x).sparesShort xs

/-- MAGIC, FORMAT, KIND and the counts of a token are what its kind asks (DESIGN CHOICE, log 53: VALUE_RANGE). -/
def Token.formOk (t : Token) (kind : Nat) : Bool :=
  decide (t.magic = 0x544B4649) && decide (t.format = 1) && decide (t.kind = kind) && decide (t.repairCount ≤ 8) &&
  (t.words.all (fun x => decide (x.bench < 96))) &&
  (decide (kind = 1) || (decide (t.repairCount = 0) && decide (t.levelsAdd = 0)))

/-- SERIAL_NUMBER, CHALLENGE, spares and levels (R513). -/
def Dev.tokenConflict (d : Dev) (f : Fuses) (t : Token) : Bool :=
  decide (t.serial ≠ f.serial) || decide (t.challenge ≠ d.get kRefuseChallenge) || f.sparesShort t.words ||
  decide (t.levelsAdd &&& (imageDescOf d.sec.runningDesc).levels ≠ t.levelsAdd)

/-- A token is refused (R513, R515, R523) in the order of R459; its authorisation is a matter of access. -/
def Dev.tokenRefused (d : Dev) (f : Fuses) (kind : Nat) (b : List Byte) : Option Nat :=
  let t := tokenOf (ofBytes (b.take 128))
  firstAbort [
    (!f.tokenVerifies b, abDenied),
    (decide (kind = 2) && !d.allEmpty, abModule),
    (t.reservedBit.isSome, abortCode 0x0302 (t.reservedBit.getD 0)),
    (!t.formOk kind, abRange),
    (d.tokenConflict f t, abConflict)]

/-- TOKEN_REFUSED, and the challenge that every token written draws (R512, R520). -/
def Dev.tokenTurnedAway (d : Dev) (code : Nat) : Dev := (d.securityEvent 0x0008 code).freshChallenge

/-- An accepted REFUSE_TOKEN is ARMED. -/
def Dev.armToken (d : Dev) (b : List Byte) : Dev :=
  { ((d.put kRefuseState 1).freshChallenge) with sec := { d.sec with token := some (ofBytes (b.take 128)) } }

/-- An accepted DEBUG_TOKEN unlocks JTAG and locks the attestation key (R515). -/
def Dev.unlockDebug (d : Dev) (b : List Byte) : Dev :=
  let d := (d.put kDebugState 1).securityEvent 0x0007 (tokenOf (ofBytes (b.take 128))).keySlot
  { d.freshChallenge with sec := { d.sec with attestLocked := true } }

/-! Paths (R522). -/

def updateKeys : List Nat := [kFwStageOffset, kFwStageData, kFwStageFrom, kFwInstall, kFwConfirm]
def serviceKeys : List Nat := [kRefuseToken, kDebugToken]

/-- A write over the PCIe path that the policy does not give to the host. -/
def Dev.pathDenied (d : Dev) (host : Bool) (k : Nat) : Bool :=
  host && (decide (k = kSecurityPolicy) || (updateKeys.contains k && !bit (d.get kSecurityPolicy) 0) ||
    (serviceKeys.contains k && !bit (d.get kSecurityPolicy) 1))

end Sys2Proof.Machine
end

