-- ==== Sys2Proof/Machine/Env.lean ====
section
/-! DEFINITION. Rails (R536 to R539), measured points (R542 to R544), the envelope (R545 to R550) and the signal lines of the
edge connector (R532, R533). -/

namespace Sys2Proof.Machine

/-! Points and limits. -/

/-- A quotient of naturals as REAL32. -/
def ratio (a b : Nat) : Nat := divRound .fp32 (.fin false a 0) (.fin false b 0)

def nanBits : Nat := Fmt.nan .fp32

/-- *Rails*: nominal in mV and maximum current in A of rail k; VIB's nominal is that of V_IN 44 V. -/
def railSpec (k : Nat) : Nat × Nat :=
  if k = 0 then (5000, 6) else if k = 1 then (750, 48) else if k = 2 then (1800, 4) else if k = 3 then (3300, 1)
  else if k = 4 then (11000, 280)
  else
    let j := (k - 5) % 7
    if j = 0 then (1800, 5) else if j = 1 then (1050, 70) else if j = 2 then (750, 35) else if j = 3 then (700, 600)
    else if j = 4 then (800, 60) else if j = 5 then (900, 40) else (3300, 8)

/-- Minimum phases of the rails, as *Rails* gives them beside those fitted. -/
def phasesMin (k : Nat) : Nat :=
  if k = 1 then 3 else if k = 4 then 4 else if k < 5 then 1
  else
    let j := (k - 5) % 7
    if j = 1 then 2 else if j = 3 then 21 else if j = 4 then 2 else 1

def phasesFull (k : Nat) : Nat := fld phasesFitted (8 * k + 7) (8 * k)

/-- The step of stage 5 that enables a rail from k = 4 (*Rails*); 8 is VLAS_On, enabled in stage 8. -/
def railStep (k : Nat) : Nat := if k = 4 then 1 else 2 + (k - 5) % 7

/-- Limits of a point in one direction: warning and fault with their times in microseconds, and trip. -/
structure Limit where
  above : Bool
  warn : Nat
  warnUs : Nat
  fault : Nat
  faultUs : Nat
  trip : Nat
  deriving DecidableEq, Repr

def temperature (warn fault trip : Nat) : List Limit :=
  [{ above := true, warn := ratio warn 1, warnUs := 1000000, fault := ratio fault 1, faultUs := 1000000, trip := ratio trip 1 }]

/-- Limits of a rail's voltage (*Envelope*). -/
def voltageLimits (mv : Nat) : List Limit :=
  [{ above := false, warn := ratio (98 * mv) 100000, warnUs := 10000, fault := ratio (95 * mv) 100000, faultUs := 20
     trip := ratio (92 * mv) 100000 },
   { above := true, warn := ratio (102 * mv) 100000, warnUs := 10000, fault := ratio (105 * mv) 100000, faultUs := 20
     trip := ratio (108 * mv) 100000 }]

/-- *Envelope* by point: the limits that ENVELOPE_LIMITS carries (R552). -/
def limitsOf (pt : Nat) : List Limit :=
  if pt = 1 then
    [{ above := false, warn := ratio 41 1, warnUs := 1000000, fault := ratio 40 1, faultUs := 10000, trip := ratio 36 1 },
     { above := true, warn := ratio 51 1, warnUs := 1000000, fault := ratio 52 1, faultUs := 1000, trip := ratio 56 1 }]
  else if pt = 2 then [{ above := true, warn := nanBits, warnUs := 0, fault := nanBits, faultUs := 0, trip := ratio 75 1 }]
  else if pt = 3 then
    [{ above := true, warn := ratio 2500 1, warnUs := 10000000, fault := ratio 2600 1, faultUs := 1000000, trip := nanBits }]
  else if pt = 4 ∨ pt = 5 then
    [{ above := true, warn := ratio 36 1, warnUs := 1000000, fault := ratio 40 1, faultUs := 100000, trip := nanBits }]
  else if pt = 0x10 ∨ pt = 0x11 then
    [{ above := false, warn := ratio 57 2, warnUs := 10000000, fault := ratio 28 1, faultUs := 60000000, trip := nanBits },
     { above := true, warn := ratio 63 2, warnUs := 10000000, fault := ratio 32 1, faultUs := 60000000, trip := nanBits }]
  else if pt = 0x12 then
    [{ above := true, warn := ratio 97 2, warnUs := 5000000, fault := ratio 50 1, faultUs := 1000000, trip := nanBits }]
  else if pt = 0x13 then
    [{ above := false, warn := ratio 26 10, warnUs := 5000000, fault := ratio 22 10, faultUs := 10000000, trip := nanBits }]
  else if 0x100 ≤ pt ∧ pt < 0x100 + 33 then voltageLimits (railSpec (pt - 0x100)).1
  else if 0x140 ≤ pt ∧ pt < 0x140 + 33 then
    let a := (railSpec (pt - 0x140)).2
    [{ above := true, warn := ratio (90 * a) 100, warnUs := 1000000, fault := ratio a 1, faultUs := 100000, trip := ratio (125 * a) 100 }]
  else if 0x200 ≤ pt ∧ pt < 0x284 then temperature 90 100 110
  else if 0x290 ≤ pt ∧ pt < 0x2C0 then temperature 85 95 105
  else if 0x2C0 ≤ pt ∧ pt < 0x2D0 then temperature 105 115 125
  else if 0x2D0 ≤ pt ∧ pt < 0x2D4 then temperature 70 75 85
  else []

/-- The points of *Measurement points*, ascending. -/
def points : List Nat :=
  List.flatten [(List.range 5).map (· + 1), (List.range 4).map (· + 0x10), (List.range 33).map (· + 0x100),
    (List.range 33).map (· + 0x140), (List.range 33).map (· + 0x180), (List.range 132).map (· + 0x200),
    (List.range 48).map (· + 0x290), (List.range 16).map (· + 0x2C0), (List.range 4).map (· + 0x2D0),
    (List.range 240).map (· + 0x400)]

def isPoint (pt : Nat) : Bool := points.contains pt

def isTemperature (pt : Nat) : Bool := decide (0x10 ≤ pt ∧ pt ≤ 0x12) || (decide (0x200 ≤ pt ∧ pt < 0x2D4) && isPoint pt)

/-- Interval between evaluations in ns: electrical points 1 ms, the others 100 ms (R543). -/
def interval (pt : Nat) : Nat := if pt < 0x10 ∨ (0x100 ≤ pt ∧ pt < 0x200) then 1000000 else 100000000

/-- The rail a point measures. -/
def railOf (pt : Nat) : Option Nat := if 0x100 ≤ pt ∧ pt < 0x1A1 ∧ (pt - 0x100) % 64 < 33 then some ((pt - 0x100) % 64) else none

/-- Sensors of the same die, stack or board area (R544). -/
def sensorGroup (pt : Nat) : List Nat :=
  if pt = 0x10 ∨ pt = 0x11 then [0x10, 0x11]
  else if 0x200 ≤ pt ∧ pt < 0x280 then (List.range 32).map (· + (0x200 + 32 * ((pt - 0x200) / 32)))
  else if 0x280 ≤ pt ∧ pt < 0x284 then (List.range 4).map (· + 0x280)
  else if 0x290 ≤ pt ∧ pt < 0x2C0 then (List.range 4).map (· + (0x290 + 4 * ((pt - 0x290) / 4)))
  else if 0x2C0 ≤ pt ∧ pt < 0x2D0 then (List.range 16).map (· + 0x2C0)
  else [pt]

/-- SITE of an envelope record (R546): the stack, or the port of a port island. -/
def pointSite (pt : Nat) : Nat :=
  if 0x290 ≤ pt ∧ pt < 0x2C0 then (pt - 0x290) / 4
  else if 0x200 ≤ pt ∧ pt < 0x280 ∧ 27 ≤ pt % 32 ∧ pt % 32 ≤ 30 then 4 * ((pt - 0x200) / 32) + pt % 32 - 27
  else 0x1F

/-- Compute and hub die sensors. -/
def isDie (pt : Nat) : Bool := decide (0x200 ≤ pt ∧ pt < 0x284)

def Dev.point (d : Dev) (pt : Nat) : Point := SMap.get Point.start d.env.points pt

def Dev.setPoint (d : Dev) (pt : Nat) (x : Point) : Dev :=
  { d with env := { d.env with points := SMap.set Point.start d.env.points pt x } }

def Dev.railState (d : Dev) (k : Nat) : Nat := fld (d.get kRailState) (8 * k + 7) (8 * k)

def Dev.setRail (d : Dev) (k v : Nat) : Dev := d.put kRailState (setFld (d.get kRailState) (8 * k + 7) (8 * k) v)

def Dev.phases (d : Dev) (k : Nat) : Nat := fld (d.get kRailPhases) (8 * k + 7) (8 * k)

/-- The value of a point that is a measurement. -/
def Dev.reading (d : Dev) (pt : Nat) : Option Nat := if (d.point pt).valid then some (d.point pt).value else none

def fpLt (a b : Nat) : Bool := Val.lt (ofFp32 a) (ofFp32 b)

def fpMax (a b : Nat) : Nat := if fpLt a b then b else a

/-- The highest valid reading of a list of points. -/
def Dev.highest (d : Dev) (l : List Nat) : Option Nat :=
  (l.filterMap d.reading).foldl (fun a v => some (match a with | none => v | some x => fpMax x v)) none

/-- A point is not evaluated while its rail is off, FLOW_EST while P_IN is below 800 W (R543). -/
def Dev.notEvaluated (d : Dev) (pt : Nat) : Bool :=
  match railOf pt with
  | some k => decide (d.railState k = 0)
  | none => decide (pt = 0x13) && (match d.reading 3 with | some v => fpLt v (ratio 800 1) | none => true)

/-! Conditions. -/

/-- A condition of a point: whether it is a fault, whether it holds now, for how long it must, and the limit it names. -/
structure Cond where
  fault : Bool
  now : Bool
  us : Nat
  limit : Nat
  deriving DecidableEq, Repr

def Limit.broken (x : Limit) (limit v : Nat) : Bool := if x.above then fpLt limit v else fpLt v limit

def Limit.conds (x : Limit) (v : Nat) : List Cond :=
  [{ fault := false, now := x.broken x.warn v, us := x.warnUs, limit := x.warn },
   { fault := true, now := x.broken x.fault v, us := x.faultUs, limit := x.fault }]

/-- Limits of VIB follow V_IN / 4 (R536). -/
def Dev.pointLimits (d : Dev) (pt : Nat) : List Limit :=
  if pt = 0x104 then
    match d.reading 1 with
    | none => limitsOf pt
    | some v =>
      (limitsOf pt).map (fun x =>
        let f := fun (l : Nat) => divRound .fp32 (Val.mul (ofFp32 l) (ofFp32 v)) (.fin false 44 0)
        { x with warn := f x.warn, fault := f x.fault, trip := f x.trip })
  else limitsOf pt

/-- Tests that *Envelope* has beside its limits: the pair share, the second inlet fault, the inlet difference, the phases. -/
def Dev.extraConds (d : Dev) (pt v : Nat) : List Cond :=
  if pt = 4 ∨ pt = 5 then
    match d.reading 2 with
    | none => []
    | some i =>
      [{ fault := false, now := !fpLt i (ratio 20 1) && Val.lt (Val.mul (ofFp32 i) (.fin false 70 0)) (Val.mul (ofFp32 v) (.fin false 100 0))
         us := 10000000, limit := fp32Mul i (ratio 7 10) }]
  else if pt = 0x10 ∨ pt = 0x11 then
    let other := (d.reading (0x21 - pt)).getD v
    [{ fault := true, now := fpLt v (ratio 26 1), us := 1000000, limit := ratio 26 1 },
     { fault := true, now := fpLt (ratio 34 1) v, us := 1000000, limit := ratio 34 1 },
     { fault := false
       now := Val.lt (.fin false 1 0) (Val.sub (ofFp32 v) (ofFp32 other)) || Val.lt (.fin false 1 0) (Val.sub (ofFp32 other) (ofFp32 v))
       us := 10000000, limit := ratio 1 1 }]
  else if 0x180 ≤ pt ∧ pt < 0x180 + 33 then
    let k := pt - 0x180
    [{ fault := false, now := fpLt v (ratio (phasesFull k) 1), us := 0, limit := ratio (phasesFull k) 1 },
     { fault := true, now := fpLt v (ratio (phasesMin k) 1), us := 0, limit := ratio (phasesMin k) 1 }]
  else []

def Dev.condsOf (d : Dev) (pt v : Nat) : List Cond := (d.pointLimits pt).flatMap (fun x => x.conds v) ++ d.extraConds pt v

/-- A condition for t holds when it holds at every evaluation over t (R543); `since` counts from the first of them. -/
def condHolds (time step since us : Nat) : Bool :=
  decide (since ≠ 0) && (decide (1000 * us < step) || decide (since - 1 + 1000 * us ≤ time))

def sinceNow (time since : Nat) (now : Bool) : Nat := if now = false then 0 else if since = 0 then time + 1 else since

/-- The point with its conditions brought up to now. -/
def Point.track (x : Point) (time : Nat) (cs : List Cond) : Point :=
  { x with since := (cs.zipIdx).foldl (fun m c => SMap.set 0 m c.2 (sinceNow time (SMap.get 0 x.since c.2) c.1.now)) [] }

/-- The conditions that hold. -/
def Point.holding (x : Point) (time step : Nat) (cs : List Cond) : List Cond :=
  ((cs.zipIdx).filter (fun c => condHolds time step (SMap.get 0 x.since c.2) c.1.us)).map Prod.fst

/-! The envelope. -/

def Dev.pointWhere (pt : Nat) : Where := atSite (pointSite pt)

def envelopeBody (pt value limit : Nat) : List (Nat × Nat) := [(16, pt), (32, value), (32, limit)]

/-- Codes of ENVELOPE_STATE. -/
def enInside : Nat := 0
def enWarning : Nat := 1
def enHold : Nat := 2
def enShutting : Nat := 3
def enShut : Nat := 4

/-- Some point is in its warning condition. -/
def Dev.anyWarn (d : Dev) : Bool := d.env.points.any (fun x => x.2.warn)

/-- The input voltage or the coolant inlet temperature lies outside its envelope (R492). -/
def Dev.outside (d : Dev) : Bool :=
  let out := fun (pt lo hi : Nat) => match d.reading pt with
    | none => false
    | some v => fpLt v (ratio lo 1) || fpLt (ratio hi 1) v
  out 1 40 52 || (match d.highest [0x10, 0x11] with | none => false | some v => fpLt v (ratio 28 1) || fpLt (ratio 32 1) v)

/-- ENVELOPE_STATE follows the points, but after a shutdown has begun. -/
def Dev.envelopeNow (d : Dev) : Dev :=
  if d.env.shutAt.isSome then d
  else d.put kEnvelopeState
    (if d.get kBootStage = 4 ∧ d.outside then enHold else if d.anyWarn then enWarning else enInside)

/-- MOD_ALERT_N is asserted (R533). -/
def Dev.modAlert (d : Dev) : Bool :=
  (bit (d.get kAlertMask) 0 && (d.anyWarn || decide (d.get kEnvelopeState = enHold))) ||
  (bit (d.get kAlertMask) 1 && (List.range 4).any (fun p => d.flag p pfCkpt))

/-- A point enters its warning (R546): a new entry writes and warns once it has been clear for 60 s. -/
def Dev.enterWarning (d : Dev) (pt value limit : Nat) : Dev :=
  let x := d.point pt
  let d := d.setPoint pt { x with warn := true }
  let quiet := match x.clearAt with | none => true | some t => decide (t + 60000000000 ≤ d.time)
  if quiet then
    let d := d.record (Dev.pointWhere pt) 0x801 0 (envelopeBody pt value limit)
    d.ckptWarn (Dev.pointWhere pt) 7 d.lastSeq
  else d

/-- The ports go dark with their records, and what the dies and the memory hold is lost with their rails (R309, R310, R547, R548); the
dictionary keeps what it reads (DEDUCED, log 54). -/
def Dev.darken (d : Dev) : Dev :=
  let dark := (List.range 16).foldl (fun d n => if d.portState n = poDown then d else d.dropPort n reNoLight) d
  let d := if d.fabricIsShort = false ∧ dark.fabricIsShort = true then dark.shortRecord else dark
  { d with
    seqs := Seqs.reset, benches := { Benches.reset with unrepaired := d.benches.unrepaired }
    haul := [], haulStop := [], tallies := Tallies.reset, training := Training.reset
    mem := { d.mem with hbm := [], poison := [], heldWrites := [], held := [], carried := [], retrainWaiting := [], tgRunning := [] }
    fabric := { d.fabric with ports := [], reqs := [] } }

/-- Every rail from k = 4 upward is switched off (R538). -/
def Dev.railsDown (d : Dev) : Dev :=
  let d := (List.range 33).foldl (fun d k => if 4 ≤ k then d.setRail k 0 else d) d
  { d.darken with env := { d.env with railsOff := true } }

/-- Steps 3 and 4 of an envelope shutdown (R547). -/
def Dev.shutEnd (d : Dev) : Dev :=
  let d := d.railsDown
  let d := (d.put kModuleState 4).put kEnvelopeState enShut
  let d := d.put kLastShutdown (pack [(16, d.env.shutPoint), (16, 0), (32, d.env.shutSeq)])
  { d with env := { d.env with fatalLow := true } }

/-- Step 1: the record, and the shutdown begins. A reset in progress is abandoned (R549). -/
def Dev.shutBegin (d : Dev) (pt value limit : Nat) : Dev :=
  let seq := d.get kFaultSeqNext
  let d := d.record (Dev.pointWhere pt) 0x802 5 (envelopeBody pt value limit)
  if d.env.shutAt.isSome then d
  else
    let d := if d.faults.run.isSome then ({ d with faults := { d.faults with run := none, next := none } }).setResetStatus 0 else d
    { (d.put kEnvelopeState enShutting) with env := { d.env with shutAt := some d.time, shutPoint := pt, shutSeq := seq } }

/-- Step 2: one capture, and a partition reset of every partition in its states, all at once. -/
def Dev.shutPartitions (d : Dev) (seq : Nat) : Dev :=
  match (List.range 4).filter (fun p => d.resettable p) with
  | [] => d
  | p :: ps => (p :: ps).foldl (fun d p => d.resetPart p 0x802 seq) (d.capture 3 p 0xFF seq)

/-- A point enters its fault (R547, R549): before stage 5 and once the rails are off, its record alone. -/
def Dev.enterFault (d : Dev) (pt value limit : Nat) : Dev :=
  let stage := d.get kBootStage
  let begun := d.env.shutAt.isSome
  if stage < 5 ∨ stage = 14 then d
  else
    let d := d.shutBegin pt value limit
    if begun then d
    else
      let d := d.bump kEnvelopeShutdowns 1
      if stage < 9 then (d.put kBootStage 15).shutEnd else d.shutPartitions d.env.shutSeq

/-- Steps 3 and 4 follow when every partition has been torn down, and no later than 50 ms after the fault. -/
def Dev.shutCheck (d : Dev) : Dev :=
  match d.env.shutAt with
  | none => d
  | some t =>
    if d.env.railsOff then d
    else if (List.range 4).all (fun p => d.atRest p) ∨ t + 50000000 ≤ d.time then d.shutEnd else d

/-! Rails as they come up (R537). -/

/-- The rails of a step are enabled, those of the four groups 1 ms apart. -/
def Dev.enableStep (d : Dev) (step : Nat) : Dev :=
  (List.range 33).foldl (fun d k =>
    if 4 ≤ k ∧ railStep k = step then
      let d := d.setRail k 1
      { d with env := { d.env with railAt := SMap.set 0 d.env.railAt k (d.time + (k - 4 - 1) / 7 * 1000000) } }
    else d) d

def Dev.stepGood (d : Dev) (step : Nat) : Bool :=
  (List.range 33).all (fun k => decide (k < 4) || decide (railStep k ≠ step) || decide (d.railState k = 2))

/-- Every rail from k = 4, apart from VLAS_On, is good (R537). -/
def Dev.railsGood (d : Dev) : Bool := (List.range 7).all (fun i => d.stepGood (i + 1))

/-- A ramping rail within 3 % of nominal is good, and the next step begins when its whole step is. -/
def Dev.railGood (d : Dev) (k : Nat) : Dev :=
  let d := d.setRail k 2
  let step := railStep k
  if d.stepGood step ∧ step < 7 then d.enableStep (step + 1) else d

/-- The nominal of a rail with a share in percent: VIB's is a quarter of V_IN (R536). -/
def Dev.nominal (d : Dev) (k percent : Nat) : Nat :=
  match if k = 4 then d.reading 1 else none with
  | some v => divRound .fp32 (Val.mul (ofFp32 v) (.fin false percent 0)) (.fin false 400 0)
  | none => ratio (percent * (railSpec k).1) 100000

/-- The voltage of a rail that ramps: good within 3 % of nominal, in fault 10 ms after it was enabled, or neither yet. -/
def Dev.rampVoltage (d : Dev) (k v : Nat) : Dev :=
  let low := fpLt v (d.nominal k 97)
  if low = false ∧ fpLt (d.nominal k 103) v = false then d.railGood k
  else if SMap.get 0 d.env.railAt k + 10000000 ≤ d.time then
    (d.setRail k 3).enterFault (0x100 + k) v (d.nominal k (if low then 97 else 103))
  else d

/-! Evaluation. -/

/-- FLOW_EST (R541) from the readings in force, rounded once (DEDUCED, log 153); none while one of them is missing. -/
def Dev.flowEst (d : Dev) : Option Nat :=
  match d.reading 3, d.highest [0x10, 0x11], d.reading 0x12 with
  | some p, some i, some o =>
    some (divRound .fp32 (Val.mul (ofFp32 p) (.fin false 60 0))
      (Val.mul (ofFp32 (d.get kFlowHeatCapacity)) (Val.sub (ofFp32 o) (ofFp32 i))))
  | _, _, _ => none

/-- The value that an evaluation finds: the mean that the row brings, and of FLOW_EST the estimate where it can be formed. -/
def Dev.sampleOf (d : Dev) (pt v : Nat) : Nat := if pt = 0x13 then (d.flowEst).getD v else v

/-- Lifetime counters (R553), advanced as their points are evaluated. -/
def Dev.lifetime (d : Dev) (pt v : Nat) : Dev :=
  let whole := fun (x : Nat) => match ofFp32 x with
    | .fin false m e => if 0 ≤ e then m * 2 ^ e.toNat else m / 2 ^ (-e).toNat
    | _ => 0
  if pt = 3 then
    let up := d.env.uptime + interval pt
    let en := d.env.energy + whole v * 1000
    let d := (d.put kPoweredHours ((d.get kPoweredHours + up / 3600000000000) % 2 ^ 32)).bump kEnergyLifetime (en / 10 ^ 12)
    { d with env := { d.env with uptime := up % 3600000000000, energy := en % 10 ^ 12 } }
  else if pt = 0x10 then
    let out := match d.highest [0x10, 0x11] with
      | none => false
      | some t => fpLt t (ratio 57 2) || fpLt (ratio 63 2) t
    let m := d.env.marginal + (if out then interval pt else 0)
    let d := d.put kHoursInletMarginal ((d.get kHoursInletMarginal + m / 3600000000000) % 2 ^ 32)
    { d with env := { d.env with marginal := m % 3600000000000 } }
  else if isDie pt then d.put kDieTempPeak (fpMax (d.get kDieTempPeak) v)
  else d

/-- A value is tracked against the conditions of its point; entering a warning or a fault acts. -/
def Dev.judge (d : Dev) (pt v : Nat) : Dev :=
  let cs := d.condsOf pt v
  let x := (d.point pt).track d.time cs
  let hs := x.holding d.time (interval pt) cs
  let warn := hs.find? (fun (c : Cond) => !c.fault)
  let fault := hs.find? (fun (c : Cond) => c.fault)
  let d := d.setPoint pt { x with
    warn := x.warn && warn.isSome, fault := fault.isSome, clearAt := if x.warn && warn.isNone then some d.time else x.clearAt }
  let d := match warn with
    | some c => if x.warn then d else d.enterWarning pt v c.limit
    | none => d
  match fault with
  | some c => if x.fault then d else d.enterFault pt v c.limit
  | none => d

/-- A point takes a value that is a measurement. -/
def Dev.measured (d : Dev) (pt v : Nat) : Dev :=
  let x := d.point pt
  let first := decide (x.max = 0) && decide (x.min = 0) && !x.valid
  d.setPoint pt { x with
    value := v, valid := true, excluded := false
    min := if first ∨ fpLt v x.min = true then v else x.min
    max := if first ∨ fpLt x.max v = true then v else x.max }

/-- A point that is not evaluated: none of its conditions holds (R543, R546). -/
def Point.unjudged (x : Point) (time : Nat) : Point :=
  { x with valid := false, since := [], warn := false, fault := false, clearAt := if x.warn then some time else x.clearAt }

/-- A group of sensors whose loss is an envelope fault: both inlets, every sensor of a die or of a stack (R544). -/
def lossIsFault (pt : Nat) : Bool := decide (pt = 0x10 ∨ pt = 0x11) || isDie pt || decide (0x290 ≤ pt ∧ pt < 0x2C0)

/-- A sensor is excluded (R544): named once; its group's highest reading stands in, and where none is left that is a fault of a
group whose loss is one. -/
def Dev.exclude (d : Dev) (pt : Nat) : Dev :=
  let x := d.point pt
  let d := d.setPoint pt { x with valid := false, excluded := true, value := nanBits }
  let d := if x.excluded then d else d.record (Dev.pointWhere pt) 0x801 0 (envelopeBody pt nanBits nanBits)
  match d.highest (sensorGroup pt) with
  | some v => d.judge pt v
  | none =>
    if lossIsFault pt = false then d.setPoint pt ((d.point pt).unjudged d.time)
    else if x.fault ∨ (sensorGroup pt).all (fun q => (d.point q).excluded) = false then d
    else (d.setPoint pt { d.point pt with fault := true }).enterFault pt nanBits nanBits

/-- MEASUREMENT_EVALUATION: from stage 3 on, and not of a point that is not evaluated. -/
def Dev.evaluatePoint (d : Dev) (pt v : Nat) (excluded : Bool) : Dev :=
  if d.get kBootStage < 3 ∨ d.get kBootStage = 14 ∨ isPoint pt = false then d
  else
    let d := d.shutCheck
    if d.notEvaluated pt then (d.setPoint pt ((d.point pt).unjudged d.time)).envelopeNow
    else if excluded ∧ isTemperature pt then (d.exclude pt).envelopeNow
    else
      let v := d.sampleOf pt v
      let d := (d.measured pt v).lifetime pt v
      match railOf pt with
      | some k =>
        if pt < 0x140 ∧ d.railState k = 1 then (d.rampVoltage k v).envelopeNow else (d.judge pt v).envelopeNow
      | none => (d.judge pt v).envelopeNow

def execMeasurementEvaluation (point : BitVec 16) (value : Word32) (excluded : Bool) (s : State) :
    Host.Outcome State Fault Refusal :=
  onDev (fun d => d.evaluatePoint point.toNat value.toNat excluded) s

/-- TRIP (R548): the rails go at once. With `removal` the tray is removing power: nothing is written and no line is raised. A
comparator finds nothing to switch once the rails are off. -/
def Dev.trip (d : Dev) (pt v : Nat) (removal : Bool) : Dev :=
  let hit := (d.pointLimits pt).find? (fun x => x.broken x.trip v)
  match hit with
  | none => d
  | some x =>
    if removal ∧ pt = 1 ∧ x.above = false then
      { d with powered := false }
    else if (List.range 33).all (fun k => decide (k < 4) || decide (d.railState k = 0)) then d
    else
      let d := (d.shutBegin pt v x.trip).bump kEnvelopeTrips 1
      (if d.get kBootStage < 9 then d.put kBootStage 15 else d).shutEnd

def execTrip (point : BitVec 16) (value : Word32) (removal : Bool) (s : State) : Host.Outcome State Fault Refusal :=
  onDev (fun d => d.trip point.toNat value.toNat removal) s

/-- PHASE_FAULT (R539): a phase leaves service; the rail keeps running with its minimum. -/
def Dev.phaseFault (d : Dev) (k : Nat) : Dev :=
  let n := d.phases k
  if n = 0 ∨ d.railState k = 0 then d
  else
    let d := d.put kRailPhases (setFld (d.get kRailPhases) (8 * k + 7) (8 * k) (n - 1))
    if n - 1 < phasesMin k then d.setRail k 3 else d

def execPhaseFault (rail : Fin 33) (s : State) : Host.Outcome State Fault Refusal := onDev (fun d => d.phaseFault rail) s

/-! What the measurement entries read (R552, R553). -/

/-- *Measurement record*. -/
def Dev.measRecord (d : Dev) (pt : Nat) : Nat :=
  let x := d.point pt
  pack [(16, pt), (11, 0), (1, b2n (d.notEvaluated pt)), (1, b2n x.excluded), (1, b2n x.fault), (1, b2n x.warn), (1, b2n x.valid),
        (32, if x.valid then x.value else nanBits)]

/-- *Envelope limit record*. -/
def limitRecord (pt : Nat) (x : Limit) : Nat :=
  pack [(16, pt), (8, b2n x.above), (8, 0), (32, x.warn), (32, x.warnUs), (32, x.fault), (32, x.faultUs), (32, x.trip), (64, 0)]

def limitsBytes : List Byte :=
  points.flatMap (fun pt => (limitsOf pt).flatMap (fun x => toBytes (limitRecord pt x) 32))

/-- WARNING_POINTS. -/
def Dev.warningPoints (d : Dev) : List Byte := (points.filter (fun pt => (d.point pt).warn)).flatMap (fun pt => toBytes pt 2)

/-- A value as the entries read it. -/
def readingOr (v : Option Nat) : Nat := v.getD nanBits

end Sys2Proof.Machine
end

