-- ==== Sys2Proof/Machine/Boot.lean ====
section
/-! DEFINITION. Power-up (R490 to R497), the boot chain (R499 to R502), the PCIe reset line (R496, R530) and BAR2 (R480). -/

namespace Sys2Proof.Machine

/-! Codes of *Boot stages*. -/

def bsRom : Nat := 0
def bsImage : Nat := 1
def bsIdentity : Nat := 2
def bsWeighbridge : Nat := 3
def bsEnvelope : Nat := 4
def bsRails : Nat := 5
def bsDies : Nat := 6
def bsMemory : Nat := 7
def bsPorts : Nat := 8
def bsDone : Nat := 9
def bsRecovery : Nat := 14
def bsHalted : Nat := 15

def Dev.bootStage (d : Dev) : Nat := d.get kBootStage

def Dev.enterStage (d : Dev) (n : Nat) : Dev :=
  let d := d.put kBootStage n
  { d with env := { d.env with stageAt := d.time } }

/-! The application of 44 V. -/

/-- An entry's value outlasts a power cycle outside the CONFIG area: the RO STORED entries and the fuses (R20, R481). -/
def outlasts (k : Nat) : Bool :=
  match cardOf k with
  | none => false
  | some c => decide (c.pers = .fused) || (decide (c.pers = .stored) && decide (c.acc ≠ .rw))

/-- What the memory system keeps (*Persistence areas*, REPAIR); a RELIEF_CLEAR returns its stack to ONLINE (R269). -/
def Dev.powerMem (d : Dev) : Mem :=
  { Mem.reset with
    bedGib := d.mem.bedGib
    pcState := d.keptChannels.filter (fun x => !NSet.mem d.mem.reliefClear (x.1 % 12))
    softRemap := d.mem.softRemap, sparesUsed := d.mem.sparesUsed, pendingRepairs := d.mem.pendingRepairs
    retired := d.mem.retired
    reliefWanted := d.mem.reliefWanted.filter (fun x => !NSet.mem d.mem.reliefClear x.1) }

/-- The flash and the fuses alone outlast a power cycle (R20, R481, R494). -/
def Dev.powerLoss (d : Dev) : Dev :=
  let cleared := d.mem.reliefClear
  let d := { d with
    powered := true, time := 0, dict := d.dict.filter (fun x => outlasts x.1)
    seqs := Seqs.reset, benches := { Benches.reset with unrepaired := d.benches.unrepaired }
    haul := [], haulStop := [], tallies := Tallies.reset, mem := d.powerMem, fabric := Fabric.reset
    training := Training.reset, parts := []
    faults := { Faults.reset with log := d.faults.log, captures := d.faults.captures }
    mgmt := { Mgmt.reset with
      confSlot := d.mgmt.confSlot, confSeq := d.mgmt.confSeq, confBody := d.mgmt.confBody, pcieLink := false, perst := true }
    sec := { d.sec with
      staged := false, identityLocked := false, attestLocked := false, aliasCert := [], report := [], token := none
      bootFailed := none }
    env := { Env.reset with uptime := d.env.uptime, marginal := d.env.marginal, energy := d.env.energy } }
  cleared.foldl (fun d s => d.put (kRelievedPc s) 0xFF) d

/-- The hub's rails are up, the others off; every phase is in service again (R536, R539). -/
def Dev.hubRails (d : Dev) : Dev :=
  (d.put kRailState (pack (List.replicate 29 (8, 0) ++ List.replicate 4 (8, 2)))).put kRailPhases phasesFitted

/-- POWER_UP: stage 0 begins, module time is 0 and the straps are sampled (R463, R490, R491, R529). The ports are dark. -/
def Dev.powerUp (d : Dev) (straps : Nat) : Dev :=
  let d := (d.powerLoss.hubRails).freshChallenge
  let d := ((d.put kT1sNodeId straps).put kT1sState (if straps = 0 then 0 else 1)).put kBootStage bsRom
  (List.range 16).foldl (fun d n => d.put (kPortState n) poDown) d

def execPowerUp (straps : BitVec 4) (s : State) : Host.Outcome State Fault Refusal :=
  .next { s with dev := s.dev.powerUp straps.toNat }

/-! The boot chain. -/

/-- The ROM chooses the first slot (R499). -/
def Dev.chooseImage (d : Dev) : Dev :=
  let x := d.sec
  if x.pendingValid = false then { d with sec := { x with bootSlot := x.slotInForce } }
  else if x.tried = false then { d with sec := { x with tried := true, bootSlot := x.pendingSlot } }
  else if x.trialOk then { d with sec := { x with bootSlot := x.pendingSlot } }
  else
    let d := { d with sec := { x with pendingValid := false, bootSlot := x.slotInForce } }
    d.securityEvent 0x0003 (b2n x.pendingSlot)

/-- The chosen slot fails a check, or its stages overrun (code 0; R493, R500). -/
def Dev.slotFails (d : Dev) (code : Nat) : Dev :=
  let slot := d.sec.bootSlot
  let d := d.securityEvent 0x0001 (256 * code + b2n slot)
  let d := if d.sec.pendingValid ∧ d.sec.pendingSlot = slot then { d with sec := { d.sec with pendingValid := false } } else d
  match d.sec.bootFailed with
  | none => { d with sec := { d.sec with bootSlot := !slot, bootFailed := some code } }
  | some c =>
    let detail := if slot then 256 * c + code else 256 * code + c
    (d.securityEvent 0x0002 detail).enterStage bsRecovery

/-- The image of the slot runs. -/
def Dev.acceptImage (d : Dev) : Dev :=
  let slot := d.sec.bootSlot
  let d := { d with sec := { d.sec with
    runningSlot := slot, runningDesc := d.slotDesc slot, imageDigest := shake256 (d.slotRead slot 0 0x800) } }
  d.enterStage bsIdentity

/-- Stage 1 (R500): the chosen slot, then the other. -/
def Dev.verifyImage (d : Dev) (f : Fuses) : Dev :=
  let code := d.imageCheck f d.sec.bootSlot
  if code = 0 then d.acceptImage
  else
    let d := d.slotFails code
    if d.bootStage = bsRecovery then d
    else
      let code := d.imageCheck f d.sec.bootSlot
      if code = 0 then d.acceptImage else d.slotFails code

/-- The running image's own entries; a change of FW_VERSION clears SHADOW_QUALIFIED (R390, R519). -/
def Dev.takeVersion (d : Dev) : Dev :=
  let x := imageDescOf d.sec.runningDesc
  let d := if d.get kFwVersion = x.fwVersion then d else d.put kShadowQualified 0
  let d := (d.put kFwVersion x.fwVersion).put kCompatEpoch x.compatEpoch
  if d.sec.pendingValid ∧ d.sec.pendingSlot = d.sec.runningSlot then d.put kFwState fwTrial else d

/-- Stage 2 (R501): the keys, the count and the certificate, then the lock. -/
def Dev.deriveKeys (d : Dev) (f : Fuses) : Dev :=
  let seed := shake256 (f.deviceSeed ++ d.sec.imageDigest)
  let d := d.put kBootCount ((d.get kBootCount + 1) % 2 ^ 32)
  let d := d.takeVersion
  let d := { d with sec := { d.sec with
    identityKey := Config.falconKey f.deviceSeed, attestSeed := seed, attestKey := Config.falconKey seed } }
  { d with sec := { d.sec with aliasCert := d.aliasCert f, identityLocked := true } }

/-- The PCIe link trains from the release of PCIE_PERST_N and the end of stage 2 (R496). -/
def Dev.trainPcie (d : Dev) : Dev := { d with mgmt := { d.mgmt with pcieLink := !d.mgmt.perst } }

/-- The persistence areas are read (R483), and BED_SIZE_GIB comes into force (R234). -/
def Dev.readAreas (d : Dev) : Dev :=
  let d := d.readConfig.updateUsable
  { d with mem := { d.mem with bedGib := d.get kBedSizeGib } }

/-- Every rail of stage 5 is good; a rail in fault holds the stage. -/
def Dev.railsEnd (d : Dev) : Dev :=
  if (List.range 33).any (fun k => decide (d.railState k = 3)) then d
  else ((List.range 33).foldl (fun d k => if 4 ≤ k ∧ railStep k ≤ 7 then d.setRail k 2 else d) d).enterStage bsDies

/-- Optics are powered and link training starts (R497). -/
def Dev.openPorts (d : Dev) : Dev :=
  let d := (List.range 33).foldl (fun d k => if railStep k = 8 ∧ 4 < k then d.setRail k 2 else d) d
  d.startPorts

/-- Stage 9: BOOTING ends, and a trial image has reached it (R495, R499). -/
def Dev.bootDone (d : Dev) : Dev :=
  let d := (d.enterStage bsDone).put kModuleState 1
  if d.sec.pendingValid ∧ d.sec.pendingSlot = d.sec.runningSlot then { d with sec := { d.sec with trialOk := true } } else d

/-- BOOT_STAGE_END (R490): the work of the stage that ends, then the next stage. Stage 4 is held while outside the envelope
(R492); a shutdown stops the power-up (R549). -/
def Dev.bootStageEnd (d : Dev) (f : Fuses) : Dev :=
  let n := d.bootStage
  if d.env.shutAt.isSome then d
  else if n = bsRom then d.chooseImage.enterStage bsImage
  else if n = bsImage then d.verifyImage f
  else if n = bsIdentity then ((d.deriveKeys f).trainPcie).enterStage bsWeighbridge
  else if n = bsWeighbridge then (d.readAreas.enterStage bsEnvelope).envelopeNow
  else if n = bsEnvelope then if d.outside then d.envelopeNow else ((d.enterStage bsRails).enableStep 1).envelopeNow
  else if n = bsRails then d.railsEnd
  else if n = bsDies then d.enterStage bsMemory
  else if n = bsMemory then (d.hardRepairs.enterStage bsPorts).openPorts
  else if n = bsPorts then d.bootDone
  else d

def execBootStageEnd (s : State) : Host.Outcome State Fault Refusal := onFused (fun f d => d.bootStageEnd f) s

/-- Limits of *Boot stages* in ns; stages 3 and 4 have none of their own (R492, R493). -/
def Dev.stageLimit (d : Dev) : Option Nat :=
  let n := d.bootStage
  let most := ((List.range 12).map (fun s => d.get (kPendingHardRepairs s))).foldl max 0
  if n = bsRom then some 5000000 else if n = bsImage then some 40000000 else if n = bsIdentity then some 30000000
  else if n = bsRails then some 200000000 else if n = bsDies then some 100000000
  else if n = bsMemory then some (400000000 + 2000000 * most) else if n = bsPorts then some 50000000
  else none

/-- STAGE_OVERRUN (R493). -/
def Dev.stageOverrun (d : Dev) : Dev :=
  let n := d.bootStage
  match d.stageLimit with
  | none => d
  | some limit =>
    if d.time < d.env.stageAt + limit then d
    else if n ≤ bsIdentity then
      let d := (if n = bsRom then d.chooseImage else d).slotFails 0
      if d.bootStage = bsRecovery then d else d.enterStage bsImage
    else
      let d := d.record noWhere 0x703 5 [(4, 0), (8, n)]
      let d := (d.put kBootStage bsHalted).put kModuleState 4
      { d with env := { d.env with fatalLow := true } }

def execStageOverrun (s : State) : Host.Outcome State Fault Refusal := onDev Dev.stageOverrun s

/-! The PCIe path. -/

/-- PCIE_PERST_N is asserted (R530): the endpoint alone is reset. -/
def execPciePerstN (s : State) : Host.Outcome State Fault Refusal :=
  onDev (fun d =>
    let d := d.put kBar2Base 0
    { d with mgmt := { d.mgmt with
        perst := true, pcieLink := false, msixTable := [], msixPending := [], doe := [], d3hot := false, busMaster := false
        transfers := d.mgmt.transfers.filter (fun t => t.owner.isSome) } }) s

/-- PERST_RELEASE (R496): the link trains, or waits for the end of stage 2. -/
def execPerstRelease (s : State) : Host.Outcome State Fault Refusal :=
  onDev (fun d =>
    let d := { d with mgmt := { d.mgmt with perst := false } }
    if bsIdentity < d.bootStage then d.trainPcie else d) s

/-- Host accesses reach the function: the link is up, and D3hot has not stopped BAR decoding (R496, R516). -/
def Dev.decodes (d : Dev) : Bool := d.mgmt.pcieLink && !d.mgmt.d3hot

/-- BAR2 is served from the end of stage 7 while the memory runs (R496), and not in D3hot (R516). -/
def Dev.bar2Open (d : Dev) : Bool := d.live && !d.mgmt.d3hot && decide (bsMemory < d.bootStage)

/-- A host access through BAR2 (R480): in the order of arrival, unchecked but for WORKING_BYTES; it waits for lines that are
held (R245, R262). -/
def Dev.bar2Access (d : Dev) (offset : Nat) (op : Bar2Op) : Dev :=
  let at_ := d.get kBar2Base + offset
  let n := match op with | .read b => b.toNat | .write l => l.length
  if d.bar2Open = false ∨ d.workingBytes < at_ + n then d.send .bar2Unsupported
  else if d.blocked at_ n then d.hold at_ n (.host op)
  else d.hostAccess at_ n op

def execBar2Access (offset : Word32) (op : Bar2Op) (s : State) : Host.Outcome State Fault Refusal :=
  onDev (fun d => if d.mgmt.pcieLink then d.bar2Access offset.toNat op else d) s

end Sys2Proof.Machine
end

