-- ==== Sys2Proof/Machine/Values.lean ====
section
/-! DEFINITION. What the entries of the dictionary read (R455 to R459): the values that are computed from the state of the
units, and the value of every other entry from its home in the dictionary. -/

namespace Sys2Proof.Machine

/-- An index lies in the range of `n` indices from `base`. -/
def among (index base n : Nat) : Bool := decide (base ≤ index) && decide (index < base + n)

/-! Tallies. -/

def Dev.tallyMapBytes (d : Dev) (p : Nat) : List Byte := (List.range 4096).flatMap (fun v => toBytes (d.mapEntry p v) 2)

/-- Waiters posted at a physical tally, in slot order (R208, R227). -/
def Dev.waitersAt (d : Dev) (t : Nat) : List Nat :=
  rising (List.flatten [(d.waitsOn t 1).map Prod.fst, (d.waitsOn t 2).map Prod.fst, (d.ownTakers t).map Taker.id])

/-- What the home of a virtual tally shows at one moment (R227, R228). -/
def Dev.peekOf (d : Dev) (p v : Nat) : Peek :=
  match d.phys p v with
  | none => { count := 0, state := 2, waiters := [] }
  | some t => { count := (d.tally t).count, state := b2n (d.tally t).overflowed, waiters := d.waitersAt t }

/-- A write of TALLY_PEEK_SEL takes the three values together, for the reads that follow (R228; DESIGN CHOICE, log 139). -/
def Dev.takePeek (d : Dev) (p v : Nat) : Dev :=
  let d := d.put (kTallyPeekSel p) v
  { d with tallies := { d.tallies with peek := SMap.set Peek.none d.tallies.peek p (d.peekOf p v) } }

/-- TALLY_PEEK_COUNT, TALLY_PEEK_STATE and TALLY_PEEK_WAITERS as they were taken. -/
def Dev.peekBytes (d : Dev) (p sub : Nat) : List Byte :=
  let x := SMap.get Peek.none d.tallies.peek p
  if sub = 4 then toBytes x.count 4 else if sub = 5 then toBytes x.state 1 else x.waiters.flatMap (fun i => toBytes i 2)

/-! Memory. -/

def Dev.channelBytes (d : Dev) (s : Nat) : List Byte := (List.range 64).flatMap (fun k => toBytes (d.pc (12 * k + s)).code 1)

def Dev.tgBytes (d : Dev) (s : Nat) : List Byte := (List.range 64).flatMap (fun k => toBytes (SMap.get 0 d.mem.tgResult (64 * s + k)) 32)

def Dev.memoryValue (d : Dev) (sub : Nat) : Option (List Byte) :=
  if sub = 2 then some (toBytes d.workingBytes 8)
  else if sub = 3 then some (toBytes d.bedPositions 4)
  else if sub = 9 then some (d.mem.retired.flatMap (fun w => toBytes w 8))
  else none

/-! Fabric, training. -/

def Dev.routeBytes (d : Dev) : List Byte := (List.range 65536).flatMap (fun c => toBytes (d.route c) 4)

/-- COLLECTIVE: Q, 2 reserved bytes and the chips; empty where no list is held (R352). -/
def Dev.collectiveBytes (d : Dev) (p i : Nat) : List Byte :=
  let l := d.collective p i
  if l = [] then [] else List.flatten [toBytes l.length 4, l.flatMap (fun c => toBytes c 2)]

/-- LOSS_SCALE_EXP: that of the step control block, 0 where there is none. -/
def Dev.scaleExp (d : Dev) (p : Nat) : Nat :=
  if d.get (kStepBlockAddr p) = 0 then 0 else (stepBlockOf (d.stepBlock p)).exp

/-! Faults. -/

/-- The record at FAULT_SEL, where the log still holds it (R420, R453). -/
def Dev.selectedRecord (d : Dev) : Option Nat :=
  let sel := d.get kFaultSel
  match SMap.get none d.faults.log (sel % 4096) with
  | some r => if fld r 959 928 = sel then some r else none
  | none => none

/-- The whole ring; a place that holds no record reads zeros (DEDUCED, log 70). -/
def Dev.logBytes (d : Dev) : List Byte :=
  (List.range 4096).flatMap (fun i => toBytes ((SMap.get none d.faults.log i).getD 0) 128)

def Dev.selectedCapture (d : Dev) : Option Capture := d.faults.captures.find? (fun c => decide (c.id = d.get kCaptureSel))

/-! Identity and security. -/

/-- The MAC address in order: 0x02, 0x00 and SERIAL_NUMBER bits 31:0, most significant first (R464). -/
def Fuses.mac (f : Fuses) : List Byte := List.flatten [[0x02#8, 0x00#8], (toBytes f.serial 4).reverse]

/-- The link-local address as a number, its first byte most significant: fe80::/64 and the modified EUI-64 of the MAC. -/
def Fuses.linkLocal (f : Fuses) : Nat :=
  pack [(16, 0xFE80), (48, 0), (16, 0), (8, fld f.serial 31 24), (16, 0xFFFE), (24, fld f.serial 23 0)]

/-- FACE_REPAIR: the fuses, with UNREPAIRED of each face (R116, R119). -/
def Dev.faceRepair (d : Dev) (f : Fuses) (b : Nat) : Nat :=
  (List.range 4).foldl (fun w i => setBitTo w (8 * i + 2) (NSet.mem d.benches.unrepaired (4 * b + i))) (SMap.get 0 f.faceRepair b)

def Dev.identityValue (f : Fuses) (sub : Nat) : Option (List Byte) :=
  if sub = 2 then some (toBytes f.hwRevision 4)
  else if sub = 5 then some (toBytes f.levels 4)
  else if sub = 6 then some (toBytes f.serial 8)
  else none

def Dev.securityValue (d : Dev) (f : Fuses) (sub : Nat) : Option (List Byte) :=
  if sub = 1 then some (fitBytes 1793 d.sec.identityKey)
  else if sub = 2 then some (shake256 (fitBytes 1793 d.sec.identityKey))
  else if sub = 3 then some d.sec.deviceCert
  else if sub = 4 then some d.sec.aliasCert
  else if sub = 5 then some (fitBytes 256 f.keyDigests)
  else if sub = 6 then some (toBytes f.keysRevoked 1)
  else if sub = 7 then some (toBytes f.svnFloor 1)
  else none

def Dev.firmwareValue (d : Dev) (sub : Nat) : Option (List Byte) :=
  if sub = 1 then some (toBytes (b2n d.sec.slotInForce) 1)
  else if sub = 2 then some (d.slotRead false 0 128)
  else if sub = 3 then some (d.slotRead true 0 128)
  else none

/-! Measurements. -/

/-- MEAS_VALUE, MEAS_MIN, MEAS_MAX of the point selected, and MEAS_ALL (R553). -/
def Dev.measValue (d : Dev) (sub : Nat) : Option (List Byte) :=
  let x := d.point (d.get kMeasSel)
  let seen := fun (v : Nat) => if x.valid then v else nanBits
  if sub = 2 then some (toBytes (seen x.value) 4)
  else if sub = 3 then some (toBytes (seen x.min) 4)
  else if sub = 4 then some (toBytes (seen x.max) 4)
  else if sub = 5 then some (points.flatMap (fun pt => toBytes (d.measRecord pt) 8))
  else none

/-- V_IN to T_DIE_MAX (R553). -/
def Dev.readingValue (d : Dev) (sub : Nat) : Option (List Byte) :=
  let give := fun (v : Option Nat) => some (toBytes (readingOr v) 4)
  if sub = 1 then give (d.reading 1)
  else if sub = 2 then give (d.reading 2)
  else if sub = 3 then give (d.reading 3)
  else if sub = 4 then give (d.highest [0x10, 0x11])
  else if sub = 5 then give (d.reading 0x12)
  else if sub = 6 then give (if d.notEvaluated 0x13 then none else d.reading 0x13)
  else if sub = 7 then give (d.highest (points.filter isDie))
  else none

/-! Every entry. -/

/-- The entries of a chain: its engine's index and the two subindex groups that are computed. -/
def Dev.chainValue (d : Dev) (index sub : Nat) : Option (List Byte) :=
  let k := fun (c : Nat) => chainOf ((index - 0x6400) / 256) ((index - 0x6400) % 256) c
  if 13 ≤ sub ∧ sub ≤ 16 then some (toBytes (d.chainCode (k (sub - 13))) 1)
  else if 17 ≤ sub ∧ sub ≤ 20 then some (toBytes (d.chainDone (k (sub - 17))) 4)
  else none

/-- Entries whose value is computed from the state of a unit, beside those of chains. -/
def Dev.unitValue (d : Dev) (f : Fuses) (index sub : Nat) : Option (List Byte) :=
  if among index 0x6240 16 then
    if 34 ≤ sub ∧ sub ≤ 41 then some (toBytes (d.chanBits (index - 0x6240) (sub - 34)) 8) else none
  else if among index 0x6300 4 then
    if sub = 1 then some (d.tallyMapBytes (index - 0x6300))
    else if 4 ≤ sub ∧ sub ≤ 6 then some (d.peekBytes (index - 0x6300) sub)
    else none
  else if among index 0x7010 4 then if sub = 7 then some (toBytes (d.mirrorState (index - 0x7010)) 1) else none
  else if among index 0x7040 4 then if sub = 11 then some (toBytes (d.scaleExp (index - 0x7040)) 1) else none
  else if among index 0x7050 4 then some (d.collectiveBytes (index - 0x7050) (sub - 1))
  else if among index 0x4010 12 then if sub = 1 then some (d.channelBytes (index - 0x4010)) else none
  else if among index 0x4300 12 then if sub = 6 then some (d.tgBytes (index - 0x4300)) else none
  else if index = 0x4000 then d.memoryValue sub
  else if index = 0x5100 then
    if sub = 1 then some d.routeBytes else if sub = 3 then some (toBytes (d.route (d.get kRouteSel)) 4) else none
  else if index = 0x6105 then some ((List.range 96).flatMap (fun b => toBytes (d.lastProof b) 4))
  else if index = 0x6120 then some (toBytes (d.faceRepair f (sub - 1)) 4)
  else none

/-- Entries whose value is computed from the state of the module as a whole. -/
def Dev.moduleValue (d : Dev) (f : Fuses) (index sub : Nat) : Option (List Byte) :=
  if index = 0x1000 then Dev.identityValue f sub
  else if index = 0x1010 then
    if sub = 3 then some f.mac else if sub = 4 then some (toBytes f.linkLocal 16).reverse else none
  else if index = 0x2000 then if sub = 2 then some (toBytes d.time 8) else none
  else if index = 0x3000 then if sub = 2 then some d.warningPoints else if sub = 3 then some limitsBytes else none
  else if index = 0x8000 then d.securityValue f sub
  else if index = 0x8010 then d.firmwareValue sub
  else if index = 0x8020 then if sub = 2 then some d.sec.report else none
  else if index = 0x8030 then if sub = 6 then some (toBytes f.refuses 1) else none
  else if index = 0x9000 then d.measValue sub
  else if index = 0x9001 then d.readingValue sub
  else if index = 0xA000 then
    if sub = 3 then some (toBytes (d.selectedRecord.getD 0) 128) else if sub = 4 then some d.logBytes else none
  else if index = 0xA010 then if sub = 5 then some ((d.selectedCapture.map Capture.bytes).getD []) else none
  else none

def Dev.computed (d : Dev) (f : Fuses) (index sub : Nat) : Option (List Byte) :=
  if 0x6400 ≤ index ∧ index < 0x6800 then d.chainValue index sub
  else match d.moduleValue f index sub with
    | some v => some v
    | none => d.unitValue f index sub

/-- What a read of an entry returns (R19, R455, R458, R459): the highest subindex at subindex 0, zeros of a WO entry's size,
the computed value, or the value kept in the dictionary. -/
def Dev.valueOf (d : Dev) (f : Fuses) (index sub : Nat) : List Byte :=
  if sub = 0 then toBytes (topSub index) 1
  else match cardAt index sub with
    | none => []
    | some c =>
      if c.acc = .wo then List.replicate c.ty.size 0#8
      else match d.computed f index sub with
        | some v => v
        | none => toBytes (d.get (key index sub)) c.ty.size

end Sys2Proof.Machine
end

