-- ==== Sys2Proof/Machine/Checks.lean ====
section
/-! DEFINITION. The checks of a read and of a write in the order of R459, with the refusals that the rules of every chapter
give their entries. -/

namespace Sys2Proof.Machine

/-! Existence and service (steps 2 and 6). -/

def abNoIndex : Nat := abortCode 0x0201 0
def abReadOnly : Nat := abortCode 0x0203 0

/-- The weighbridge serves the dictionary: from the end of stage 3, in recovery and when halted (R490, R495, R502). -/
def Dev.served (d : Dev) : Bool := decide (bsWeighbridge < d.bootStage)

/-- Indices served while MODULE_STATE is BOOTING (R495). -/
def bootIndex (i : Nat) : Bool :=
  decide (i = 0x1000) || decide (i = 0x1010) || decide (i = 0x1030) || decide (i = 0x2000) || among i 0x3000 0x1000 ||
  among i 0x8000 0x1000 || among i 0x9000 0x30 || decide (i = 0xA000)

/-- Indices that the recovery service serves (R502). -/
def recoveryIndex (i : Nat) : Bool :=
  decide (i = 0x1000) || decide (i = 0x1010) || decide (i = 0x2000) || among i 0x8000 0x31 || decide (i = 0xA000)

/-- What may be written in recovery: staging, FW_INSTALL and the choice of the record to read (R502; DEDUCED, log 60). -/
def recoveryKeys : List Nat := [kFwStageOffset, kFwStageData, kFwInstall, kFaultSel]

/-- Step 2. -/
def Dev.missing (d : Dev) (index sub : Nat) : Option Nat :=
  if d.bootStage = bsRecovery ∧ recoveryIndex index = false then some abNoIndex
  else if topSub index = 0 then some abNoIndex
  else if sub ≠ 0 ∧ cardAt index sub = none then some (abortCode 0x0202 (topSub index))
  else none

/-- Step 6 of reads and writes while BOOTING (R495). -/
def Dev.bootRefused (d : Dev) (index : Nat) : Option Nat :=
  if d.get kModuleState = 0 ∧ bootIndex index = false then some abModule else none

/-- The first refusal of a list. -/
def firstSome : List (Option Nat) → Option Nat
  | [] => none
  | some c :: _ => some c
  | none :: l => firstSome l

/-- A read's checks (R459, R453). -/
def Dev.readRefused (d : Dev) (index sub : Nat) : Option Nat :=
  firstSome [d.missing index sub, d.bootRefused index,
    if (index = 0xA000 ∧ sub = 3 ∧ d.selectedRecord.isNone) ∨ (index = 0xA010 ∧ sub = 5 ∧ d.selectedCapture.isNone)
    then some abAvailable else none]

/-! Access and length (steps 3 and 4). -/

/-- Step 3 (R19, R455, R522). -/
def Dev.accessRefused (d : Dev) (host : Bool) (index sub : Nat) : Option Nat :=
  match cardAt index sub with
  | none => some abReadOnly
  | some c =>
    if c.acc = .ro ∨ c.acc = .const then some abReadOnly
    else if d.pathDenied host (key index sub) then some abDenied
    else none

/-- DOMAIN entries that are whole tables: every write gives all of them (DEDUCED, log 56). -/
def wholeTable (index sub : Nat) : Bool :=
  (among index 0x6300 4 && decide (sub = 1)) || (decide (index = 0x5100) && decide (sub = 1)) ||
  (decide (index = 0x5000) && decide (sub = 7))

/-- Step 4 (R456). -/
def lengthRefused (index sub n : Nat) : Option Nat :=
  match cardAt index sub with
  | none => none
  | some c =>
    if c.ty.isDomain = true ∧ wholeTable index sub = false then
      if c.ty.size < n then some (abortCode 0x0204 0xFFFF) else none
    else if n ≠ c.ty.size then some (abortCode 0x0204 (min c.ty.size 0xFFFF))
    else none

/-! The states a write is accepted in (steps 5 and 6). -/

/-- Whose state a write asks about, by the rule of its entry. -/
inductive Gate where
  | free
  | loadable (p : Nat)
  | alloc (p : Nat)
  | awake (p : Nat)
  | allEmpty
  deriving DecidableEq, Repr

/-- Entries of one partition each, in groups of four indices (R80, R122, R210, R226, R242, R300, R313, R353, R394, R398, R448,
R453). -/
def partGate (index sub : Nat) : Gate :=
  if among index 0x6200 4 then .loadable (index - 0x6200)
  else if among index 0x6300 4 then if sub = 3 then .free else .loadable (index - 0x6300)
  else if among index 0x6310 4 then .loadable (index - 0x6310)
  else if among index 0x6330 4 then .loadable (index - 0x6330)
  else if among index 0x4020 4 then if sub = 4 then .awake (index - 0x4020) else .free
  else if among index 0x5020 4 then .loadable (index - 0x5020)
  else if among index 0x6010 4 then
    if 3 ≤ sub ∧ sub ≤ 12 then .alloc (index - 0x6010) else .awake (index - 0x6010)
  else if among index 0x6020 4 then .loadable (index - 0x6020)
  else if among index 0x6110 4 then .loadable (index - 0x6110)
  else if among index 0x7000 4 then if sub = 6 ∨ sub = 10 then .free else .loadable (index - 0x7000)
  else if among index 0x7010 4 then .loadable (index - 0x7010)
  else if among index 0x7020 4 then if sub = 6 then .free else .loadable (index - 0x7020)
  else if among index 0x7030 4 then if sub = 5 then .loadable (index - 0x7030) else .free
  else if among index 0x7040 4 then .loadable (index - 0x7040)
  else if among index 0x7050 4 then .loadable (index - 0x7050)
  else if among index 0xA020 4 then .awake (index - 0xA020)
  else .free

/-- R118, R261, R269, R139, R394, R420, R452, R487 and *Partition entries*. -/
def gateOf (index sub : Nat) : Gate :=
  if 0x6400 ≤ index ∧ index < 0x6800 then .awake ((index - 0x6400) / 256)
  else if index = 0x6030 then .loadable (sub - 1)
  else if index = 0x6104 then .allEmpty
  else if index = 0x7060 then .allEmpty
  else if among index 0x4010 12 then .allEmpty
  else if index = 0xA000 ∧ sub = 6 then .allEmpty
  else if index = 0x1030 ∧ sub = 4 then .allEmpty
  else partGate index sub

def Dev.stateAbort (d : Dev) (p : Nat) : Nat := if d.pState p = psQuiescing then d.abQuiescing p else d.abState p

/-- The first QUIESCING partition, else the first that is not EMPTY. -/
def Dev.notEmpty (d : Dev) : Option Nat :=
  match (List.range 4).find? (fun p => decide (d.pState p = psQuiescing)) with
  | some p => some p
  | none => (List.range 4).find? (fun p => decide (d.pState p ≠ psEmpty))

def Dev.gateRefused (d : Dev) : Gate → Option Nat
  | .free => none
  | .loadable p => if d.emptyOrLoading p then none else some (d.stateAbort p)
  | .alloc p => if d.pState p = psEmpty ∨ d.pState p = psSuspended then none else some (d.stateAbort p)
  | .awake p => if d.pState p = psQuiescing then some (d.abQuiescing p) else none
  | .allEmpty => d.notEmpty.map d.stateAbort

/-! Rules of single entries. Each gives its conditions with their codes, in the order of the steps of R459. -/

abbrev Rules := List (Bool × Nat)

/-- A value that has arrived satisfies a condition; before it has, no check can fail on it. -/
def given (v : Option Nat) (f : Nat → Bool) : Bool :=
  match v with
  | some x => f x
  | none => false

def optRule : Option Nat → Rules
  | some c => [(true, c)]
  | none => []

/-- After an envelope shutdown nothing is loaded, joined, admitted or started (R550). -/
def Dev.shutDown (d : Dev) : Bool := d.env.shutAt.isSome

/-- A reset in progress that acts on a chain. -/
def Dev.resetCovers (d : Dev) (k : ChainId) : Bool :=
  match d.faults.run with
  | none => false
  | some r =>
    decide (r.domain = 4) ||
    ((r.parts.any (fun x => decide (x.1 = k.p.val))) &&
     (decide (r.domain = 3) || (decide (r.domain = 2) && (decide (r.engine = 0xFF) || decide (r.engine = k.e))) ||
      (decide (r.engine = k.e) && decide (r.chain = k.c))))

/-- Chain entries (R139, R122). -/
def Dev.chainRules (d : Dev) (p e sub : Nat) (v : Option Nat) : Rules :=
  if sub ≤ 8 then [(decide (d.chainCode (chainOf p e ((sub - 1) % 4)) ≠ 0), d.abState p)]
  else if 9 ≤ sub ∧ sub ≤ 12 then
    let k := chainOf p e (sub - 9)
    let code := d.chainCode k
    [(given v (fun x => decide (x = 1)) && d.shutDown, abModule),
     (given v (fun x => decide (x = 1)) && (decide (code = 1) || decide (code = 2) || decide (code = 4)), d.abState p),
     (given v (fun x => decide (x = 2)) && (decide (code = 0) || decide (code = 3) || decide (code = 4)), d.abState p),
     (given v (fun x => decide (x = 1)) && isLift k && decide (d.liftCount p e = 0), abConflict),
     (d.resetCovers k, abBusy)]
  else []

def Dev.chanIdle (d : Dev) (h ch : Nat) : Bool :=
  let c := d.chan h ch
  decide (c.state = .idle) && c.cur.isNone && c.queued.isNone && decide (c.owed = [])

/-- The partition of an owner nibble may be reconfigured. -/
def Dev.ownerRule (d : Dev) (q : Nat) : Bool × Nat := (decide (q < 4) && !d.emptyOrLoading q, d.stateAbort q)

/-- HAUL_OWNER (R124). -/
def Dev.ownerRules (d : Dev) (h v : Nat) : Rules :=
  let changed := (List.range 8).filter (fun c => decide (fld v (4 * c + 3) (4 * c) ≠ d.haulOwner h c))
  (changed.flatMap (fun c =>
    [d.ownerRule (d.haulOwner h c), d.ownerRule (fld v (4 * c + 3) (4 * c)),
     (!d.chanIdle h c, if d.haulOwner h c < 4 then d.abState (d.haulOwner h c) else abModule)])) ++
  [((List.range 8).any (fun c => decide (3 < fld v (4 * c + 3) (4 * c)) && decide (fld v (4 * c + 3) (4 * c) ≠ 15)), abRange)]

/-- A power of two. -/
def pow2 (n : Nat) : Bool := decide (n ≠ 0) && decide (n &&& (n - 1) = 0)

/-- Haul entries (R193, R194). -/
def Dev.haulRules (d : Dev) (h sub : Nat) (v : Option Nat) : Rules :=
  if sub ≤ 16 then
    let c := (sub - 1) % 8
    let owner := d.haulOwner h c
    [(decide (3 < owner), abModule),
     d.ownerRule owner,
     (decide ((d.chan h c).state ≠ .idle), d.abState owner),
     (decide (9 ≤ sub) && given v (fun x => !pow2 x), abRange),
     (decide (sub ≤ 8) && given v (fun x => !d.inAlloc owner x (32 * d.get (kHaulCqEntries h c))), abConflict)]
  else if sub ≤ 24 then
    [(given v (fun x =>
        let ahead := (x + 2 ^ 32 - d.get (kHaulCqTail h (sub - 17))) % 2 ^ 32
        decide (1 ≤ ahead) && decide (ahead < 2 ^ 31)), abConflict)]
  else if sub = 33 then
    [(given v (fun x => (List.range 8).any (fun c => bit x c && decide (3 < d.haulOwner h c))), abConflict)]
  else []

/-- LIFT_MAP (R122). -/
def Dev.liftRules (d : Dev) (p i v : Nat) : Rules :=
  let first := fld v 6 0
  let count := fld v 14 8
  [(decide (count ≠ 0) &&
    (decide (d.get (kPartLogicalBenches p) < first + count) ||
     (List.range 16).any (fun j => decide (j ≠ i) && decide (d.liftCount p j ≠ 0) &&
       overlap first count (d.liftFirst p j) (d.liftCount p j))), abConflict)]

/-- Little-endian 16-bit and 32-bit words of a byte string. -/
def halves : List Byte → List Nat
  | a :: b :: l => (a.toNat + 256 * b.toNat) :: halves l
  | _ => []

def quads : List Byte → List Nat
  | a :: b :: c :: e :: l => (a.toNat + 256 * b.toNat + 65536 * c.toNat + 16777216 * e.toNat) :: quads l
  | _ => []

/-- No value twice. -/
def noRepeat : List Nat → Bool
  | [] => true
  | x :: l => !l.contains x && noRepeat l

/-- TALLY_MAP (R210). -/
def Dev.tallyMapRules (d : Dev) (p : Nat) (bs : List Byte) : Rules :=
  let phys := (halves bs).filterMap (fun e => if bit e 15 then some (fld e 13 0) else none)
  [(!noRepeat phys || (List.range 4).any (fun q => decide (q ≠ p) && (d.physOf q).any (fun t => phys.contains t)), abConflict)]

/-- Tally entries (R226, R227). -/
def Dev.tallyRules (d : Dev) (p sub : Nat) (bs : Option (List Byte)) : Rules :=
  if sub = 1 then match bs with | some l => d.tallyMapRules p l | none => []
  else if sub = 2 then [(given (bs.map ofBytes) (fun x => !d.inAlloc p x 2048), abConflict)]
  else []

/-- BARRIER (R226). -/
def Dev.barrierRules (d : Dev) (p slot v : Nat) : Rules :=
  let b := barrierOf v
  [(b.enable && decide (b.expect = 0), abRange),
   (!d.inAlloc p (d.get (kBarrierRecordBase p)) 2048, abConflict),
   (b.enable && (decide (b.leaf = b.release) || !d.mapped p b.leaf || !d.mapped p b.release ||
      (d.barrierSlots p).any (fun i => decide (i ≠ slot) && (d.barrier p i).enable && decide ((d.barrier p i).leaf = b.leaf))), abConflict)]

/-- REMOTE_WINDOW (R300): enabled or not, it lies inside the allocation; one of size 0 reaches nowhere. -/
def Dev.windowRules (d : Dev) (p v : Nat) : Rules :=
  let size := fld v 39 16
  [(bit v 0 && (decide (size = 0) || decide (393216 < size)), abRange),
   (decide (size ≠ 0) && !d.inAlloc p (fld v 63 40 * 2 ^ 20) (size * 2 ^ 20), abConflict)]

/-- GRADER (R353). -/
def Dev.graderRules (d : Dev) (p g v : Nat) : Rules :=
  let e := graderOf v
  [(e.enable &&
    (decide (e.tswHi < e.tswLo) || decide (e.expect = 0) || !d.mapped p e.release ||
     decide (e.decision % 8 ≠ 0) || !d.inAlloc p e.decision 8 || decide (e.recordAt % 32 ≠ 0) || !d.inAlloc p e.recordAt 32 ||
     (List.range 64).any (fun i => decide (i ≠ g) && (d.graderEntry p i).enable && decide ((d.graderEntry p i).lift = e.lift) &&
       decide (e.tswLo ≤ (d.graderEntry p i).tswHi) && decide ((d.graderEntry p i).tswLo ≤ e.tswHi))), abConflict)]

/-- COLLECTIVE (R352, R353): Q, 2 reserved bytes and Q chips. -/
def Dev.collectiveRules (d : Dev) (bs : List Byte) : Rules :=
  let q := ofBytes (bs.take 2)
  let chips := halves (bs.drop 4)
  [(decide (q ≠ 0) && (decide (0 < bs.length)) &&
    (!chips.contains d.chip || !noRepeat chips || chips.contains 0xFFFF), abConflict)]

/-- Loss-scale exponents of a partition with one of them replaced (R353). -/
def Dev.scaleRules (d : Dev) (p sub v : Nat) : Rules :=
  let e := fun (i : Nat) => signed 8 (if i = sub then v else d.get (key (0x7040 + p) i))
  [(!(decide (e 5 ≤ e 4) && decide (e 4 ≤ e 6)), abConflict)]

/-- Training entries (R352, R353). -/
def Dev.trainRules (d : Dev) (p sub : Nat) (v : Option Nat) : Rules :=
  if sub = 1 then [(given v (fun x => !d.inAlloc p x 64), abConflict)]
  else if sub = 2 then [(decide (d.get (kStepBlockAddr p) = 0), abConflict)]
  else if 4 ≤ sub ∧ sub ≤ 6 then match v with | some x => d.scaleRules p sub x | none => []
  else []

/-- Vote entries (R361, R394). -/
def Dev.voteRules (d : Dev) (p sub : Nat) (v : Option Nat) : Rules :=
  if sub = 1 then [(given v (fun x => !(d.barrier p x).enable || decide ((d.barrier p x).expect ≠ 1)), abConflict)]
  else if sub = 6 then [(given v (fun x => d.abandonRefused p x), abConflict)]
  else []

/-- Stockpile and mirror entries (R394). -/
def Dev.stockRules (d : Dev) (p sub : Nat) (v : Option Nat) : Rules :=
  if sub = 1 then [(given v (fun x => !d.inAlloc p x (max 1 (3 * d.get (kStockpileSlotBytes p)))), abConflict)]
  else if sub = 3 then [(given v (fun x => decide (4095 < x)), abRange), (given v (fun x => !d.mapped p x), abConflict)]
  else if sub = 6 then [(given v (fun x => decide (x < d.get (kStockpileSlotBytes p) + 64)), abConflict)]
  else if sub = 8 then [(given v (fun x => !d.windowOk p x 4096 2), abConflict)]
  else if sub = 9 then [(given v (fun x => decide (x ≠ 0xFFFF) && decide (x = d.chip)), abConflict)]
  else []

/-- Checkpoint entries (R383, R385). -/
def Dev.ckptRules (d : Dev) (p sub : Nat) (v : Option Nat) : Rules :=
  if sub ≤ 4 then
    [((d.bed p).ckpt.isSome, d.abState p),
     (decide (sub = 4) && given v (fun x => decide (x % 4096 ≠ 0) || decide (x < areaNeeded (d.bed p).regions)), abRange)]
  else []

/-- Partition entries (R398, R399, R411, R413, R550). -/
def Dev.partRules (d : Dev) (p sub : Nat) (v : Option Nat) : Rules :=
  if sub = 2 then
    [(d.shutDown, abModule),
     (given v (fun x => decide (x = 1)) && decide (d.pState p ≠ psEmpty), d.abState p),
     (given v (fun x => decide (x = 2)) && d.admissionRefused p, d.abState p),
     (given v (fun x => decide (x = 1)) && !d.allocOk p false, abConflict)]
  else if sub = 5 then [(given v (fun x => decide (x = 3)), abRange)]
  else if sub = 11 then [(given v (fun x => decide (d.bedPositions < x)), abRange)]
  else []

/-- Memory entries of a partition (R242, R274). -/
def Dev.shareRules (d : Dev) (p sub v : Nat) : Rules :=
  if sub = 1 then
    [(decide (256 < v + ((List.range 4).filter (fun q => decide (q ≠ p))).foldl (fun a q => a + d.get (kMemShare q)) 0), abConflict)]
  else if sub = 4 then [(decide (v ≠ 0) && !d.inAlloc p v 196608, abConflict)]
  else []

/-- Traffic-generator entries (R270, R273, R274). -/
def Dev.tgRules (d : Dev) (s sub : Nat) (v : Option Nat) : Rules :=
  if sub = 5 then
    [(given v (fun x => decide (x = 1)) && d.shutDown, abModule),
     (given v (fun x => decide (x = 1)) && !d.tgMayStart s, (d.notEmpty.map d.stateAbort).getD abModule),
     (given v (fun x => decide (x = 1)) && d.tgRuns s, abBusy)]
  else
    [(decide (sub = 2) && given v tgConfigBad, abRange),
     (decide (sub = 3) && given v (fun x => decide (x = 0)) && decide ((tgConfigOf (d.get (kTgConfig s))).pattern = 4), abConflict),
     (d.tgRuns s, abBusy)]

/-- Stack entries (R261, R269). -/
def Dev.stackRules (d : Dev) (s sub : Nat) : Rules :=
  if sub = 7 then [(!d.reliefClearable s, abModule)] else if sub = 6 then [(d.shutDown, abModule)] else []

/-- PART_JOIN (R312) and PART_REBIND (R313). -/
def Dev.joinRules (d : Dev) (f : Fuses) (p sub : Nat) (v : Option Nat) : Rules :=
  if sub = 1 then
    let status := match v with | some x => d.joinStatus f p x | none => 1
    [(d.shutDown, abModule),
     (decide (status = 7), d.stateAbort p),
     (decide (status = 6), abModule),
     (decide (status = 2) || (decide (status = 3) && given v (fun x => decide ((joinOf x).mpart = 0 ∨ (joinOf x).mpart = 0xFFFF))), abRange),
     (decide (3 ≤ status) && decide (status ≤ 5), abConflict)]
  else if sub = 5 then optRule (v.bind (fun x => d.rebindRefused p x))
  else []

/-- Fabric entries (R287, R301, R316, R382). -/
def Dev.fabricRules (d : Dev) (sub : Nat) (v : Option Nat) : Rules :=
  if sub = 3 then [(given v (fun x => decide (x ≠ 0xFFFF) && decide (x = d.get kChipNumber)), abConflict)]
  else if sub = 4 then
    [(given v (fun x => decide (64 < fld x 15 8) || decide (max 1 (fld x 15 8) ≤ fld x 7 0)), abRange)]
  else if sub = 8 then optRule d.commitRefused
  else []

/-- CREDIT_SPLIT (R287): each reserve at least 65; the sum is checked where CREDIT_SHARED is written (DEDUCED, log 71). -/
def Dev.creditRules (d : Dev) (sub v : Nat) : Rules :=
  if sub ≤ 4 then [(decide (v < 65), abRange)]
  else [(decide (v + ((List.range 4).foldl (fun a i => a + d.get (kCreditReserve i)) 0) ≠ 8192), abConflict)]

/-- Hang and proof entries (R452). -/
def Dev.hangRules (d : Dev) (p sub v : Nat) : Rules :=
  if sub = 3 then [(bit v 15 && !d.mapped p (fld v 11 0), abConflict)] else []

def Dev.proofRules (d : Dev) (p sub v : Nat) : Rules :=
  if sub = 2 then [(decide (v ≠ 0) && !d.inAlloc p v 2097152, abConflict)] else []

/-- Bench entries (R118, R119); the logical bench count is the largest staged (DEDUCED, log 72). BENCH_UNFENCE of a bench with an
UNREPAIRED face is refused with VALUE_CONFLICT: the spec says "an abort code" and not which (DESIGN CHOICE, log 141). -/
def Dev.benchRules (d : Dev) (sub v : Nat) : Rules :=
  if sub = 1 then
    [(decide (96 - ((List.range 4).map (fun p => d.get (kPartLogicalBenches p))).foldl max 0 < popcount v 96), abRange)]
  else if sub = 3 then [(d.unrepairedBench v, abConflict)]
  else []

/-- Firmware entries (R506 to R508, R523). -/
def Dev.firmwareRules (d : Dev) (sub : Nat) (v : Option Nat) (n : Nat) : Rules :=
  if sub = 5 then
    [(d.stageLocked, abModule), (decide (imageSlotBytes < d.get kFwStageOffset + n), abConflict)]
  else if sub = 6 then
    [(d.stageLocked || decide (d.bootStage ≠ bsDone), abModule),
     (given v (fun x => decide (d.workingBytes ≤ x)), abRange),
     (given v (fun x => !d.stageFits x), abConflict)]
  else if sub = 7 then [(!d.sec.staged, abModule)]
  else if sub = 10 then [(decide (d.get kFwState ≠ fwTrial), abModule)]
  else []

/-- RETAINED_ADOPT (R447). -/
def Dev.retainedRules (d : Dev) (p : Nat) : Rules := [(!d.loading p, d.abState p), (!d.adoptable p, abConflict)]

/-- A link-local address, or all zeros (R487, R488). -/
def targetOk (v : Nat) : Bool := decide (v = 0) || (decide (fld v 7 0 = 0xFE) && decide (fld v 15 14 = 2))

/-- FLOW_HEAT_CAPACITY lies from 3,600 to 4,200 (R552, R554). -/
def heatOk (v : Nat) : Bool :=
  decide (fld v 30 23 ≠ 255) && !fpLt v (ratio 3600 1) && !fpLt (ratio 4200 1) v

/-- CAPTURE_BASE (R452). -/
def Dev.captureRules (d : Dev) (sub v : Nat) : Rules :=
  if sub = 3 then [(decide (v ≠ 0) && (decide (v % 196608 ≠ 0) || decide (d.workingBytes < v + 13 * 2 ^ 20)), abRange)] else []

def withValue (v : Option Nat) (r : Nat → Rules) : Rules := match v with | some x => r x | none => []

/-- Rules of the entries that belong to the module as a whole. -/
def Dev.moduleRules (d : Dev) (f : Fuses) (index sub : Nat) (bs : Option (List Byte)) : Rules :=
  let v := bs.map ofBytes
  if index = 0x1010 then if sub = 6 then [(given v (fun x => !targetOk x), abRange)] else []
  else if index = 0x2010 then
    if sub = 1 then
      (given v (fun x => decide ((shiftReqOf x).action = 4)) && d.shutDown, abModule) :: optRule (v.bind d.shiftRefused)
    else [(given v (fun x => decide (x < 4) && !d.confirmable x), (v.map d.abState).getD 0)]
  else if index = 0x2020 then optRule (v.bind d.resetRefused)
  else if index = 0x2040 then [(given v (fun x => decide (d.workingBytes ≤ x)), abRange)]
  else if index = 0x3000 then if sub = 5 then [(given v (fun x => !heatOk x), abRange)] else []
  else if index = 0x5000 then d.fabricRules sub v
  else if index = 0x5001 then withValue v (d.creditRules sub)
  else if index = 0x6030 then [(given v (fun x => decide (x = 0) || decide (31 < x) || !bit f.levels x), abRange)]
  else if index = 0x6104 then withValue v (d.benchRules sub)
  else if index = 0x6210 then withValue v (d.ownerRules (sub - 1))
  else if index = 0x8010 then d.firmwareRules sub v ((bs.map List.length).getD 0)
  else if index = 0x8030 then
    match bs with
    | some l => if sub = 3 then optRule (d.tokenRefused f 1 l) else if sub = 5 then optRule (d.tokenRefused f 2 l) else []
    | none => if sub = 5 then [(!d.allEmpty, abModule)] else []
  else if index = 0x9000 then [(given v (fun x => !isPoint x), abRange)]
  else if index = 0xA010 then withValue v (d.captureRules sub)
  else []

/-- Rules of the entries of a partition, a chain, a channel or a stack. -/
def Dev.unitRules (d : Dev) (f : Fuses) (index sub : Nat) (bs : Option (List Byte)) : Rules :=
  let v := bs.map ofBytes
  if 0x6400 ≤ index ∧ index < 0x6800 then d.chainRules ((index - 0x6400) / 256) ((index - 0x6400) % 256) sub v
  else if among index 0x6240 16 then d.haulRules (index - 0x6240) sub v
  else if among index 0x6200 4 then withValue v (d.liftRules (index - 0x6200) (sub - 1))
  else if among index 0x6300 4 then d.tallyRules (index - 0x6300) sub bs
  else if among index 0x6310 4 then withValue v (d.barrierRules (index - 0x6310) (sub - 1))
  else if among index 0x6330 4 then withValue v (d.graderRules (index - 0x6330) (sub - 1))
  else if among index 0x4010 12 then d.stackRules (index - 0x4010) sub
  else if among index 0x4020 4 then withValue v (d.shareRules (index - 0x4020) sub)
  else if among index 0x4300 12 then d.tgRules (index - 0x4300) sub v
  else if among index 0x5020 4 then withValue v (d.windowRules (index - 0x5020))
  else if among index 0x5030 4 then d.joinRules f (index - 0x5030) sub v
  else if among index 0x6010 4 then d.partRules (index - 0x6010) sub v
  else if among index 0x6020 4 then withValue v (d.hangRules (index - 0x6020) sub)
  else if among index 0x6110 4 then withValue v (d.proofRules (index - 0x6110) sub)
  else if among index 0x7000 4 then d.voteRules (index - 0x7000) sub v
  else if among index 0x7010 4 then d.stockRules (index - 0x7010) sub v
  else if among index 0x7030 4 then d.ckptRules (index - 0x7030) sub v
  else if among index 0x7040 4 then d.trainRules (index - 0x7040) sub v
  else if among index 0x7050 4 then match bs with | some l => d.collectiveRules l | none => []
  else if among index 0xA020 4 then d.retainedRules (index - 0xA020)
  else d.moduleRules f index sub bs

/-- The first failing rule whose code is of one of the classes given. -/
def pick (classes : List Nat) : Rules → Option Nat
  | [] => none
  | (bad, code) :: l => if bad && classes.contains (code / 65536) then some code else pick classes l

/-! Reserved bits and ranges (steps 7 and 8). -/

/-- Reserved bits of the fixed-size entries whose rule gives a field map (R16). -/
def reservedMask (index sub : Nat) : Nat :=
  if among index 0x6200 4 then 0x8080
  else if among index 0x6310 4 then 7
  else if among index 0x5020 4 then 0xFFF8
  else if index = 0x5100 ∧ sub = 3 then 0x3FFF0000
  else if index = 0x2010 ∧ sub = 1 then 0xFFF0F00C
  else if index = 0x2020 then 0xFFF000E0
  else if among index 0x5030 4 ∧ sub = 1 then (2 ^ 128 - 2 ^ 64) + 0xFF
  else if among index 0x6330 4 then 15 * 2 ^ 247 + (2 ^ 59 - 1)
  else if among index 0x4300 12 ∧ sub = 2 then 3 * 2 ^ 54 + 0x3FF
  else if among index 0x7020 4 ∧ sub = 3 then 0xF0
  else if index = 0x5000 ∧ sub = 7 then (List.range 16).foldl (fun a i => a + 0xFFFFFFF * 2 ^ (128 * i)) 0
  else 0

/-- The lowest reserved bit set in a value. -/
def reservedSet (c : Card) (index sub : Nat) (bs : List Byte) : Option Nat :=
  if among index 0x6300 4 ∧ sub = 1 then
    ((halves bs).zipIdx.find? (fun x => bit x.1 14)).map (fun x => 16 * x.2 + 14)
  else if index = 0x5100 ∧ sub = 1 then
    ((quads bs).zipIdx.find? (fun x => decide (fld x.1 29 16 ≠ 0))).map (fun x => 32 * x.2 + 16 + (lowestBit (fld x.1 29 16) 14).getD 0)
  else if among index 0x7050 4 then (lowestBit (ofBytes ((bs.drop 2).take 2)) 16).map (fun i => 16 + i)
  else if c.ty.isDomain = true ∧ wholeTable index sub = false then none
  else lowestBit (ofBytes bs &&& (c.rsv ||| reservedMask index sub)) (8 * c.ty.size)

def reservedRefused (c : Card) (index sub : Nat) (bs : List Byte) : Option Nat :=
  (reservedSet c index sub bs).map (fun i => abortCode 0x0302 (if i ≤ 65534 then i else 0xFFFF))

/-- The numeric range and the multiple of the card (R456). -/
def cardRange (c : Card) (bs : List Byte) : Bool :=
  let v := ofBytes bs
  match c.ty with
  | .bool => decide (v ≤ 1)
  | .int n => decide (c.lo ≤ signed (8 * n) v) && decide (signed (8 * n) v ≤ c.hi)
  | .uint _ => decide (c.lo ≤ v) && decide (v ≤ c.hi) && decide (v % c.mult = 0)
  | _ => true

/-- A COLLECTIVE list whose bytes are not those its Q announces has the wrong length (R352). -/
def listLength (index : Nat) (bs : List Byte) : Option Nat :=
  if among index 0x7050 4 ∧ bs ≠ [] then
    if ofBytes (bs.take 2) = 0 then none
    else if bs.length ≠ 4 + 2 * ofBytes (bs.take 2) then some (abortCode 0x0204 0xFFFF) else none
  else none

/-! The whole of R459. -/

/-- Steps 2 to 4 for a write of `n` bytes. -/
def Dev.formRefused (d : Dev) (host : Bool) (index sub n : Nat) : Option Nat :=
  firstSome [d.missing index sub, d.accessRefused host index sub, lengthRefused index sub n]

/-- Steps 5 and 6, with the value where it has arrived. -/
def Dev.stateRefused (d : Dev) (f : Fuses) (index sub : Nat) (bs : Option (List Byte)) : Option Nat :=
  let gate := d.gateRefused (gateOf index sub)
  firstSome [
    if gate.map (fun c => c / 65536) = some 0x0402 then gate else none,
    d.bootRefused index,
    if d.bootStage = bsRecovery ∧ recoveryKeys.contains (key index sub) = false then some abModule else none,
    gate,
    pick [0x0402, 0x0401] (d.unitRules f index sub bs)]

/-- The checks of R459 at the opening of a segmented write (R471). -/
def Dev.openRefused (d : Dev) (f : Fuses) (host : Bool) (index sub n : Nat) : Option Nat :=
  firstSome [d.formRefused host index sub n, d.stateRefused f index sub none]

/-- A write's checks, all of them, in the order of R459; a token that does not verify fails as access does (log 53). -/
def Dev.writeRefused (d : Dev) (f : Fuses) (host : Bool) (index sub : Nat) (bs : List Byte) : Option Nat :=
  match cardAt index sub with
  | none => d.formRefused host index sub bs.length
  | some c =>
    firstSome [
      d.formRefused host index sub bs.length,
      listLength index bs,
      pick [0x0501] (d.unitRules f index sub (some bs)),
      d.stateRefused f index sub (some bs),
      reservedRefused c index sub bs,
      pick [0x0302] (d.unitRules f index sub (some bs)),
      if cardRange c bs then none else some abRange,
      pick [0x0301] (d.unitRules f index sub (some bs)),
      pick [0x0303] (d.unitRules f index sub (some bs)),
      pick [0x0403] (d.unitRules f index sub (some bs))]

end Sys2Proof.Machine
end

