-- ==== Sys2Proof/Machine/Apply.lean ====
section
/-! DEFINITION. What an accepted write does, entry by entry, and what a refused one leaves (R312, R378, R512). -/

namespace Sys2Proof.Machine

/-! Chains (R138, R139, R161). -/

/-- START from IDLE: every unit of the chain reads from CHAIN_HEAD with CHAIN_SEQ0. CHAIN_DONE_SEQ stays until each has reported
a word (R141). -/
def Dev.startChain (d : Dev) (k : ChainId) : Dev :=
  let done := d.chainDone k
  let head := d.get (kChainHead k.p k.e k.c)
  let seq := d.get (kChainSeq0 k.p k.e k.c)
  let d := { d with seqs := { d.seqs with
    taken := SMap.set (1000, 60000000000) d.seqs.taken (chainIx k)
      (d.get (kPollInterval k.p k.e), d.get (kWaitTimeoutDefault k.p k.e)) } }
  (List.range (d.unitsOf k)).foldl (fun d u =>
    d.setCursor k u { Cursor.idle with state := .running, pos := head, expSeq := seq, doneSeq := done }) d

/-- START from HALTED: from the held position; at a LINK word the word is read again. -/
def Dev.resumeChain (d : Dev) (k : ChainId) : Dev :=
  (List.range (d.unitsOf k)).foldl (fun d u =>
    let c := d.cursor k u
    if c.state ≠ .halted then d
    else if c.atLink then (d.setCursor k u { c with state := .polling, polledAt := d.time }).rereadLink k u
    else d.setCursor k u { c with state := .running }) d

/-- HALT takes effect at the next LINK word with the segment complete. -/
def Dev.haltChain (d : Dev) (k : ChainId) : Dev :=
  (List.range (d.unitsOf k)).foldl (fun d u =>
    let c := d.cursor k u
    if c.state = .running ∨ c.state = .polling then (d.setCursor k u { c with haltReq := true }).haltCheck k u else d) d

def Dev.writeChainCtrl (d : Dev) (k : ChainId) (v : Nat) : Dev :=
  if v = 1 then if d.chainCode k = 0 then d.startChain k else d.resumeChain k else d.haltChain k

/-! Haul. -/

/-- HAUL_OWNER: at a change of owner REC_SEQ restarts and the spill entry is emptied (R179, R191). -/
def Dev.writeOwner (d : Dev) (h v : Nat) : Dev :=
  let changed := (List.range 8).filter (fun c => decide (fld v (4 * c + 3) (4 * c) ≠ d.haulOwner h c))
  changed.foldl (fun d c => (d.put (kHaulCqTail h c) 0).put (kHaulCqSpill h c) 0) (d.put (kHaulOwner h) v)

def Dev.writeHaul (d : Dev) (h sub v : Nat) : Dev :=
  if 17 ≤ sub ∧ sub ≤ 24 then d.writeCqHead h (sub - 17) v
  else if sub = 33 then d.writePause h v
  else d.put (key (0x6240 + h) sub) v

/-! Tallies. -/

/-- TALLY_MAP: the table is replaced, and every tally it maps cleared with the partition's waiters (R210, R213). -/
def Dev.writeTallyMap (d : Dev) (p : Nat) (bs : List Byte) : Dev :=
  let es := (halves bs).zipIdx
  let d := { d with tallies := { d.tallies with
    map := es.foldl (fun (m : SMap Nat) (x : Nat × Nat) => SMap.set (32768 + (4096 * p + x.2)) m (4096 * p + x.2) x.1) d.tallies.map } }
  d.clearTallies p false

def Dev.writeBarrier (d : Dev) (p slot v : Nat) : Dev := (d.put (kBarrier p slot) v).agentLook p slot

/-! Fabric and training. -/

def Dev.setRoute (d : Dev) (chip v : Nat) : Dev :=
  { d with fabric := { d.fabric with routes := SMap.set 0xC000FFFF d.fabric.routes chip v } }

def Dev.writeRoutes (d : Dev) (bs : List Byte) : Dev := (quads bs).zipIdx.foldl (fun d x => d.setRoute x.2 x.1) d

def Dev.setCollective (d : Dev) (p i : Nat) (bs : List Byte) : Dev :=
  { d with training := { d.training with collectives := SMap.set [] d.training.collectives (16 * p + i) (halves (bs.drop 4)) } }

/-- PART_JOIN and PART_REBIND. -/
def Dev.writeJoin (d : Dev) (p sub v : Nat) : Dev := if sub = 1 then d.bindPart p v else d.rebind p v

/-- Entries of 0x7000 whose write starts something: STEP_ABANDON, CKPT_REQUEST with cause HOST_REQUEST (R361, R380, R419). -/
def Dev.writeVote (d : Dev) (p sub v : Nat) : Dev :=
  if sub = 6 then d.abandonVote p
  else if sub = 10 then d.ckptWarn (atPart p) 9 0
  else d.put (key (0x7000 + p) sub) v

/-! The module. -/

/-- An entry of the CONFIG area is put and committed, or held (R484). -/
def Dev.putStored (d : Dev) (k v : Nat) : Dev := if inConfig k then (d.put k v).stored else d.put k v

def Dev.writeFirmware (d : Dev) (f : Fuses) (sub : Nat) (bs : List Byte) : Dev :=
  if sub = 5 then d.stageData bs
  else if sub = 6 then d.stageFrom (ofBytes bs)
  else if sub = 7 then d.install f
  else d.put (key 0x8010 sub) (ofBytes bs)

def Dev.writeTg (d : Dev) (s sub v : Nat) : Dev :=
  if sub = 5 then if v = 1 then d.tgStart s else d.tgStop s else d.put (key (0x4300 + s) sub) v

/-- CONFIG_DEFAULTS (R487): a port that PORT_DISABLE held starts link training (*Fabric entries*). -/
def Dev.restoreDefaults (d : Dev) : Dev :=
  (List.range 16).foldl (fun e n => if d.get (kPortDisable n) = 1 then e.startTraining n else e) d.configDefaults

/-- Entries of the module as a whole whose write does more than take the value. -/
def Dev.applyModule (d : Dev) (f : Fuses) (index sub : Nat) (bs : List Byte) : Dev :=
  let v := ofBytes bs
  if index = 0x1030 then if sub = 3 then d.writeHold v else d.restoreDefaults
  else if index = 0x2010 then if sub = 1 then d.shift v else d.release v
  else if index = 0x2020 then d.requestReset v
  else if index = 0x5000 ∧ sub = 8 then d.commitCoords
  else if index = 0x5100 then if sub = 1 then d.writeRoutes bs else if sub = 3 then d.setRoute (d.get kRouteSel) v else d.put kRouteSel v
  else if index = 0x6104 then if sub = 1 then ((d.put kBenchSpareMask v).updateUsable).stored else d.unfence v
  else if index = 0x6210 then d.writeOwner (sub - 1) v
  else if index = 0x8010 then d.writeFirmware f sub bs
  else if index = 0x8020 then d.attest f v
  else if index = 0x8030 then if sub = 3 then d.armToken bs else d.unlockDebug bs
  else if index = 0xA000 ∧ sub = 6 then d.clearLog
  else if index = 0xA010 ∧ sub = 6 then d.capture 0 0 0xFF 0
  else d.putStored (key index sub) v

/-- Entries of a partition, a chain, a channel, a stack or a port whose write does more than take the value. -/
def Dev.applyUnit (d : Dev) (f : Fuses) (index sub : Nat) (bs : List Byte) : Dev :=
  let v := ofBytes bs
  if 0x6400 ≤ index ∧ index < 0x6800 ∧ 9 ≤ sub ∧ sub ≤ 12 then
    d.writeChainCtrl (chainOf ((index - 0x6400) / 256) ((index - 0x6400) % 256) (sub - 9)) v
  else if among index 0x6240 16 then d.writeHaul (index - 0x6240) sub v
  else if among index 0x6300 4 ∧ sub = 1 then d.writeTallyMap (index - 0x6300) bs
  else if among index 0x6300 4 ∧ sub = 3 then d.takePeek (index - 0x6300) v
  else if among index 0x6310 4 then d.writeBarrier (index - 0x6310) (sub - 1) v
  else if among index 0x4010 12 then if sub = 6 then d.retrain (12 * v + (index - 0x4010)) else d.reliefClear (index - 0x4010)
  else if among index 0x4300 12 then d.writeTg (index - 0x4300) sub v
  else if among index 0x5010 16 then (d.setDisable (index - 0x5010) v).stored
  else if among index 0x5030 4 then d.writeJoin (index - 0x5030) sub v
  else if among index 0x6010 4 ∧ sub = 2 then if v = 1 then d.loadPart (index - 0x6010) else d.admitPart (index - 0x6010)
  else if among index 0x7000 4 then d.writeVote (index - 0x7000) sub v
  else if among index 0x7020 4 ∧ sub = 6 then d.recutRequested (index - 0x7020) v
  else if among index 0x7040 4 ∧ sub = 2 then d.initBlock (index - 0x7040)
  else if among index 0x7050 4 then d.setCollective (index - 0x7050) (sub - 1) bs
  else if among index 0xA020 4 then d.adopt (index - 0xA020)
  else d.applyModule f index sub bs

/-- An accepted write; FW_CONFIRM alone blows fuses. -/
def Dev.applyWrite (d : Dev) (f : Fuses) (index sub : Nat) (bs : List Byte) : Fuses × Dev :=
  if index = 0x8010 ∧ sub = 10 then d.confirm f else (f, d.applyUnit f index sub bs)

/-! What a refusal leaves. -/

/-- A join that *Join refusals* refuses leaves its code and a record; an ADMIT kept out by a digest leaves the record of it; a
token turned away leaves a security event and a fresh challenge (R312, R378, R512, R520). -/
def Dev.refusalEffect (d : Dev) (f : Fuses) (index sub : Nat) (bs : List Byte) (code : Nat) : Dev :=
  if (d.bootRefused index).isSome ∨ d.shutDown then d
  else if among index 0x5030 4 ∧ sub = 1 ∧ bs.length = 16 then
    let p := index - 0x5030
    let status := d.joinStatus f p (ofBytes bs)
    if status = 1 ∨ code / 65536 = 0x0302 then d else d.refuseJoin p (ofBytes bs) status
  else if among index 0x6010 4 ∧ sub = 2 ∧ bs = [2#8] then d.admissionRecord (index - 0x6010)
  else if index = 0x8030 ∧ (sub = 3 ∨ sub = 5) then d.tokenTurnedAway code
  else d

/-- A write that has arrived whole is checked and applied whole (R458, R459): its abort code, none where it is accepted. -/
def Dev.write (d : Dev) (f : Fuses) (host : Bool) (index sub : Nat) (bs : List Byte) : Option Nat × Fuses × Dev :=
  match d.writeRefused f host index sub bs with
  | some code => (some code, f, d.refusalEffect f index sub bs code)
  | none => let r := d.applyWrite f index sub bs; (none, r.1, r.2)

end Sys2Proof.Machine
end

