-- ==== Sys2Proof/Machine/Dictionary.lean ====
section
/-! DEFINITION. The object dictionary's service: Clelliul messages (R466 to R469), the BAR0 mailbox (R476, R477), segmented
transfers (R470 to R472), the rows that write an entry, and notices, expiry and the T1S segment (R463, R464, R473). -/

namespace Sys2Proof.Machine

/-! Requests and their answers. -/

/-- What a request asks, in the fields of *Clelliul header* and of *MBX_CTRL fields*. -/
structure DictReq where
  service : Nat
  index : Nat
  sub : Nat
  segment : Nat
  transfer : Nat
  last : Bool
  data : List Byte
  deriving DecidableEq, Repr

/-- What answers it: an abort code, or a payload with the header's flags. -/
structure DictReply where
  abort : Option Nat
  payload : List Byte
  segmented : Bool
  last : Bool
  transfer : Nat
  deriving DecidableEq, Repr

def replyAbort (code : Nat) : DictReply := { abort := some code, payload := [], segmented := false, last := false, transfer := 0 }

def replyWith (payload : List Byte) : DictReply :=
  { abort := none, payload := payload, segmented := false, last := false, transfer := 0 }

def abUnknown : Nat := abortCode 0x0101 0
def abVersion : Nat := abortCode 0x0102 1

/-- The client of a request; none is the mailbox. -/
def ownerOf : Origin → Option Client
  | .clelliul c _ _ _ _ _ => some c
  | .mailbox => none

def viaHost : Origin → Bool
  | .clelliul .. => false
  | .mailbox => true

/-- Bytes that one message carries: 1,024 by Clelliul, 64 KiB by the mailbox (R466, R477). -/
def messageBytes : Origin → Nat
  | .clelliul .. => 1024
  | .mailbox => 65536

/-! Clelliul (R466 to R468). -/

def requestHeader (kind seq : Nat) (rq : DictReq) : Nat :=
  clHeader kind rq.service seq rq.index rq.sub rq.data.length rq.segment rq.transfer false rq.last

/-- The header of an answer: the fields of the request it answers, with its own kind, length, transfer and flags. -/
def answerHeader (hdr : Nat) (a : Answer) : Nat :=
  clHeader a.kind (fld hdr 111 104) (fld hdr 103 88) (fld hdr 87 72) (fld hdr 71 64) a.payload.length (fld hdr 47 32) a.transfer
    (bit a.flags 1) (bit a.flags 0)

def Dev.sendAnswer (d : Dev) (c : Client) (hdr : Nat) (a : Answer) : Dev := d.sendT1s c (answerHeader hdr a) a.payload

/-- An abort names the transfer of its request, a response the one it opens or that of its request. -/
def DictReply.answer (r : DictReply) (rq : DictReq) : Answer :=
  match r.abort with
  | some code => { kind := 2, payload := toBytes code 4, flags := 0, transfer := rq.transfer }
  | none =>
    { kind := 1, payload := r.payload, flags := 2 * b2n r.segmented + b2n r.last
      transfer := if r.transfer = 0 then rq.transfer else r.transfer }

/-- A client's state takes the place of what was kept; of nine, the one least recently heard goes (R468). -/
def Dev.keepClient (d : Dev) (x : ClientState) : Dev :=
  let l := d.mgmt.clients.filter (fun y => decide (y.c ≠ x.c)) ++ [x]
  { d with mgmt := { d.mgmt with clients := if 8 < l.length then l.drop 1 else l } }

/-- What a client that is not answered by the work of its request is told (R466 to R468): nothing where the datagram is short,
the version where its protocol is another, the kept answer where the request is a duplicate, else that its kind is unknown
(counts: DEDUCED, log 58). -/
def Dev.clelliulAside (d : Dev) (c : Client) (magic version kind seq : Nat) (short : Bool) (rq : DictReq) : Dev :=
  let hdr := requestHeader kind seq rq
  if short then d.bump kClelliulDiscarded 1
  else
    let d := d.bump kClelliulRequests 1
    if magic ≠ 0xC1 ∨ version ≠ 1 then
      (d.bump kClelliulAborts 1).sendAnswer c hdr ((replyAbort abVersion).answer rq)
    else
      match d.mgmt.clients.find? (fun y => decide (y.c = c ∧ y.hdr = hdr)) with
      | some x => ((d.bump kClelliulDuplicates 1).keepClient { x with heard := d.time }).sendAnswer c hdr x.answer
      | none =>
        let a := (replyAbort abUnknown).answer rq
        ((d.bump kClelliulAborts 1).keepClient { c := c, hdr := hdr, answer := a, heard := d.time }).sendAnswer c hdr a

/-! The mailbox (R475 to R477). -/

/-- MBX_CTRL as it is kept; GO reads 0. LENGTH_M1 counts the bytes of WRITE and WRITE_SEG. -/
def mbxCtrlBits (rq : DictReq) : Nat :=
  let counted := decide (rq.service = 2) || decide (rq.service = 5)
  pack [(8, 0), (8, rq.service), (16, rq.index), (8, rq.sub), (7, rq.segment), (1, b2n rq.last),
        (16, if counted then rq.data.length - 1 else 0)]

/-- Bytes placed in the data buffer from offset 0. -/
def Dev.mbxPut (d : Dev) (bs : List Byte) : Dev :=
  { d with mgmt := { d.mgmt with mbxData := (bs ++ d.mgmt.mbxData.drop bs.length).take 65536 } }

/-- *MBX_STATUS fields* after an operation; OVERRUN is kept. -/
def mbxStatusBits (old : Nat) (r : DictReply) : Nat :=
  pack [(32, r.abort.getD 0), (17, if r.abort.isSome then 0 else r.payload.length), (8, (fld old 14 7 + 1) % 256),
        (1, b2n r.segmented), (3, 0), (1, b2n (bit old 2)), (2, if r.abort.isSome then 3 else 2)]

/-- The operation ends: its status, its result from offset 0 of the buffer, its count and vector 0 (R476). -/
def Dev.mbxDone (d : Dev) (r : DictReply) : Dev :=
  let d := if r.abort.isSome then d else d.mbxPut r.payload
  let d := { d with mgmt := { d.mgmt with mbxStatus := mbxStatusBits d.mgmt.mbxStatus r } }
  (d.bump kMailboxOperations 1).msix 0

/-! A request by either path. -/

/-- The request is one to execute: by Clelliul a whole datagram of this protocol, a REQUEST and not the client's last one again
(R466 to R468); by the mailbox one of its services, while the BARs are decoded (R475, R516, R530). -/
def Dev.fresh (d : Dev) (o : Origin) (rq : DictReq) : Bool :=
  match o with
  | .clelliul c magic version kind seq short =>
    !short && decide (magic = 0xC1#8) && decide (version = 1#4) && decide (kind = 0#4) &&
    !d.mgmt.clients.any (fun y => decide (y.c = c ∧ y.hdr = requestHeader 0 seq.toNat rq))
  | .mailbox => d.decodes && decide (rq.service ≤ 7)

/-- The request has arrived: it is counted, or stands in MBX_CTRL with its data in the buffer. -/
def Dev.receive (d : Dev) (o : Origin) (rq : DictReq) : Dev :=
  match o with
  | .clelliul .. => d.bump kClelliulRequests 1
  | .mailbox =>
    let d := { d with mgmt := { d.mgmt with mbxCtrl := mbxCtrlBits rq } }
    if rq.service = 2 ∨ rq.service = 5 then d.mbxPut rq.data else d

/-- The answer: to the client, whose state keeps it, or in the mailbox. -/
def Dev.answerReq (d : Dev) (o : Origin) (rq : DictReq) (r : DictReply) : Dev :=
  match o with
  | .clelliul c _ _ _ seq _ =>
    let hdr := requestHeader 0 seq.toNat rq
    let a := r.answer rq
    let d := if r.abort.isSome then d.bump kClelliulAborts 1 else d
    (d.keepClient { c := c, hdr := hdr, answer := a, heard := d.time }).sendAnswer c hdr a
  | .mailbox => d.mbxDone r

/-- A request that is not executed. -/
def Dev.aside (d : Dev) (o : Origin) (rq : DictReq) : Dev :=
  match o with
  | .clelliul c magic version kind seq short => d.clelliulAside c magic.toNat version.toNat kind.toNat seq.toNat short rq
  | .mailbox => if d.decodes then (d.receive .mailbox rq).mbxDone (replyAbort abUnknown) else d

/-- The weighbridge answers from the end of boot stage 3 on (R490, R495). -/
def Dev.serveReq (d : Dev) (f : Fuses) (o : Origin) (rq : DictReq) (work : Dev → DictReply × Fuses × Dev) : Fuses × Dev :=
  if d.served = false then (f, d)
  else if d.fresh o rq then
    let r := work (d.receive o rq)
    (r.2.1, r.2.2.answerReq o rq r.1)
  else (f, d.aside o rq)

/-! Transfers (R470 to R472). -/

/-- No buffer is free for this path: seven serve Clelliul, one the mailbox, which has one transfer open at most. -/
def Dev.buffersFull (d : Dev) : Option Client → Bool
  | none => d.mgmt.transfers.any (fun t => t.owner.isNone)
  | some _ => decide (7 ≤ (d.mgmt.transfers.filter (fun t => t.owner.isSome)).length)

def Dev.abTransferBusy (d : Dev) : Nat := abortCode 0x0105 d.mgmt.transfers.length

/-- The next identifier: 1 to 0xFFFF, each once in 65,535 allocations. -/
def Dev.nextTransferId (d : Dev) : Nat × Dev :=
  let id := d.mgmt.nextTransfer
  (id, { d with mgmt := { d.mgmt with nextTransfer := if id = 65535 then 1 else id + 1 } })

/-- Open a transfer; with the mailbox, MBX_XFER shows its length and CRC, and an older timeout is forgotten. -/
def Dev.openTransfer (d : Dev) (t : Transfer) : Nat × Dev :=
  let n := d.nextTransferId
  let m := n.2.mgmt
  let forget := fun (x : Option Client × Nat) => t.owner.isSome || x.1.isSome
  (n.1, { n.2 with mgmt := { m with
    transfers := m.transfers ++ [{ t with id := n.1, heard := d.time }]
    timedOut := m.timedOut.filter forget
    mbxXfer := if t.owner.isNone then pack [(32, t.crc), (32, t.length)] else m.mbxXfer } })

def Dev.closeTransfer (d : Dev) (id : Nat) : Dev :=
  { d with mgmt := { d.mgmt with transfers := d.mgmt.transfers.filter (fun t => decide (t.id ≠ id)) } }

def Dev.putTransfer (d : Dev) (t : Transfer) : Dev :=
  { d with mgmt := { d.mgmt with transfers := d.mgmt.transfers.map (fun x => if x.id = t.id then t else x) } }

/-- A transfer a client means: the mailbox has one at most and names none (R477). -/
def Dev.transferOf (d : Dev) (owner : Option Client) (id : Nat) : Option Transfer :=
  d.mgmt.transfers.find? (fun t => decide (t.owner = owner) && (owner.isNone || decide (t.id = id)))

/-- What answers a request for a transfer that is not open: TRANSFER_TIMEOUT once after idleness, else SEGMENT_ERROR. -/
def Dev.notOpen (d : Dev) (owner : Option Client) (id : Nat) : Nat × Dev :=
  let mine := fun (x : Option Client × Nat) => decide (x.1 = owner) && (owner.isNone || decide (x.2 = id))
  if d.mgmt.timedOut.any mine then
    (abortCode 0x0104 0, { d with mgmt := { d.mgmt with timedOut := d.mgmt.timedOut.filter (fun x => !mine x) } })
  else (abortCode 0x0103 0, d)

/-- Segments of a value: the first Clelliul segment of a read carries the CRC in 4 bytes (R470). -/
def segCount (o : Origin) (write : Bool) (n : Nat) : Nat :=
  let extra := if write || viaHost o then 0 else 4
  (n + extra + messageBytes o - 1) / messageBytes o

/-- The payload of a read segment. -/
def segPart (o : Origin) (t : Transfer) (k : Nat) : List Byte :=
  match o with
  | .mailbox => (t.data.drop (65536 * k)).take 65536
  | .clelliul .. => if k = 0 then toBytes t.crc 4 ++ t.data.take 1020 else (t.data.drop (1020 + 1024 * (k - 1))).take 1024

def newTransfer (o : Origin) (write : Bool) (index sub : Nat) (data : List Byte) (length crc : Nat) : Transfer :=
  { id := 0, owner := ownerOf o, write := write, index := index, subindex := sub, data := data, segs := [], got := [],
    lastSeg := none, length := length, crc := crc, heard := 0 }

/-- READ: the value, or a transfer of the value as it stands. -/
def Dev.workRead (f : Fuses) (o : Origin) (index sub : Nat) (d : Dev) : DictReply × Fuses × Dev :=
  match d.readRefused index sub with
  | some code => (replyAbort code, f, d)
  | none =>
    let v := d.valueOf f index sub
    if v.length ≤ messageBytes o then (replyWith v, f, d)
    else if d.buffersFull (ownerOf o) then (replyAbort d.abTransferBusy, f, d)
    else
      let r := d.openTransfer (newTransfer o false index sub v v.length (crc32 v))
      ({ replyWith [] with segmented := true, transfer := r.1 }, f, r.2)

/-- READ_SEG: any segment, in any order and as often as wanted. -/
def Dev.workReadSeg (f : Fuses) (o : Origin) (id segment : Nat) (d : Dev) : DictReply × Fuses × Dev :=
  match d.transferOf (ownerOf o) id with
  | none => let r := d.notOpen (ownerOf o) id; (replyAbort r.1, f, r.2)
  | some t =>
    let d := d.putTransfer { t with heard := d.time }
    let n := segCount o false t.length
    if t.write then (replyAbort (abortCode 0x0103 0), f, d)
    else if n ≤ segment then (replyAbort (abortCode 0x0103 (n - 1)), f, d)
    else ({ replyWith (segPart o t segment) with last := decide (segment + 1 = n) }, f, d)

/-- WRITE_SEG_INIT: steps 1 to 6 of R459, and one write transfer at a time on an entry. -/
def Dev.workInit (f : Fuses) (o : Origin) (index sub length crc : Nat) (d : Dev) : DictReply × Fuses × Dev :=
  let d := if viaHost o then { d with mgmt := { d.mgmt with mbxXfer := pack [(32, crc), (32, length)] } } else d
  match d.openRefused f (viaHost o) index sub length with
  | some code => (replyAbort code, f, d)
  | none =>
    if d.buffersFull (ownerOf o) ∨ d.mgmt.transfers.any (fun t => t.write && decide (t.index = index ∧ t.subindex = sub)) then
      (replyAbort d.abTransferBusy, f, d)
    else
      let r := d.openTransfer (newTransfer o true index sub [] length crc)
      ({ replyWith [] with transfer := r.1 }, f, r.2)

/-- The value that a write transfer's segments make, once all up to the last are held. -/
def Transfer.whole (t : Transfer) : Option (List Byte) :=
  match t.lastSeg with
  | none => none
  | some n =>
    if (List.range (n + 1)).all (fun k => NSet.mem t.got k) then
      some ((List.range (n + 1)).flatMap (fun k => SMap.get [] t.segs k))
    else none

/-- A complete write transfer: length, CRC, then R459; applied, it is closed, and a failure leaves it open (DEDUCED, log 59). -/
def Dev.finishWrite (d : Dev) (f : Fuses) (o : Origin) (t : Transfer) (v : List Byte) : DictReply × Fuses × Dev :=
  if v.length ≠ t.length then (replyAbort (abortCode 0x0106 0), f, d)
  else if crc32 v ≠ t.crc then (replyAbort (abortCode 0x0107 0), f, d)
  else
    let r := d.write f (viaHost o) t.index t.subindex v
    match r.1 with
    | some code => (replyAbort code, r.2.1, r.2.2)
    | none => (replyWith [], r.2.1, r.2.2.closeTransfer t.id)

/-- WRITE_SEG: a segment is held, over the same one held before; the last completes the value. -/
def Dev.workWriteSeg (f : Fuses) (o : Origin) (id segment : Nat) (last : Bool) (data : List Byte) (d : Dev) :
    DictReply × Fuses × Dev :=
  match d.transferOf (ownerOf o) id with
  | none => let r := d.notOpen (ownerOf o) id; (replyAbort r.1, f, r.2)
  | some t =>
    let n := segCount o true t.length
    if t.write = false then (replyAbort (abortCode 0x0103 0), f, d.putTransfer { t with heard := d.time })
    else if n ≤ segment then (replyAbort (abortCode 0x0103 (n - 1)), f, d.putTransfer { t with heard := d.time })
    else
      let t := { t with heard := d.time, got := NSet.add t.got segment, segs := SMap.set [] t.segs segment data
                        lastSeg := if last then some segment else t.lastSeg }
      let d := d.putTransfer t
      match t.whole with
      | none => (replyWith [], f, d)
      | some v => d.finishWrite f o t v

/-- TRANSFER_END. -/
def Dev.workEnd (f : Fuses) (o : Origin) (id : Nat) (d : Dev) : DictReply × Fuses × Dev :=
  match d.transferOf (ownerOf o) id with
  | none => let r := d.notOpen (ownerOf o) id; (replyAbort r.1, f, r.2)
  | some t => (replyWith [], f, d.closeTransfer t.id)

/-! Whole writes. -/

def Dev.workWrite (f : Fuses) (o : Origin) (index sub : Nat) (data : List Byte) (d : Dev) : DictReply × Fuses × Dev :=
  let r := d.write f (viaHost o) index sub data
  match r.1 with
  | some code => (replyAbort code, r.2.1, r.2.2)
  | none => (replyWith [], r.2.1, r.2.2)

/-- A whole segmented write, from its opening to its last segment (log 57): what is answered is the last WRITE_SEG. -/
def Dev.workBulk (f : Fuses) (o : Origin) (index sub : Nat) (data : List Byte) (d : Dev) : DictReply × Fuses × Dev :=
  match d.openRefused f (viaHost o) index sub data.length with
  | some code => (replyAbort code, f, d)
  | none =>
    if d.buffersFull (ownerOf o) ∨ d.mgmt.transfers.any (fun t => t.write && decide (t.index = index ∧ t.subindex = sub)) then
      (replyAbort d.abTransferBusy, f, d)
    else Dev.workWrite f o index sub data d.nextTransferId.2

/-- A write of a value by either path: one message where it fits, else a segmented write. -/
def Dev.serveWrite (d : Dev) (f : Fuses) (o : Origin) (index sub : Nat) (data : List Byte) : Fuses × Dev :=
  let m := messageBytes o
  if data.length ≤ m then
    d.serveReq f o { service := 2, index := index, sub := sub, segment := 0, transfer := 0, last := false, data := data }
      (Dev.workWrite f o index sub data)
  else
    let n := (data.length - 1) / m
    d.serveReq f o { service := 5, index := 0, sub := 0, segment := n, transfer := d.mgmt.nextTransfer, last := true, data := data.drop (m * n) }
      (Dev.workBulk f o index sub data)

/-- A row that writes `n` bytes of a number to the entry of a key. -/
def writeKey (o : Origin) (k v n : Nat) (s : State) : Host.Outcome State Fault Refusal :=
  onAll (fun f d => d.serveWrite f o (k / 256) (k % 256) (toBytes v n)) s

/-- A row that writes bytes to the entry of a key. -/
def writeBytes (o : Origin) (k : Nat) (bs : List Byte) (s : State) : Host.Outcome State Fault Refusal :=
  onAll (fun f d => d.serveWrite f o (k / 256) (k % 256) bs) s

/-! The rows that write one entry. -/

def execChainStart (o : Origin) (k : ChainId) (s : State) : Host.Outcome State Fault Refusal :=
  writeKey o (kChainCtrl k.p k.e k.c) 1 1 s

def execChainHalt (o : Origin) (k : ChainId) (s : State) : Host.Outcome State Fault Refusal :=
  writeKey o (kChainCtrl k.p k.e k.c) 2 1 s

/-- HAUL_PAUSE and HAUL_UNPAUSE write the register with one bit set or cleared (R183, R184). -/
def execHaulPause (o : Origin) (h : Fin 16) (ch : Fin 8) (s : State) : Host.Outcome State Fault Refusal :=
  writeKey o (kHaulPause h) (setBitTo (s.dev.get (kHaulPause h)) ch true) 1 s

def execHaulUnpause (o : Origin) (h : Fin 16) (ch : Fin 8) (s : State) : Host.Outcome State Fault Refusal :=
  writeKey o (kHaulPause h) (setBitTo (s.dev.get (kHaulPause h)) ch false) 1 s

def execHaulCqHead (o : Origin) (h : Fin 16) (ch : Fin 8) (v : Word32) (s : State) : Host.Outcome State Fault Refusal :=
  writeKey o (kHaulCqHead h ch) v.toNat 4 s

def execTallyMap (o : Origin) (p : Fin 4) (data : List Byte) (s : State) : Host.Outcome State Fault Refusal :=
  writeBytes o (kTallyMap p) data s

def execCoordCommit (o : Origin) (v : Byte) (s : State) : Host.Outcome State Fault Refusal := writeKey o kCoordCommit v.toNat 1 s

def execPartJoin (o : Origin) (p : Fin 4) (v : BitVec 128) (s : State) : Host.Outcome State Fault Refusal :=
  writeKey o (kPartJoin p) v.toNat 16 s

def execPartRebind (o : Origin) (p : Fin 4) (v : Word32) (s : State) : Host.Outcome State Fault Refusal :=
  writeKey o (kPartRebind p) v.toNat 4 s

def execPortDisable (o : Origin) (port : Fin 16) (v : Byte) (s : State) : Host.Outcome State Fault Refusal :=
  writeKey o (kPortDisable port) v.toNat 1 s

def execStepAbandon (o : Origin) (p : Fin 4) (v : Word32) (s : State) : Host.Outcome State Fault Refusal :=
  writeKey o (kStepAbandon p) v.toNat 4 s

def execRecutRequest (o : Origin) (p : Fin 4) (v : Word32) (s : State) : Host.Outcome State Fault Refusal :=
  writeKey o (kRecutRequest p) v.toNat 4 s

def execCkptRequest (o : Origin) (p : Fin 4) (v : Byte) (s : State) : Host.Outcome State Fault Refusal :=
  writeKey o (kCkptRequest p) v.toNat 1 s

def execStepBlockInit (o : Origin) (p : Fin 4) (v : Byte) (s : State) : Host.Outcome State Fault Refusal :=
  writeKey o (kStepBlockInit p) v.toNat 1 s

/-- A shift request with one of the four actions (R407). -/
def shiftWrite (o : Origin) (action p mode : Nat) (confirm : Bool) (tenancy : Nat) (s : State) :
    Host.Outcome State Fault Refusal :=
  writeKey o kShiftRequest (shiftReqBits { tenancy := tenancy, confirm := confirm, mode := mode, action := action, p := p }) 4 s

def execSuspend (o : Origin) (p : Fin 4) (mode : BitVec 3) (confirm : Bool) (s : State) : Host.Outcome State Fault Refusal :=
  shiftWrite o 1 p mode.toNat confirm 0 s

def execReshape (o : Origin) (p : Fin 4) (mode : BitVec 3) (confirm : Bool) (tenancy : BitVec 4) (s : State) :
    Host.Outcome State Fault Refusal :=
  shiftWrite o 2 p mode.toNat confirm tenancy.toNat s

def execEndShift (o : Origin) (p : Fin 4) (mode : BitVec 3) (confirm : Bool) (s : State) : Host.Outcome State Fault Refusal :=
  shiftWrite o 3 p mode.toNat confirm 0 s

def execResume (o : Origin) (p : Fin 4) (mode : BitVec 3) (confirm : Bool) (s : State) : Host.Outcome State Fault Refusal :=
  shiftWrite o 4 p mode.toNat confirm 0 s

def execShiftConfirm (o : Origin) (v : Byte) (s : State) : Host.Outcome State Fault Refusal := writeKey o kShiftConfirm v.toNat 1 s

def execLoad (o : Origin) (p : Fin 4) (s : State) : Host.Outcome State Fault Refusal := writeKey o (kPartCtrl p) 1 1 s

def execPartAdmit (o : Origin) (p : Fin 4) (s : State) : Host.Outcome State Fault Refusal := writeKey o (kPartCtrl p) 2 1 s

/-- A reset request of one of the domains (R437). -/
def resetWrite (o : Origin) (x : ResetReq) (s : State) : Host.Outcome State Fault Refusal :=
  writeKey o kResetRequest (resetReqBits x) 4 s

def execCommandReset (o : Origin) (k : ChainId) (s : State) : Host.Outcome State Fault Refusal :=
  resetWrite o { domain := 1, engine := k.e, clear := false, chain := k.c, p := k.p } s

def execEngineReset (o : Origin) (p : Fin 4) (engine : Byte) (clear : Bool) (s : State) : Host.Outcome State Fault Refusal :=
  resetWrite o { domain := 2, engine := engine.toNat, clear := clear, chain := 0, p := p } s

def execPartitionReset (o : Origin) (p : Fin 4) (s : State) : Host.Outcome State Fault Refusal :=
  resetWrite o { domain := 3, engine := 0, clear := false, chain := 0, p := p } s

def execModuleReset (o : Origin) (s : State) : Host.Outcome State Fault Refusal :=
  resetWrite o { domain := 4, engine := 0, clear := false, chain := 0, p := 0 } s

def execBenchUnfence (o : Origin) (v : Byte) (s : State) : Host.Outcome State Fault Refusal := writeKey o kBenchUnfence v.toNat 1 s

def execRetrainRequest (o : Origin) (stk : Fin 12) (v : Byte) (s : State) : Host.Outcome State Fault Refusal :=
  writeKey o (kRetrainRequest stk) v.toNat 1 s

def execReliefClear (o : Origin) (stk : Fin 12) (v : Byte) (s : State) : Host.Outcome State Fault Refusal :=
  writeKey o (kReliefClear stk) v.toNat 1 s

def execTgStart (o : Origin) (stk : Fin 12) (s : State) : Host.Outcome State Fault Refusal := writeKey o (kTgCtrl stk) 1 1 s

def execTgStop (o : Origin) (stk : Fin 12) (s : State) : Host.Outcome State Fault Refusal := writeKey o (kTgCtrl stk) 2 1 s

def execFaultLogClear (o : Origin) (v : Byte) (s : State) : Host.Outcome State Fault Refusal := writeKey o kFaultLogClear v.toNat 1 s

def execCaptureRequest (o : Origin) (v : Byte) (s : State) : Host.Outcome State Fault Refusal := writeKey o kCaptureRequest v.toNat 1 s

def execRetainedAdopt (o : Origin) (p : Fin 4) (v : Byte) (s : State) : Host.Outcome State Fault Refusal :=
  writeKey o (kRetainedAdopt p) v.toNat 1 s

def execFwStageData (o : Origin) (data : List Byte) (s : State) : Host.Outcome State Fault Refusal := writeBytes o kFwStageData data s

def execFwStageFrom (o : Origin) (v : Word64) (s : State) : Host.Outcome State Fault Refusal := writeKey o kFwStageFrom v.toNat 8 s

def execFwInstall (o : Origin) (v : Byte) (s : State) : Host.Outcome State Fault Refusal := writeKey o kFwInstall v.toNat 1 s

def execFwConfirm (o : Origin) (v : Byte) (s : State) : Host.Outcome State Fault Refusal := writeKey o kFwConfirm v.toNat 1 s

def execAttestNonce (o : Origin) (v : BitVec 256) (s : State) : Host.Outcome State Fault Refusal := writeKey o kAttestNonce v.toNat 32 s

def execRefuseToken (o : Origin) (data : List Byte) (s : State) : Host.Outcome State Fault Refusal := writeBytes o kRefuseToken data s

def execDebugToken (o : Origin) (data : List Byte) (s : State) : Host.Outcome State Fault Refusal := writeBytes o kDebugToken data s

def execConfigHold (o : Origin) (v : Byte) (s : State) : Host.Outcome State Fault Refusal := writeKey o kConfigHold v.toNat 1 s

def execConfigDefaults (o : Origin) (v : Byte) (s : State) : Host.Outcome State Fault Refusal := writeKey o kConfigDefaults v.toNat 1 s

def execEntryWrite (o : Origin) (index : BitVec 16) (subindex : Byte) (data : List Byte) (s : State) :
    Host.Outcome State Fault Refusal :=
  writeBytes o (key index.toNat subindex.toNat) data s

/-! Reads, transfers and the services that describe. -/

/-- A request without data. -/
def plainReq (service index sub : Nat) : DictReq :=
  { service := service, index := index, sub := sub, segment := 0, transfer := 0, last := false, data := [] }

def execRead (o : Origin) (index : BitVec 16) (subindex : Byte) (s : State) : Host.Outcome State Fault Refusal :=
  onAll (fun f d => d.serveReq f o (plainReq 1 index.toNat subindex.toNat) (Dev.workRead f o index.toNat subindex.toNat)) s

def execReadSeg (o : Origin) (transfer segment : BitVec 16) (s : State) : Host.Outcome State Fault Refusal :=
  onAll (fun f d => d.serveReq f o { plainReq 3 0 0 with segment := segment.toNat, transfer := transfer.toNat }
    (Dev.workReadSeg f o transfer.toNat segment.toNat)) s

def execWriteSegInit (o : Origin) (index : BitVec 16) (subindex : Byte) (length crc : Word32) (s : State) :
    Host.Outcome State Fault Refusal :=
  onAll (fun f d => d.serveReq f o { plainReq 4 index.toNat subindex.toNat with data := toBytes (length.toNat + 2 ^ 32 * crc.toNat) 8 }
    (Dev.workInit f o index.toNat subindex.toNat length.toNat crc.toNat)) s

def execWriteSeg (o : Origin) (transfer segment : BitVec 16) (last : Bool) (data : List Byte) (s : State) :
    Host.Outcome State Fault Refusal :=
  onAll (fun f d => d.serveReq f o { plainReq 5 0 0 with segment := segment.toNat, transfer := transfer.toNat, last := last, data := data }
    (Dev.workWriteSeg f o transfer.toNat segment.toNat last data)) s

def execTransferEnd (o : Origin) (transfer : BitVec 16) (s : State) : Host.Outcome State Fault Refusal :=
  onAll (fun f d => d.serveReq f o { plainReq 6 0 0 with transfer := transfer.toNat } (Dev.workEnd f o transfer.toNat)) s

/-- *Entry description* (R457); subindex 0 is an UNSIGNED8 CONST entry. -/
def Dev.describeBits (d : Dev) (f : Fuses) (index sub : Nat) : Nat :=
  match cardAt index sub with
  | none => pack [(32, 1), (32, 1), (8, EntryType.code (.uint 1)), (8, Access.code .const), (8, 0), (8, 0), (32, 0)]
  | some c =>
    let present := if c.ty.isDomain then (if (d.readRefused index sub).isSome then 0 else (d.valueOf f index sub).length) else c.ty.size
    let big := decide (1024 < c.ty.size)
    pack [(32, c.ty.size), (32, present), (8, c.ty.code), (8, c.acc.code), (8, c.pers.code),
          (6, 0), (1, b2n (decide (c.acc = .wo))), (1, b2n big), (32, 0)]

def Dev.workDescribe (f : Fuses) (index sub : Nat) (d : Dev) : DictReply × Fuses × Dev :=
  match firstSome [d.missing index sub, d.bootRefused index] with
  | some code => (replyAbort code, f, d)
  | none => (replyWith (toBytes (d.describeBits f index sub) 16), f, d)

def execDescribe (o : Origin) (index : BitVec 16) (subindex : Byte) (s : State) : Host.Outcome State Fault Refusal :=
  onAll (fun f d => d.serveReq f o (plainReq 7 index.toNat subindex.toNat) (Dev.workDescribe f index.toNat subindex.toNat)) s

/-- The index after one, of those that exist; in recovery of those that it serves (R467, R502). -/
def Dev.nextIndex (d : Dev) (index : Nat) : Option Nat :=
  ((cards.flatMap (fun c => (List.range c.np).flatMap (fun a => (List.range c.ne).map (fun b => c.base + 256 * a + b)))).filter
    (fun i => decide (index < i) && (decide (d.bootStage ≠ bsRecovery) || recoveryIndex i))).min?

/-- The entry after index:sub, 0xFFFF_FFFF at the end. -/
def Dev.nextKey (d : Dev) (index sub : Nat) : Nat :=
  let here := decide (d.bootStage ≠ bsRecovery) || recoveryIndex index
  match (List.range 256).find? (fun t => here && decide (sub < t) && (cardAt index t).isSome) with
  | some t => key index t
  | none =>
    match d.nextIndex index with
    | some i => key i 0
    | none => 0xFFFFFFFF

def execNext (o : Origin) (index : BitVec 16) (subindex : Byte) (s : State) : Host.Outcome State Fault Refusal :=
  onAll (fun f d => d.serveReq f o (plainReq 8 index.toNat subindex.toNat)
    (fun d => (replyWith (toBytes (d.nextKey index.toNat subindex.toNat) 4), f, d))) s

/-- *IDENTIFY payload* (R474). -/
def Dev.identifyBits (d : Dev) (f : Fuses) : Nat :=
  pack [(128, d.get kPartNumber), (64, f.serial), (32, f.hwRevision), (32, d.get kFwVersion), (16, d.get kCompatEpoch),
        (32, f.levels), (16, d.chip), (8, d.get kModuleState), (4, d.get kT1sNodeId), (52, 0)]

/-- IDENTIFY; the answer after the hold-off is the row's whole effect (DESIGN CHOICE, log 74). -/
def execIdentify (o : Origin) (s : State) : Host.Outcome State Fault Refusal :=
  onAll (fun f d => d.serveReq f o (plainReq 9 0 0) (fun d => (replyWith (toBytes (d.identifyBits f) 48), f, d))) s

/-! Notices, expiry, the segment. -/

/-- The target's answer stops the retries of its notice (R473). -/
def execNotice (c : Client) (seq : BitVec 16) (s : State) : Host.Outcome State Fault Refusal :=
  onDev (fun d =>
    if c = targetOf (d.get kNoticeTarget) then
      { d with mgmt := { d.mgmt with notices := d.mgmt.notices.filter (fun x => decide (x.1 ≠ seq.toNat)) } }
    else d) s

/-- NOTICE_RETRY: the notice is sent again, or given up after the last of NOTICE_RETRIES (R473). -/
def Dev.retryNotice (d : Dev) (seq : Nat) : Dev :=
  match d.mgmt.notices.find? (fun x => decide (x.1 = seq)) with
  | none => d
  | some (_, r, left, sentAt) =>
    if d.time < sentAt + 1000000 * d.get kNoticeRetryMs then d
    else if left = 0 then
      ({ d with mgmt := { d.mgmt with notices := d.mgmt.notices.filter (fun x => decide (x.1 ≠ seq)) } }).bump kNoticesDropped 1
    else
      let d := d.sendT1s (Machine.targetOf (d.get kNoticeTarget)) (clHeader 3 0x0A seq 0xA000 3 128 0 0 false false) (toBytes r 128)
      { d with mgmt := { d.mgmt with
          notices := d.mgmt.notices.map (fun x => if x.1 = seq then (seq, r, left - 1, d.time) else x) } }

def execNoticeRetry (seq : BitVec 16) (s : State) : Host.Outcome State Fault Refusal := onDev (fun d => d.retryNotice seq.toNat) s

/-- TRANSFER_TIMEOUT: a transfer idle for 2 s closes and applies nothing (R472). -/
def Dev.timeoutTransfer (d : Dev) (id : Nat) : Dev :=
  match d.mgmt.transfers.find? (fun t => decide (t.id = id)) with
  | none => d
  | some t =>
    if d.time < t.heard + 2000000000 then d
    else
      let d := (d.closeTransfer id).bump kTransferTimeouts 1
      { d with mgmt := { d.mgmt with timedOut := d.mgmt.timedOut ++ [(t.owner, id)] } }

def execTransferTimeout (transfer : BitVec 16) (s : State) : Host.Outcome State Fault Refusal :=
  onDev (fun d => d.timeoutTransfer transfer.toNat) s

/-- CLIENT_EXPIRY: 10 s after a client's last request (R468). -/
def execClientExpiry (c : Client) (s : State) : Host.Outcome State Fault Refusal :=
  onDev (fun d =>
    { d with mgmt := { d.mgmt with
        clients := d.mgmt.clients.filter (fun x => decide (x.c ≠ c) || decide (d.time < x.heard + 10000000000)) } }) s

/-- BEACON_LOSS and BEACON: T1S_STATE follows the coordinator's beacon; strap 0 stays OFF (R463). -/
def execBeaconLoss (s : State) : Host.Outcome State Fault Refusal :=
  onDev (fun d => if d.get kT1sNodeId = 0 then d else d.put kT1sState 1) s

def execBeacon (s : State) : Host.Outcome State Fault Refusal :=
  onDev (fun d => if d.get kT1sNodeId = 0 then d else d.put kT1sState 2) s

/-- ff02::1. -/
def allNodes : Nat := 0xFF02 * 2 ^ 112 + 1

/-- The module's IPv6 on T1S (R464): the addresses it takes packets for, answered while it may transmit. -/
def execNeighborSolicitation (src target : BitVec 128) (s : State) : Host.Outcome State Fault Refusal :=
  onFused (fun f d => if target.toNat = f.linkLocal ∧ d.get kT1sState = 2 then d.send (.neighborAdvert src) else d) s

def execEchoRequest (src dst : BitVec 128) (data : List Byte) (s : State) : Host.Outcome State Fault Refusal :=
  onFused (fun f d =>
    if (dst.toNat = f.linkLocal ∨ dst.toNat = allNodes) ∧ d.get kT1sState = 2 then d.send (.echoReply src data) else d) s

/-- CLIENT_ABORT: the client's transfer closes at once, applying nothing (R472). -/
def execClientAbort (c : Client) (transfer : BitVec 16) (s : State) : Host.Outcome State Fault Refusal :=
  onDev (fun d =>
    match d.transferOf (some c) transfer.toNat with
    | some t => d.closeTransfer t.id
    | none => d) s

end Sys2Proof.Machine
end

