-- ==== Sys2Proof/Machine/Dispatch.lean ====
section
/-! DEFINITION. One arm per command: the whole of `exec` is this table of direct calls. -/

namespace Sys2Proof.Machine

def exec (i : Instr) (s : State) : Host.Outcome State Fault Refusal :=
  match i with
  | .segment k u => Sys2Proof.Machine.execSegment k u s
  | .link k u => Sys2Proof.Machine.execLink k u s
  | .linkPoll k u => Sys2Proof.Machine.execLinkPoll k u s
  | .nop k u => Sys2Proof.Machine.execNop k u s
  | .wait k u => Sys2Proof.Machine.execWait k u s
  | .signal k u => Sys2Proof.Machine.execSignal k u s
  | .select k u => Sys2Proof.Machine.execSelect k u s
  | .matmul k u => Sys2Proof.Machine.execMatmul k u s
  | .vector k u => Sys2Proof.Machine.execVector k u s
  | .haul k u => Sys2Proof.Machine.execHaul k u s
  | .xchgHopper k u => Sys2Proof.Machine.execXchgHopper k u s
  | .xchgVote k u => Sys2Proof.Machine.execXchgVote k u s
  | .bedSnapshot k u => Sys2Proof.Machine.execBedSnapshot k u s
  | .bedRestore k u => Sys2Proof.Machine.execBedRestore k u s
  | .bedStream k u => Sys2Proof.Machine.execBedStream k u s
  | .vopNop b o => Sys2Proof.Machine.execVopNop b o s
  | .ld b o => Sys2Proof.Machine.execLd b o s
  | .st b o => Sys2Proof.Machine.execSt b o s
  | .bcast b o => Sys2Proof.Machine.execBcast b o s
  | .add b o => Sys2Proof.Machine.execAdd b o s
  | .sub b o => Sys2Proof.Machine.execSub b o s
  | .mul b o => Sys2Proof.Machine.execMul b o s
  | .fma b o => Sys2Proof.Machine.execFma b o s
  | .div b o => Sys2Proof.Machine.execDiv b o s
  | .sqrt b o => Sys2Proof.Machine.execSqrt b o s
  | .min b o => Sys2Proof.Machine.execMin b o s
  | .max b o => Sys2Proof.Machine.execMax b o s
  | .exp2 b o => Sys2Proof.Machine.execExp2 b o s
  | .log2 b o => Sys2Proof.Machine.execLog2 b o s
  | .rsqrt b o => Sys2Proof.Machine.execRsqrt b o s
  | .cvt b o => Sys2Proof.Machine.execCvt b o s
  | .merge b o => Sys2Proof.Machine.execMerge b o s
  | .join b o => Sys2Proof.Machine.execJoin b o s
  | .split b o => Sys2Proof.Machine.execSplit b o s
  | .cmpLt b o => Sys2Proof.Machine.execCmpLt b o s
  | .cmpEq b o => Sys2Proof.Machine.execCmpEq b o s
  | .nonfinite b o => Sys2Proof.Machine.execNonfinite b o s
  | .redAdd b o => Sys2Proof.Machine.execRedAdd b o s
  | .tileDrained b slot => Sys2Proof.Machine.execTileDrained b slot s
  | .graderReport p g => Sys2Proof.Machine.execGraderReport p g s
  | .conveyorSegment b => Sys2Proof.Machine.execConveyorSegment b s
  | .conveyorCredit b face => Sys2Proof.Machine.execConveyorCredit b face s
  | .rampDown b unit => Sys2Proof.Machine.execRampDown b unit s
  | .rampStep b unit => Sys2Proof.Machine.execRampStep b unit s
  | .haulComplete h ch => Sys2Proof.Machine.execHaulComplete h ch s
  | .bedComplete p => Sys2Proof.Machine.execBedComplete p s
  | .proofBlock b r => Sys2Proof.Machine.execProofBlock b r s
  | .tallySignal n => Sys2Proof.Machine.execTallySignal n s
  | .waitPost w => Sys2Proof.Machine.execWaitPost w s
  | .waitRelease w => Sys2Proof.Machine.execWaitRelease w s
  | .tallyTimeout w => Sys2Proof.Machine.execTallyTimeout w s
  | .arrive p slot => Sys2Proof.Machine.execArrive p slot s
  | .release port x => Sys2Proof.Machine.execRelease port x s
  | .vote p => Sys2Proof.Machine.execVote p s
  | .exchange port x => Sys2Proof.Machine.execExchange port x s
  | .exchangeRetry tag => Sys2Proof.Machine.execExchangeRetry tag s
  | .exchangeAck port x => Sys2Proof.Machine.execExchangeAck port x s
  | .write port x => Sys2Proof.Machine.execWrite port x s
  | .writeAck port x => Sys2Proof.Machine.execWriteAck port x s
  | .readReq port x => Sys2Proof.Machine.execReadReq port x s
  | .readResp port x => Sys2Proof.Machine.execReadResp port x s
  | .remoteSignal port x => Sys2Proof.Machine.execRemoteSignal port x s
  | .signalAck port x => Sys2Proof.Machine.execSignalAck port x s
  | .responseTimeout tag => Sys2Proof.Machine.execResponseTimeout tag s
  | .packetTransmit port => Sys2Proof.Machine.execPacketTransmit port s
  | .creditReturn port vl reserve pool => Sys2Proof.Machine.execCreditReturn port vl reserve pool s
  | .frameNak port frame => Sys2Proof.Machine.execFrameNak port frame s
  | .laneFailed port f => Sys2Proof.Machine.execLaneFailed port f s
  | .laneSpared port rx fibre lambda => Sys2Proof.Machine.execLaneSpared port rx fibre lambda s
  | .fibreSpared port rx fibre => Sys2Proof.Machine.execFibreSpared port rx fibre s
  | .linkRetrain port ok => Sys2Proof.Machine.execLinkRetrain port ok s
  | .linkTrained port => Sys2Proof.Machine.execLinkTrained port s
  | .trainingRetry port => Sys2Proof.Machine.execTrainingRetry port s
  | .probe port x => Sys2Proof.Machine.execProbe port x s
  | .probeRetry port => Sys2Proof.Machine.execProbeRetry port s
  | .identHoldoff port => Sys2Proof.Machine.execIdentHoldoff port s
  | .ident port x => Sys2Proof.Machine.execIdent port x s
  | .discoveryTimeout port => Sys2Proof.Machine.execDiscoveryTimeout port s
  | .timeTick port => Sys2Proof.Machine.execTimeTick port s
  | .time port x => Sys2Proof.Machine.execTime port x s
  | .memoryAccess a ev => Sys2Proof.Machine.execMemoryAccess a ev s
  | .scrub l ev => Sys2Proof.Machine.execScrub l ev s
  | .rowRemapped stk k bank row => Sys2Proof.Machine.execRowRemapped stk k bank row s
  | .channelRetrain stk k => Sys2Proof.Machine.execChannelRetrain stk k s
  | .channelLost stk k => Sys2Proof.Machine.execChannelLost stk k s
  | .reliefSwitch stk => Sys2Proof.Machine.execReliefSwitch stk s
  | .channelRelieved stk => Sys2Proof.Machine.execChannelRelieved stk s
  | .tgRunEnd stk rs => Sys2Proof.Machine.execTgRunEnd stk rs s
  | .deadlineMiss k => Sys2Proof.Machine.execDeadlineMiss k s
  | .segmentHung k => Sys2Proof.Machine.execSegmentHung k s
  | .teardownCutoff p => Sys2Proof.Machine.execTeardownCutoff p s
  | .tornDown p => Sys2Proof.Machine.execTornDown p s
  | .tenantSwitch p host => Sys2Proof.Machine.execTenantSwitch p host s
  | .resetDone => Sys2Proof.Machine.execResetDone s
  | .resetEscalation => Sys2Proof.Machine.execResetEscalation s
  | .mgmtCoreRestart core silentMs => Sys2Proof.Machine.execMgmtCoreRestart core silentMs s
  | .chainStart o k => Sys2Proof.Machine.execChainStart o k s
  | .chainHalt o k => Sys2Proof.Machine.execChainHalt o k s
  | .haulPause o h ch => Sys2Proof.Machine.execHaulPause o h ch s
  | .haulUnpause o h ch => Sys2Proof.Machine.execHaulUnpause o h ch s
  | .haulCqHead o h ch v => Sys2Proof.Machine.execHaulCqHead o h ch v s
  | .tallyMap o p data => Sys2Proof.Machine.execTallyMap o p data s
  | .coordCommit o v => Sys2Proof.Machine.execCoordCommit o v s
  | .partJoin o p v => Sys2Proof.Machine.execPartJoin o p v s
  | .partRebind o p v => Sys2Proof.Machine.execPartRebind o p v s
  | .portDisable o port v => Sys2Proof.Machine.execPortDisable o port v s
  | .stepAbandon o p v => Sys2Proof.Machine.execStepAbandon o p v s
  | .recutRequest o p v => Sys2Proof.Machine.execRecutRequest o p v s
  | .ckptRequest o p v => Sys2Proof.Machine.execCkptRequest o p v s
  | .stepBlockInit o p v => Sys2Proof.Machine.execStepBlockInit o p v s
  | .suspend o p mode confirm => Sys2Proof.Machine.execSuspend o p mode confirm s
  | .reshape o p mode confirm tenancy => Sys2Proof.Machine.execReshape o p mode confirm tenancy s
  | .endShift o p mode confirm => Sys2Proof.Machine.execEndShift o p mode confirm s
  | .resume o p mode confirm => Sys2Proof.Machine.execResume o p mode confirm s
  | .shiftConfirm o v => Sys2Proof.Machine.execShiftConfirm o v s
  | .load o p => Sys2Proof.Machine.execLoad o p s
  | .partAdmit o p => Sys2Proof.Machine.execPartAdmit o p s
  | .commandReset o k => Sys2Proof.Machine.execCommandReset o k s
  | .engineReset o p engine clear => Sys2Proof.Machine.execEngineReset o p engine clear s
  | .partitionReset o p => Sys2Proof.Machine.execPartitionReset o p s
  | .moduleReset o => Sys2Proof.Machine.execModuleReset o s
  | .benchUnfence o v => Sys2Proof.Machine.execBenchUnfence o v s
  | .retrainRequest o stk v => Sys2Proof.Machine.execRetrainRequest o stk v s
  | .reliefClear o stk v => Sys2Proof.Machine.execReliefClear o stk v s
  | .tgStart o stk => Sys2Proof.Machine.execTgStart o stk s
  | .tgStop o stk => Sys2Proof.Machine.execTgStop o stk s
  | .faultLogClear o v => Sys2Proof.Machine.execFaultLogClear o v s
  | .captureRequest o v => Sys2Proof.Machine.execCaptureRequest o v s
  | .retainedAdopt o p v => Sys2Proof.Machine.execRetainedAdopt o p v s
  | .fwStageData o data => Sys2Proof.Machine.execFwStageData o data s
  | .fwStageFrom o v => Sys2Proof.Machine.execFwStageFrom o v s
  | .fwInstall o v => Sys2Proof.Machine.execFwInstall o v s
  | .fwConfirm o v => Sys2Proof.Machine.execFwConfirm o v s
  | .attestNonce o v => Sys2Proof.Machine.execAttestNonce o v s
  | .refuseToken o data => Sys2Proof.Machine.execRefuseToken o data s
  | .debugToken o data => Sys2Proof.Machine.execDebugToken o data s
  | .configHold o v => Sys2Proof.Machine.execConfigHold o v s
  | .configDefaults o v => Sys2Proof.Machine.execConfigDefaults o v s
  | .entryWrite o index subindex data => Sys2Proof.Machine.execEntryWrite o index subindex data s
  | .read o index subindex => Sys2Proof.Machine.execRead o index subindex s
  | .readSeg o transfer segment => Sys2Proof.Machine.execReadSeg o transfer segment s
  | .writeSegInit o index subindex length crc => Sys2Proof.Machine.execWriteSegInit o index subindex length crc s
  | .writeSeg o transfer segment last data => Sys2Proof.Machine.execWriteSeg o transfer segment last data s
  | .transferEnd o transfer => Sys2Proof.Machine.execTransferEnd o transfer s
  | .describe o index subindex => Sys2Proof.Machine.execDescribe o index subindex s
  | .next o index subindex => Sys2Proof.Machine.execNext o index subindex s
  | .identify o => Sys2Proof.Machine.execIdentify o s
  | .notice c seq => Sys2Proof.Machine.execNotice c seq s
  | .noticeRetry seq => Sys2Proof.Machine.execNoticeRetry seq s
  | .transferTimeout transfer => Sys2Proof.Machine.execTransferTimeout transfer s
  | .clientExpiry c => Sys2Proof.Machine.execClientExpiry c s
  | .beaconLoss => Sys2Proof.Machine.execBeaconLoss s
  | .neighborSolicitation src target => Sys2Proof.Machine.execNeighborSolicitation src target s
  | .echoRequest src dst data => Sys2Proof.Machine.execEchoRequest src dst data s
  | .functionLevelReset => Sys2Proof.Machine.execFunctionLevelReset s
  | .pciePerstN => Sys2Proof.Machine.execPciePerstN s
  | .perstRelease => Sys2Proof.Machine.execPerstRelease s
  | .bar2Access offset op => Sys2Proof.Machine.execBar2Access offset op s
  | .doeAttest nonce => Sys2Proof.Machine.execDoeAttest nonce s
  | .doeAbort => Sys2Proof.Machine.execDoeAbort s
  | .trayResetN highMs lowMs => Sys2Proof.Machine.execTrayResetN highMs lowMs s
  | .powerUp straps => Sys2Proof.Machine.execPowerUp straps s
  | .bootStageEnd => Sys2Proof.Machine.execBootStageEnd s
  | .stageOverrun => Sys2Proof.Machine.execStageOverrun s
  | .measurementEvaluation point value excluded => Sys2Proof.Machine.execMeasurementEvaluation point value excluded s
  | .trip point value removal => Sys2Proof.Machine.execTrip point value removal s
  | .beacon => Sys2Proof.Machine.execBeacon s
  | .clientAbort c transfer => Sys2Proof.Machine.execClientAbort c transfer s
  | .trainingFailed port => Sys2Proof.Machine.execTrainingFailed port s
  | .phaseFault rail => Sys2Proof.Machine.execPhaseFault rail s

end Sys2Proof.Machine
end

