-- ==== Sys2Proof/Machine/Tick.lean ====
section
/-! DEFINITION. Module time (R18, R315): what a step does on an empty queue. -/

namespace Sys2Proof.Machine

/-- How far module time moves in a nanosecond: 1, or 2 or 0 while a correction is slewed in, so that it never runs backward
(R315; the rate is the model's, log 1). -/
def slewStep (slew : Int) : Nat := if 0 < slew then 2 else if slew < 0 then 0 else 1

/-- What of a correction is left after a nanosecond. -/
def slewLeft (slew : Int) : Int := if 0 < slew then slew - 1 else if slew < 0 then slew + 1 else 0

/-- Module time advances while 44 V is applied; nothing else changes (DESIGN CHOICE, log 1). -/
def State.tick (s : State) : State :=
  if s.dev.powered then
    { s with dev := { s.dev with
        time := (s.dev.time + slewStep s.dev.fabric.slew) % 2 ^ 64
        fabric := { s.dev.fabric with slew := slewLeft s.dev.fabric.slew } } }
  else s

end Sys2Proof.Machine
end

