-- ==== Sys2Proof/WellFormed.lean ====
section
/-! DEFINITION. Which commands are well formed: the conditions on operands that their types do not carry. A command that is not
well formed spells nothing the hardware could be given. -/

namespace Sys2Proof

/-- Off a lift, engines 0x10 and up, a chain has one unit (R123). -/
def unitOk (k : ChainId) (u : Fin 96) : Bool := decide (k.e.val < 16) || decide (u.val = 0)

/-- A payload is 0 to 4,096 bytes (R290). -/
def packetOk (x : Packet) : Bool := decide (x.payload.length ≤ 4096)

/-- A waiting point that exists (R201, R208): its kind, its unit and its subunit. -/
def waiterOk (w : Waiter) : Bool :=
  let unit := w.unit.val
  let sub := w.sub.val
  match w.kind.val with
  | 0 => decide (unit < 96) && decide (sub < 4)
  | 1 => decide (unit < 96) && decide (sub = 0)
  | 2 => decide (unit < 96) && decide (sub = 0)
  | 3 => decide (unit < 16) && decide (sub < 4)
  | 4 => decide (unit < 16)
  | 5 => decide (unit = 0) && decide (sub < 4)
  | 6 => decide (unit = 0) && decide (sub < 2)
  | 7 => decide (unit = 0) && decide (sub < 4)
  | 8 => decide (unit = 0) && decide (sub = 0)
  | 9 => decide (unit < 64) && decide (sub = 0)
  | _ => false

/-- A pseudo-channel has 3,145,728 positions (R230). -/
def lineOk (l : MemLine) : Bool := decide (l.pos.toNat < 3145728)

def accessOk (a : MemAccess) : Bool :=
  match a.target with
  | .working off => decide (off.toNat % 64 = 0)
  | .place l => lineOk l

/-- One result for a pseudo-channel (R272). -/
def tgOk : List TgResult → Bool
  | [] => true
  | r :: rs => decide (r.failPos.toNat < 3145728) && rs.all (fun x => decide (x.k ≠ r.k)) && tgOk rs

/-- A PCIe read or write of 1 to 4,096 bytes (PRESUMED, log 75). -/
def bar2Ok : Bar2Op → Bool
  | .read n => decide (1 ≤ n.toNat) && decide (n.toNat ≤ 4096)
  | .write l => decide (1 ≤ l.length) && decide (l.length ≤ 4096)

/-- A transfer buffer holds 512 KiB (R472), and the mailbox carries no write of 0 bytes (R475: LENGTH_M1). -/
def valueOk (o : Origin) (data : List Byte) : Bool :=
  match o with
  | .clelliul _ _ _ _ _ _ => decide (data.length ≤ 524288)
  | .mailbox => decide (1 ≤ data.length) && decide (data.length ≤ 524288)

/-- Only a Clelliul request names a transfer (R466, R477). -/
def transferOk (o : Origin) (transfer : BitVec 16) : Bool :=
  match o with
  | .clelliul _ _ _ _ _ _ => true
  | .mailbox => decide (transfer = 0)

/-- A segment of 1,024 bytes at most by Clelliul (R467), of 64 KiB in segments 0 to 7 by the mailbox (R475). -/
def segmentOk (o : Origin) (transfer seg : BitVec 16) (data : List Byte) : Bool :=
  transferOk o transfer &&
  match o with
  | .clelliul _ _ _ _ _ _ => decide (data.length ≤ 1024)
  | .mailbox => decide (1 ≤ data.length) && decide (data.length ≤ 65536) && decide (seg.toNat < 8)

/-- NEXT and IDENTIFY are no services of the mailbox (R475). -/
def viaClelliul : Origin → Bool
  | .clelliul _ _ _ _ _ _ => true
  | .mailbox => false

/-- A command is well formed. -/
def Instr.wf : Instr → Bool
  | .segment k u => unitOk k u
  | .link k u => unitOk k u
  | .linkPoll k u => unitOk k u
  | .nop k u => unitOk k u
  | .wait k u => unitOk k u
  | .signal k u => unitOk k u
  | .select k u => unitOk k u
  | .matmul k u => unitOk k u
  | .vector k u => unitOk k u
  | .haul k u => unitOk k u
  | .xchgHopper k u => unitOk k u
  | .xchgVote k u => unitOk k u
  | .bedSnapshot k u => unitOk k u
  | .bedRestore k u => unitOk k u
  | .bedStream k u => unitOk k u
  | .waitPost w => waiterOk w
  | .waitRelease w => waiterOk w
  | .tallyTimeout w => waiterOk w
  | .release _ x => packetOk x.pkt
  | .exchange _ x => packetOk x.pkt
  | .exchangeAck _ x => packetOk x.pkt
  | .write _ x => packetOk x.pkt
  | .writeAck _ x => packetOk x.pkt
  | .readReq _ x => packetOk x.pkt
  | .readResp _ x => packetOk x.pkt
  | .remoteSignal _ x => packetOk x.pkt
  | .signalAck _ x => packetOk x.pkt
  | .creditReturn _ _ reserve pool => decide (reserve.toNat ≤ 8192) && decide (pool.toNat ≤ 8192)
  | .probe _ x => packetOk x.pkt
  | .ident _ x => packetOk x.pkt
  | .time _ x => packetOk x.pkt
  | .memoryAccess a _ => accessOk a
  | .scrub l _ => lineOk l
  | .tgRunEnd _ rs => tgOk rs
  | .tallyMap o _ data => valueOk o data
  | .fwStageData o data => valueOk o data
  | .refuseToken o data => valueOk o data
  | .debugToken o data => valueOk o data
  | .entryWrite o _ _ data => valueOk o data
  | .readSeg o transfer _ => transferOk o transfer
  | .writeSeg o transfer seg _ data => segmentOk o transfer seg data
  | .transferEnd o transfer => transferOk o transfer
  | .next o _ _ => viaClelliul o
  | .identify o => viaClelliul o
  | .transferTimeout transfer => decide (transfer ≠ 0)
  | .bar2Access _ op => bar2Ok op
  | .clientAbort _ transfer => decide (transfer ≠ 0)
  | .vopNop _ _ | .ld _ _ | .st _ _ | .bcast _ _ | .add _ _ | .sub _ _ | .mul _ _ | .fma _ _ | .div _ _ | .sqrt _ _
  | .min _ _ | .max _ _ | .exp2 _ _ | .log2 _ _ | .rsqrt _ _ | .cvt _ _ | .merge _ _ | .join _ _ | .split _ _
  | .cmpLt _ _ | .cmpEq _ _ | .nonfinite _ _ | .redAdd _ _ | .tileDrained _ _ | .graderReport _ _
  | .conveyorSegment _ | .conveyorCredit _ _ | .rampDown _ _ | .rampStep _ _ | .haulComplete _ _ | .bedComplete _
  | .proofBlock _ _ | .tallySignal _ | .arrive _ _ | .vote _ | .exchangeRetry _ | .responseTimeout _
  | .packetTransmit _ | .frameNak _ _ | .laneFailed _ _ | .laneSpared _ _ _ _ | .fibreSpared _ _ _ | .linkRetrain _ _
  | .linkTrained _ | .trainingRetry _ | .probeRetry _ | .identHoldoff _ | .discoveryTimeout _ | .timeTick _
  | .rowRemapped _ _ _ _ | .channelRetrain _ _ | .channelLost _ _ | .reliefSwitch _ | .channelRelieved _
  | .deadlineMiss _ | .segmentHung _ | .teardownCutoff _ | .tornDown _ | .tenantSwitch _ _ | .resetDone
  | .resetEscalation | .mgmtCoreRestart _ _ | .chainStart _ _ | .chainHalt _ _ | .haulPause _ _ _
  | .haulUnpause _ _ _ | .haulCqHead _ _ _ _ | .coordCommit _ _ | .partJoin _ _ _ | .partRebind _ _ _
  | .portDisable _ _ _ | .stepAbandon _ _ _ | .recutRequest _ _ _ | .ckptRequest _ _ _ | .stepBlockInit _ _ _
  | .suspend _ _ _ _ | .reshape _ _ _ _ _ | .endShift _ _ _ _ | .resume _ _ _ _ | .shiftConfirm _ _ | .load _ _
  | .partAdmit _ _ | .commandReset _ _ | .engineReset _ _ _ _ | .partitionReset _ _ | .moduleReset _
  | .benchUnfence _ _ | .retrainRequest _ _ _ | .reliefClear _ _ _ | .tgStart _ _ | .tgStop _ _ | .faultLogClear _ _
  | .captureRequest _ _ | .retainedAdopt _ _ _ | .fwStageFrom _ _ | .fwInstall _ _ | .fwConfirm _ _
  | .attestNonce _ _ | .configHold _ _ | .configDefaults _ _ | .read _ _ _ | .writeSegInit _ _ _ _ _
  | .describe _ _ _ | .notice _ _ | .noticeRetry _ | .clientExpiry _ | .beaconLoss | .neighborSolicitation _ _
  | .echoRequest _ _ _ | .functionLevelReset | .pciePerstN | .perstRelease | .doeAttest _ | .doeAbort
  | .trayResetN _ _ | .powerUp _ | .bootStageEnd | .stageOverrun | .measurementEvaluation _ _ _ | .trip _ _ _
  | .beacon | .trainingFailed _ | .phaseFault _ => true

end Sys2Proof
end

