-- ==== Sys2Proof/Safety.lean ====
section
/-! DEFINITION. What counts as a safe run: a run that no fault or refusal ends, over fuses that never go back. -/

namespace Sys2Proof.Machine

/-- A command completes: it answers a next state. -/
def Completes (o : Host.Outcome State Fault Refusal) : Prop := ∃ t, o = .next t

/-- Every bit set in `a` is set in `b`. -/
def BitsKept (a b : Nat) : Prop := ∀ i, a.testBit i = true → b.testBit i = true

/-- Fuses as they can be after blowing more of them (R20, R508, R514): a fused value never goes back. -/
def Fuses.Onward (f g : Fuses) : Prop :=
  f.svnFloor ≤ g.svnFloor ∧ BitsKept f.keysRevoked g.keysRevoked ∧ BitsKept f.levels g.levels ∧ f.refuses ≤ g.refuses ∧
  f.serial = g.serial ∧ f.hwRevision = g.hwRevision ∧ f.deviceSeed = g.deviceSeed ∧ f.keyDigests = g.keyDigests

/-- Fuses in their ranges: the thermometer of 128 fuses (R508), the four key slots (R504), the 32 levels, the 8-bit count of
re-fuses, and the face entries in canonical form. -/
def Fuses.Legal (f : Fuses) : Prop :=
  f.svnFloor ≤ 128 ∧ f.keysRevoked < 16 ∧ f.levels < 2 ^ 32 ∧ f.refuses ≤ 255 ∧ SMap.wf (0 : Nat) f.faceRepair = true

/-- The invariant that every step keeps. -/
def State.Inv (s : State) : Prop := s.fuses.Legal

/-- The state with another module: fuses and queue as they were. -/
def State.withDev (s : State) (d : Dev) : State := { s with dev := d }

/-- All that the module holds beside its dictionary and its management services: time, draws, and the units of the dies, the
stacks, the ports, the partitions, recovery, security and the surroundings. -/
def Dev.units (d : Dev) :=
  ((d.powered, d.time, d.draws, d.seqs, d.benches, d.haul, d.haulStop), (d.tallies, d.mem, d.fabric, d.training),
    d.parts, d.faults, d.sec, d.env)

/-! A write of an entry that the checks of R459 accept, in one message or in segments. -/

/-- The request that writes the value `bs` to the entry of key `k`. -/
def writeReq (k : Nat) (bs : List Byte) : DictReq :=
  { service := 2, index := k / 256, sub := k % 256, segment := 0, transfer := 0, last := false, data := bs }

/-- The request that is answered for a write of `bs`: one WRITE where one message carries it, else the last WRITE_SEG of a
transfer opened for it (log 57). -/
def State.writeRequest (s : State) (o : Origin) (k : Nat) (bs : List Byte) : DictReq :=
  if bs.length ≤ messageBytes o then writeReq k bs
  else
    let n := (bs.length - 1) / messageBytes o
    { service := 5, index := 0, sub := 0, segment := n, transfer := s.dev.mgmt.nextTransfer, last := true
      data := bs.drop (messageBytes o * n) }

/-- The module as the request finds it: counted, or standing in the mailbox (R476), with the transfer opened where one is. -/
def State.arrived (s : State) (o : Origin) (k : Nat) (bs : List Byte) : Dev :=
  let d := s.dev.receive o (s.writeRequest o k bs)
  if bs.length ≤ messageBytes o then d else d.nextTransferId.2

/-- A transfer opens for the value where it needs one (R471, R472). -/
def State.Opens (s : State) (o : Origin) (k : Nat) (bs : List Byte) : Prop :=
  let d := s.dev.receive o (s.writeRequest o k bs)
  bs.length ≤ messageBytes o ∨
    (d.openRefused s.fuses (viaHost o) (k / 256) (k % 256) bs.length = none ∧ d.buffersFull (ownerOf o) = false ∧
     d.mgmt.transfers.any (fun t => t.write && decide (t.index = k / 256 ∧ t.subindex = k % 256)) = false)

/-- A write of `bs` to entry `k` by path `o` reaches its checks: the service answers, and the request is a new one. -/
def State.Reaches (s : State) (o : Origin) (k : Nat) (bs : List Byte) : Prop :=
  s.dev.powered = true ∧ s.dev.served = true ∧ s.dev.fresh o (s.writeRequest o k bs) = true ∧ s.Opens o k bs

/-- It reaches them, and no check of R459 refuses it. -/
def State.Accepts (s : State) (o : Origin) (k : Nat) (bs : List Byte) : Prop :=
  s.Reaches o k bs ∧ (s.arrived o k bs).writeRefused s.fuses (viaHost o) (k / 256) (k % 256) bs = none

/-- After an accepted write: the module as the write left it, with the request answered without an abort (R466, R476). -/
def State.written (s : State) (o : Origin) (k : Nat) (bs : List Byte) (d : Dev) : State :=
  { s with dev := d.answerReq o (s.writeRequest o k bs) (replyWith []) }

/-- Command `c` is that write: where R459 accepts the value `bs` for entry `k`, it completes, the effect `eff` is all that
happens beside the answer, and no fuse changes. -/
def State.Applies (s : State) (c : Instr) (o : Origin) (k : Nat) (bs : List Byte) (eff : Dev → Dev) : Prop :=
  s.Accepts o k bs → exec c s = .next (s.written o k bs (eff (s.arrived o k bs)))

end Sys2Proof.Machine
end

