-- ==== Sys2Proof/Certificates/Slice0/Obligations.lean ====
section
/-! DEFINITION. The statements for the provers: each says what a rule of the spec, or a decision of the model's log, makes true
of every state. -/

open Sys2Proof Sys2Proof.Machine

/-! Steps, the queue, power, fuses and reset. -/

/-- A step takes the command at the front of the queue and is that command's effect on the rest (log 1). -/
def Obligations.StepRunsFront : Prop :=
  ∀ (c : Instr) (q : List Instr) (s : State), step { s with pending := c :: q } = exec c { s with pending := q }

/-- On an empty queue the block idles (log 1, the model's choice): module time goes on by one nanosecond, or by two or none while
a correction is slewed in (R315), and nothing else changes. -/
def Obligations.StepIdles : Prop :=
  (∀ s : State, s.pending = [] → s.dev.powered = true → s.dev.fabric.slew = 0 →
    step s = .next { s with dev := { s.dev with time := (s.dev.time + 1) % 2 ^ 64 } }) ∧
  (∀ s : State, s.pending = [] → s.dev.powered = true → 0 < s.dev.fabric.slew →
    step s = .next { s with dev := { s.dev with
      time := (s.dev.time + 2) % 2 ^ 64, fabric := { s.dev.fabric with slew := s.dev.fabric.slew - 1 } } }) ∧
  (∀ s : State, s.pending = [] → s.dev.powered = true → s.dev.fabric.slew < 0 →
    step s = .next { s with dev := { s.dev with
      time := s.dev.time % 2 ^ 64, fabric := { s.dev.fabric with slew := s.dev.fabric.slew + 1 } } }) ∧
  ∀ s : State, s.pending = [] → s.dev.powered = false → step s = .next s

/-- No command reads or changes what waits behind it. -/
def Obligations.QueueUntouched : Prop :=
  ∀ (c : Instr) (s t : State), exec c s = .next t →
    t.pending = s.pending ∧ ∀ q : List Instr, exec c { s with pending := q } = .next { t with pending := q }

/-- Without power nothing but POWER_UP acts (the model's reading, log 76): a step over any other command only takes it from the
queue, or ends in the one fault of an access beyond the last position. -/
def Obligations.NoPowerNoEffect : Prop :=
  ∀ (c : Instr) (s : State), s.dev.powered = false → (∀ x, c ≠ .powerUp x) →
    exec c s = .next s ∨ exec c s = .fault .noSuchPosition

/-- R20: a fused value never goes back, whatever step the block takes. -/
def Obligations.FusesNeverGoBack : Prop :=
  ∀ s t : State, s.Inv → step s = .next t → s.fuses.Onward t.fuses

/-- The invariant: the fuses stay in their ranges and the face entries in canonical form over every step. -/
def Obligations.StepKeepsInv : Prop := ∀ s t : State, s.Inv → step s = .next t → t.Inv

/-- Only a confirmation of firmware, written to FW_CONFIRM, and the end of a module reset with an armed re-fuse change a fuse
(R20). -/
def Obligations.WhoBlowsFuses : Prop :=
  ∀ (c : Instr) (s t : State), exec c s = .next t → t.fuses ≠ s.fuses →
    (c = .resetDone ∧ ∃ r, s.dev.faults.run = some r ∧ r.refuse = true) ∨
    (∃ o v, c = .fwConfirm o v) ∨ (∃ o bs, c = .entryWrite o 0x8010 10 bs) ∨ (∃ o x g l bs, c = .writeSeg o x g l bs)

/-- The state after reset (R444 and the defaults of the entry cards; the fuses' values and the straps are the model's choice,
log 3): the module stands in STANDBY with every partition EMPTY, every chain IDLE, every tally 0, nothing waits, and the
invariant holds. -/
def Obligations.ResetState : Prop :=
  State.reset.Inv ∧ State.reset.pending = [] ∧ State.reset.dev.get kModuleState = 1 ∧
  (∀ p : Fin 4, State.reset.dev.pState p = psEmpty) ∧
  (∀ (k : ChainId) (u : Fin 96), (State.reset.dev.cursor k u).state = .idle) ∧
  (∀ t : Nat, State.reset.dev.tally t = Tally.zero) ∧
  Memory.wf State.reset.dev.mem.hbm = true ∧ (∀ a : Nat, State.reset.dev.memByte a = 0#8) ∧
  (∀ b : Nat, State.reset.dev.bench b = Bench.idle) ∧ State.reset.dev.fabric.ports = [] ∧ State.reset.dev.mgmt.out = []

/-! Words and memory. -/

/-- Every command word of R125 reads back the header and the body it was laid out from: no field map drops a bit or lets two
fields overlap. -/
def Obligations.CommandWordsRoundTrip : Prop :=
  ∀ h : CmdHeader, headerFits h →
    (∀ x, segmentFits x → headerOf (wordBits h (segmentBits x)) = h ∧ segmentOf (wordBits h (segmentBits x)) = x) ∧
    (∀ x, linkFits x → headerOf (wordBits h (linkBits x)) = h ∧ linkOf (wordBits h (linkBits x)) = x) ∧
    (∀ x, waitFits x → headerOf (wordBits h (waitBits x)) = h ∧ waitOf (wordBits h (waitBits x)) = x) ∧
    (∀ x, signalFits x → headerOf (wordBits h (signalBits x)) = h ∧ signalOf (wordBits h (signalBits x)) = x) ∧
    (∀ x, selectFits x → headerOf (wordBits h (selectBits x)) = h ∧ selectOf (wordBits h (selectBits x)) = x) ∧
    (∀ x, matmulFits x → headerOf (wordBits h (matmulBits x)) = h ∧ matmulOf (wordBits h (matmulBits x)) = x) ∧
    (∀ x, vectorFits x → headerOf (wordBits h (vectorBits x)) = h ∧ vectorOf (wordBits h (vectorBits x)) = x) ∧
    (∀ x, haulFits x → headerOf (wordBits h (haulBits x)) = h ∧ haulOf (wordBits h (haulBits x)) = x) ∧
    (∀ x, hopperFits x → headerOf (wordBits h (hopperBits x)) = h ∧ hopperOf (wordBits h (hopperBits x)) = x) ∧
    (∀ x, voteFits x → headerOf (wordBits h (voteBits x)) = h ∧ voteOf (wordBits h (voteBits x)) = x) ∧
    (∀ x, bedFits x → headerOf (wordBits h (bedBits x)) = h ∧ bedOf (wordBits h (bedBits x)) = x)

/-- Vector instructions (R153) and fabric packet headers (R290) read back what they were laid out from, with every reserved
field 0. -/
def Obligations.InstructionsAndPacketsRoundTrip : Prop :=
  (∀ x, vinstrFits x → vinstrOf (vinstrBits x) = x ∧ reservedBits (vinstrBits x) vinstrReserved = []) ∧
  (∀ x, packetFits x → packetOf (packetBits x) = x ∧ reservedBits (packetBits x) packetReserved = [])

/-- R235: the place of every working offset, written out: its granule's position, slot, channel, stack and pseudo-channel, the
move of a relieved pseudo-channel's granules, and the byte that a requester reads there. -/
def Obligations.HomesFollowTheFunction : Prop :=
  ∀ (d : Dev) (off : Nat), off < d.workingBytes →
    let g := off / 256
    let x := g / 768
    let c := (g % 768 + 389 * (x % 768)) % 768
    let n := c % 12
    let k := c / 12
    (d.get (kRelievedPc n) ≠ k ∨ d.qw + d.qb ≤ x → d.home off = (n, k, x)) ∧
    (d.get (kRelievedPc n) = k → x < d.qw + d.qb →
      (x % 63 < k → d.home off = (n, x % 63, d.qw + d.qb - d.rq + x / 63)) ∧
      (k ≤ x % 63 → d.home off = (n, x % 63 + 1, d.qw + d.qb - d.rq + x / 63))) ∧
    (∀ m i, i < m → (d.readMem off m)[i]? =
      some (Memory.byte d.mem.hbm (posKey (d.home (off + i)).1 (d.home (off + i)).2.1 (d.home (off + i)).2.2 ((off + i) % 256))))

/-- R235: the interleave, relief included, places every granule of the working region at a home of its own. -/
def Obligations.WorkingHomesDistinct : Prop :=
  ∀ (d : Dev) (a b : Nat), 1 ≤ d.mem.bedGib → d.mem.bedGib ≤ 24 → a < d.workingBytes → b < d.workingBytes →
    d.home a = d.home b → a / 256 = b / 256

/-- A write of working memory reads back, leaves every other working byte as it was and the memory in canonical form. -/
def Obligations.WorkingMemoryReadsBack : Prop :=
  ∀ (d : Dev) (off : Nat) (bs : List Byte) (p : Bool), 1 ≤ d.mem.bedGib → d.mem.bedGib ≤ 24 →
    off + bs.length ≤ d.workingBytes →
    (d.writeMem off bs p).readMem off bs.length = bs ∧
    (∀ a, a < d.workingBytes → a < off ∨ off + bs.length ≤ a → (d.writeMem off bs p).memByte a = d.memByte a) ∧
    (Memory.wf d.mem.hbm = true → Memory.wf (d.writeMem off bs p).mem.hbm = true)

/-! Writes of the entries that control something: each completes where R459 accepts it, with the effect named and nothing else
beside the answer. -/

/-- Chains (R139), haul channels (R181, R183, R184) and tally tables (R210). Coordinates, bindings and ports (R301, R312, R313,
R316) and the control of training steps (R341, R361, R368, R380). -/
def Obligations.ControlWrites : Prop :=
  ∀ (s : State) (o : Origin),
    (∀ k : ChainId, s.Applies (.chainStart o k) o (kChainCtrl k.p k.e k.c) [1#8]
      (fun d => if d.chainCode k = 0 then d.startChain k else d.resumeChain k)) ∧
    (∀ k : ChainId, s.Applies (.chainHalt o k) o (kChainCtrl k.p k.e k.c) [2#8] (fun d => d.haltChain k)) ∧
    (∀ (h : Fin 16) (ch : Fin 8), s.Applies (.haulPause o h ch) o (kHaulPause h)
      (toBytes (setBitTo (s.dev.get (kHaulPause h)) ch true) 1)
      (fun d => d.writePause h (setBitTo (s.dev.get (kHaulPause h)) ch true % 256))) ∧
    (∀ (h : Fin 16) (ch : Fin 8), s.Applies (.haulUnpause o h ch) o (kHaulPause h)
      (toBytes (setBitTo (s.dev.get (kHaulPause h)) ch false) 1)
      (fun d => d.writePause h (setBitTo (s.dev.get (kHaulPause h)) ch false % 256))) ∧
    (∀ (h : Fin 16) (ch : Fin 8) (v : Word32), s.Applies (.haulCqHead o h ch v) o (kHaulCqHead h ch) (toBytes v.toNat 4)
      (fun d => d.writeCqHead h ch v.toNat)) ∧
    (∀ (p : Fin 4) (data : List Byte), s.Applies (.tallyMap o p data) o (kTallyMap p) data (fun d => d.writeTallyMap p data)) ∧
    (∀ v : Byte, s.Applies (.coordCommit o v) o kCoordCommit (toBytes v.toNat 1) (fun d => d.commitCoords)) ∧
    (∀ (p : Fin 4) (v : BitVec 128), s.Applies (.partJoin o p v) o (kPartJoin p) (toBytes v.toNat 16)
      (fun d => d.bindPart p v.toNat)) ∧
    (∀ (p : Fin 4) (v : Word32), s.Applies (.partRebind o p v) o (kPartRebind p) (toBytes v.toNat 4)
      (fun d => d.rebind p v.toNat)) ∧
    (∀ (n : Fin 16) (v : Byte), s.Applies (.portDisable o n v) o (kPortDisable n) (toBytes v.toNat 1)
      (fun d => (d.setDisable n v.toNat).stored)) ∧
    (∀ (p : Fin 4) (v : Word32), s.Applies (.stepAbandon o p v) o (kStepAbandon p) (toBytes v.toNat 4)
      (fun d => d.abandonVote p)) ∧
    (∀ (p : Fin 4) (v : Word32), s.Applies (.recutRequest o p v) o (kRecutRequest p) (toBytes v.toNat 4)
      (fun d => d.recutRequested p v.toNat)) ∧
    (∀ (p : Fin 4) (v : Byte), s.Applies (.ckptRequest o p v) o (kCkptRequest p) (toBytes v.toNat 1) (fun d => d.ckptWarn (atPart p) 9 0)) ∧
    (∀ (p : Fin 4) (v : Byte), s.Applies (.stepBlockInit o p v) o (kStepBlockInit p) (toBytes v.toNat 1) (fun d => d.initBlock p))

/-- Shift requests and their confirmation (R399, R407 to R409), LOAD and ADMIT (R399, R411). -/
def Obligations.ShiftWrites : Prop :=
  ∀ (s : State) (o : Origin),
    (∀ (x : ShiftReq), x.p < 4 → x.action < 5 → x.mode < 8 → x.tenancy < 16 →
      (shiftReqBits x < 2 ^ 32 ∧ shiftReqOf (shiftReqBits x) = x)) ∧
    (∀ (p : Fin 4) (m : BitVec 3) (c : Bool),
      let x : ShiftReq := { tenancy := 0, confirm := c, mode := m.toNat, action := 1, p := p }
      s.Applies (.suspend o p m c) o kShiftRequest (toBytes (shiftReqBits x) 4) (fun d => d.shift (shiftReqBits x))) ∧
    (∀ (p : Fin 4) (m : BitVec 3) (c : Bool) (n : BitVec 4),
      let x : ShiftReq := { tenancy := n.toNat, confirm := c, mode := m.toNat, action := 2, p := p }
      s.Applies (.reshape o p m c n) o kShiftRequest (toBytes (shiftReqBits x) 4) (fun d => d.shift (shiftReqBits x))) ∧
    (∀ (p : Fin 4) (m : BitVec 3) (c : Bool),
      let x : ShiftReq := { tenancy := 0, confirm := c, mode := m.toNat, action := 3, p := p }
      s.Applies (.endShift o p m c) o kShiftRequest (toBytes (shiftReqBits x) 4) (fun d => d.shift (shiftReqBits x))) ∧
    (∀ (p : Fin 4) (m : BitVec 3) (c : Bool),
      let x : ShiftReq := { tenancy := 0, confirm := c, mode := m.toNat, action := 4, p := p }
      s.Applies (.resume o p m c) o kShiftRequest (toBytes (shiftReqBits x) 4) (fun d => d.shift (shiftReqBits x))) ∧
    (∀ v : Byte, s.Applies (.shiftConfirm o v) o kShiftConfirm (toBytes v.toNat 1) (fun d => d.release v.toNat)) ∧
    (∀ p : Fin 4, s.Applies (.load o p) o (kPartCtrl p) [1#8] (fun d => d.loadPart p)) ∧
    (∀ p : Fin 4, s.Applies (.partAdmit o p) o (kPartCtrl p) [2#8] (fun d => d.admitPart p))

/-- The four resets (R438 to R444), benches, pseudo-channels, relief and the traffic generator (R118, R261, R269, R270), the
fault log, captures and the retained bed (R420, R434, R447). Firmware, attestation and tokens (R506, R507, R510, R513, R515). -/
def Obligations.RecoveryAndFirmwareWrites : Prop :=
  ∀ (s : State) (o : Origin),
    (∀ k : ChainId,
      let w := resetReqBits { domain := 1, engine := k.e, clear := false, chain := k.c, p := k.p }
      s.Applies (.commandReset o k) o kResetRequest (toBytes w 4) (fun d => d.requestReset w)) ∧
    (∀ (p : Fin 4) (e : Byte) (c : Bool),
      let w := resetReqBits { domain := 2, engine := e.toNat, clear := c, chain := 0, p := p }
      s.Applies (.engineReset o p e c) o kResetRequest (toBytes w 4) (fun d => d.requestReset w)) ∧
    (∀ p : Fin 4,
      let w := resetReqBits { domain := 3, engine := 0, clear := false, chain := 0, p := p }
      s.Applies (.partitionReset o p) o kResetRequest (toBytes w 4) (fun d => d.requestReset w)) ∧
    (∀ w, w = resetReqBits { domain := 4, engine := 0, clear := false, chain := 0, p := 0 } →
      s.Applies (.moduleReset o) o kResetRequest (toBytes w 4) (fun d => d.requestReset w)) ∧
    (∀ v : Byte, s.Applies (.benchUnfence o v) o kBenchUnfence (toBytes v.toNat 1) (fun d => d.unfence v.toNat)) ∧
    (∀ (n : Fin 12) (v : Byte), s.Applies (.retrainRequest o n v) o (kRetrainRequest n) (toBytes v.toNat 1)
      (fun d => d.retrain (12 * v.toNat + n))) ∧
    (∀ (n : Fin 12) (v : Byte), s.Applies (.reliefClear o n v) o (kReliefClear n) (toBytes v.toNat 1)
      (fun d => d.reliefClear n)) ∧
    (∀ n : Fin 12, s.Applies (.tgStart o n) o (kTgCtrl n) [1#8] (fun d => d.tgStart n)) ∧
    (∀ n : Fin 12, s.Applies (.tgStop o n) o (kTgCtrl n) [2#8] (fun d => d.tgStop n)) ∧
    (∀ v : Byte, s.Applies (.faultLogClear o v) o kFaultLogClear (toBytes v.toNat 1) (fun d => d.clearLog)) ∧
    (∀ v : Byte, s.Applies (.captureRequest o v) o kCaptureRequest (toBytes v.toNat 1) (fun d => d.capture 0 0 0xFF 0)) ∧
    (∀ (p : Fin 4) (v : Byte), s.Applies (.retainedAdopt o p v) o (kRetainedAdopt p) (toBytes v.toNat 1)
      (fun d => d.adopt p)) ∧
    (∀ data : List Byte, s.Applies (.fwStageData o data) o kFwStageData data (fun d => d.stageData data)) ∧
    (∀ v : Word64, s.Applies (.fwStageFrom o v) o kFwStageFrom (toBytes v.toNat 8) (fun d => d.stageFrom v.toNat)) ∧
    (∀ v : Byte, s.Applies (.fwInstall o v) o kFwInstall (toBytes v.toNat 1) (fun d => d.install s.fuses)) ∧
    (∀ v : BitVec 256, s.Applies (.attestNonce o v) o kAttestNonce (toBytes v.toNat 32)
      (fun d => d.attest s.fuses v.toNat)) ∧
    (∀ data : List Byte, s.Applies (.refuseToken o data) o kRefuseToken data (fun d => d.armToken data)) ∧
    (∀ data : List Byte, s.Applies (.debugToken o data) o kDebugToken data (fun d => d.unlockDebug data))

/-- FW_CONFIRM (R508): the floor and the key slots that the running image revokes are fused, the running slot comes into force
with none pending, FW_STATE becomes IDLE, and nothing that the dies or the partitions hold changes. -/
def Obligations.ConfirmBlowsFuses : Prop :=
  ∀ (s : State) (o : Origin) (v : Byte), s.Accepts o kFwConfirm (toBytes v.toNat 1) →
    let x := imageDescOf s.dev.sec.runningDesc
    ∃ t, exec (.fwConfirm o v) s = .next t ∧
      t.fuses = { s.fuses with
        svnFloor := max s.fuses.svnFloor (min x.svnFloor 128), keysRevoked := s.fuses.keysRevoked ||| x.revoke } ∧
      t.dev.get kFwState = 0 ∧ t.dev.sec.slotInForce = s.dev.sec.runningSlot ∧ t.dev.sec.pendingValid = false ∧
      ((imageDescOf (s.dev.slotDesc (!s.dev.sec.runningSlot))).svn < t.fuses.svnFloor →
        t.dev.slotDesc (!s.dev.sec.runningSlot) = Dev.slotDesc (s.dev.eraseDesc (!s.dev.sec.runningSlot)) (!s.dev.sec.runningSlot)) ∧
      { t.dev with sec := s.dev.sec }.units = s.dev.units

/-- CONFIG_HOLD (R484): set, it only defers; cleared, every held value is committed before the write is answered.
CONFIG_DEFAULTS (R487): every RW STORED entry takes its default, and is committed unless commits are held; a port that
PORT_DISABLE held starts training (R316). -/
def Obligations.ConfigCommitsAndDefaults : Prop :=
  (∀ (s : State) (o : Origin) (v : Byte), s.Accepts o kConfigHold (toBytes v.toNat 1) →
     ∃ t, exec (.configHold o v) s = .next t ∧ t.dev.get kConfigHold = v.toNat ∧
       (v ≠ 0#8 ∨ s.dev.get kConfigState ≠ 1 →
         t.dev.get kConfigState = s.dev.get kConfigState ∧ t.dev.mgmt.confBody = s.dev.mgmt.confBody ∧
         t.dev.mgmt.confSlot = s.dev.mgmt.confSlot) ∧
       (v = 0#8 → s.dev.get kConfigState = 1 →
         t.dev.get kConfigState = 0 ∧ t.dev.mgmt.confSlot = 1 - s.dev.mgmt.confSlot ∧
         t.dev.get kConfigSeq = s.dev.slotSeq s.dev.mgmt.confSlot % 2 ^ 32 ∧
         SMap.get [] t.dev.mgmt.confBody t.dev.mgmt.confSlot = s.dev.configNow) ∧
       (∀ k, inConfig k = true → t.dev.get k = s.dev.get k) ∧ t.fuses = s.fuses ∧ t.dev.units = s.dev.units) ∧
  (∀ (s : State) (o : Origin) (v : Byte), s.Accepts o kConfigDefaults (toBytes v.toNat 1) →
     let d := s.arrived o kConfigDefaults (toBytes v.toNat 1)
     ∃ t, exec (.configDefaults o v) s = .next t ∧
       t = s.written o kConfigDefaults (toBytes v.toNat 1) ((List.range 16).foldl
         (fun e n => if d.get (kPortDisable n) = 1 then e.startTraining n else e) d.configDefaults) ∧
       ((∀ n : Fin 16, s.dev.get (kPortDisable n) ≠ 1) →
         (∀ k, inConfig k = true → t.dev.get k = dfltOf k) ∧
         t.dev.get kConfigState = (if s.dev.get kConfigHold = 1 then 1 else 0) ∧
         (s.dev.get kConfigHold ≠ 1 → t.dev.mgmt.confSlot = 1 - s.dev.mgmt.confSlot ∧
           SMap.get [] t.dev.mgmt.confBody t.dev.mgmt.confSlot = []) ∧ t.fuses = s.fuses ∧ t.dev.units = s.dev.units))

/-- R459: a write is checked and applied whole. Whatever the entry, an accepted one takes its effect and is answered; a refused
one is answered with its abort code and leaves only what the rules for joins, admissions and tokens leave (R312, R378, R512). -/
def Obligations.EntryWriteIsWhole : Prop :=
  ∀ (s : State) (o : Origin) (i : BitVec 16) (j : Byte) (bs : List Byte),
    (s.Accepts o (key i.toNat j.toNat) bs →
      let r := (s.arrived o (key i.toNat j.toNat) bs).applyWrite s.fuses i.toNat j.toNat bs
      exec (.entryWrite o i j bs) s =
        .next { s.written o (key i.toNat j.toNat) bs r.2 with fuses := r.1 }) ∧
    (∀ code, s.Reaches o (key i.toNat j.toNat) bs →
      (s.arrived o (key i.toNat j.toNat) bs).writeRefused s.fuses (viaHost o) i.toNat j.toNat bs = some code →
      let d := (s.arrived o (key i.toNat j.toNat) bs).refusalEffect s.fuses i.toNat j.toNat bs code
      exec (.entryWrite o i j bs) s =
        .next { s with dev := d.answerReq o (s.writeRequest o (key i.toNat j.toNat) bs) (replyAbort code) })

/-- The entries of lifts, graders, windows, hangs, memory shares, checkpoints, stocks, proofs and BAR2 have no behaviour of their
own. -/
def Sys2Proof.plainEntry (i : Nat) : Bool :=
  among i 0x6200 4 || among i 0x6330 4 || among i 0x5020 4 || among i 0x6020 4 || among i 0x4020 4 || among i 0x7030 4 ||
  among i 0x7010 4 || among i 0x6110 4 || decide (i = 0x2040)

/-- An entry with no behaviour of its own takes the value written, and of the rest only the CONFIG area's state (R484) and the
service's counters (R469) change. -/
def Obligations.PlainEntryTakesItsValue : Prop :=
  ∀ (s : State) (o : Origin) (i : BitVec 16) (j : Byte) (bs : List Byte), plainEntry i.toNat = true →
    s.Accepts o (key i.toNat j.toNat) bs →
    ∃ t, exec (.entryWrite o i j bs) s = .next t ∧ t.dev.get (key i.toNat j.toNat) = ofBytes bs ∧ t.fuses = s.fuses ∧
      (∀ k, k ≠ key i.toNat j.toNat → k / 256 ≠ 0x1030 → k / 256 ≠ 0x9038 → t.dev.get k = s.dev.get k) ∧
      t.dev.units = s.dev.units

/-! The services that read, transfer and describe. -/

/-- A request that the dictionary executes: the weighbridge answers (R490) and the request is a new one of the protocol. -/
def Sys2Proof.Executed (s : State) (o : Origin) (rq : DictReq) : Prop :=
  s.dev.powered = true ∧ s.dev.served = true ∧ s.dev.fresh o rq = true

/-- READ (R470): a value that one message carries is returned as it stands, a longer one opens a transfer of it where a buffer is
free, and a refusal answers its abort code. -/
def Obligations.ReadAnswers : Prop :=
  ∀ (s : State) (o : Origin) (i : BitVec 16) (j : Byte), Executed s o (plainReq 1 i.toNat j.toNat) →
    let rq := plainReq 1 i.toNat j.toNat
    let d := s.dev.receive o rq
    let v := d.valueOf s.fuses i.toNat j.toNat
    (∀ code, d.readRefused i.toNat j.toNat = some code →
      exec (.read o i j) s = .next { s with dev := d.answerReq o rq (replyAbort code) }) ∧
    (d.readRefused i.toNat j.toNat = none → v.length ≤ messageBytes o →
      exec (.read o i j) s = .next { s with dev := d.answerReq o rq (replyWith v) }) ∧
    (d.readRefused i.toNat j.toNat = none → messageBytes o < v.length → d.buffersFull (ownerOf o) = true →
      exec (.read o i j) s = .next { s with dev := d.answerReq o rq (replyAbort d.abTransferBusy) }) ∧
    (d.readRefused i.toNat j.toNat = none → messageBytes o < v.length → d.buffersFull (ownerOf o) = false →
      ∃ t, exec (.read o i j) s = .next t ∧
        t.dev.mgmt.transfers = s.dev.mgmt.transfers ++
          [{ id := s.dev.mgmt.nextTransfer, owner := ownerOf o, write := false, index := i.toNat, subindex := j.toNat, data := v,
             segs := [], got := [], lastSeg := none, length := v.length, crc := crc32 v, heard := s.dev.time }] ∧
        t.dev.units = s.dev.units ∧ t.fuses = s.fuses ∧ ∀ k, k / 256 ≠ 0x9038 → t.dev.get k = s.dev.get k)

/-- READ_SEG (R470): any segment of an open read transfer, as often as wanted; the segments in order make up the value, after
its CRC where the client reads by Clelliul. -/
def Obligations.SegmentsMakeTheValue : Prop :=
  (∀ (o : Origin) (t : Transfer), t.length = t.data.length →
    (List.range (segCount o false t.length)).flatMap (segPart o t) = (if viaHost o then [] else toBytes t.crc 4) ++ t.data) ∧
  ∀ (s : State) (o : Origin) (id n : BitVec 16) (t : Transfer),
    let rq := { plainReq 3 0 0 with segment := n.toNat, transfer := id.toNat }
    Executed s o rq → (s.dev.receive o rq).transferOf (ownerOf o) id.toNat = some t → t.write = false →
    n.toNat < segCount o false t.length →
    let r := { replyWith (segPart o t n.toNat) with last := decide (n.toNat + 1 = segCount o false t.length) }
    let d := (s.dev.receive o rq).putTransfer { t with heard := s.dev.time }
    exec (.readSeg o id n) s = .next { s with dev := d.answerReq o rq r }

/-- A segmented write (R471, R472): opened after the early checks, it holds its segments in any order, and the one that
completes the value has its length, its CRC and the checks of R459 judged and the value applied; TRANSFER_END closes a transfer
and applies nothing. -/
def Obligations.SegmentedWriteApplies : Prop :=
  (∀ (s : State) (o : Origin) (i : BitVec 16) (j : Byte) (length crc : Word32),
    let rq := { plainReq 4 i.toNat j.toNat with data := toBytes (length.toNat + 2 ^ 32 * crc.toNat) 8 }
    let d := s.dev.receive o rq
    Executed s o rq → d.openRefused s.fuses (viaHost o) i.toNat j.toNat length.toNat = none →
    d.buffersFull (ownerOf o) = false →
    d.mgmt.transfers.any (fun t => t.write && decide (t.index = i.toNat ∧ t.subindex = j.toNat)) = false →
    ∃ t, exec (.writeSegInit o i j length crc) s = .next t ∧
      t.dev.mgmt.transfers = s.dev.mgmt.transfers ++ [{ newTransfer o true i.toNat j.toNat [] length.toNat crc.toNat with
        id := s.dev.mgmt.nextTransfer, heard := s.dev.time }] ∧
      t.dev.units = s.dev.units ∧ t.fuses = s.fuses ∧ ∀ k, k / 256 ≠ 0x9038 → t.dev.get k = s.dev.get k) ∧
  (∀ (s : State) (o : Origin) (id n : BitVec 16) (last : Bool) (data : List Byte) (t : Transfer),
    let rq := { plainReq 5 0 0 with segment := n.toNat, transfer := id.toNat, last := last, data := data }
    let d := s.dev.receive o rq
    let t' : Transfer := { t with heard := s.dev.time, got := NSet.add t.got n.toNat, segs := SMap.set [] t.segs n.toNat data
                                  lastSeg := if last then some n.toNat else t.lastSeg }
    Executed s o rq → d.transferOf (ownerOf o) id.toNat = some t → t.write = true →
    n.toNat < segCount o true t.length →
    (t'.whole = none →
      exec (.writeSeg o id n last data) s = .next { s with dev := (d.putTransfer t').answerReq o rq (replyWith []) }) ∧
    (∀ v, t'.whole = some v → v.length = t.length → crc32 v = t.crc →
      (d.putTransfer t').writeRefused s.fuses (viaHost o) t.index t.subindex v = none →
      let r := (d.putTransfer t').applyWrite s.fuses t.index t.subindex v
      exec (.writeSeg o id n last data) s =
        .next { s with fuses := r.1, dev := (r.2.closeTransfer t.id).answerReq o rq (replyWith []) })) ∧
  (∀ (s : State) (o : Origin) (id : BitVec 16) (t : Transfer),
    let rq := { plainReq 6 0 0 with transfer := id.toNat }
    Executed s o rq → (s.dev.receive o rq).transferOf (ownerOf o) id.toNat = some t →
    exec (.transferEnd o id) s =
      .next { s with dev := ((s.dev.receive o rq).closeTransfer t.id).answerReq o rq (replyWith []) })

/-- DESCRIBE, NEXT and IDENTIFY answer and change nothing beside the service's counters (R457, R467, R474). -/
def Obligations.DescriptionsAnswer : Prop :=
  ∀ (s : State) (o : Origin) (i : BitVec 16) (j : Byte),
    (let rq := plainReq 7 i.toNat j.toNat
     let d := s.dev.receive o rq
     Executed s o rq → d.missing i.toNat j.toNat = none → d.bootRefused i.toNat = none →
     exec (.describe o i j) s =
       .next { s with dev := d.answerReq o rq (replyWith (toBytes (d.describeBits s.fuses i.toNat j.toNat) 16)) }) ∧
    (let rq := plainReq 8 i.toNat j.toNat
     let d := s.dev.receive o rq
     Executed s o rq →
     exec (.next o i j) s =
       .next { s with dev := d.answerReq o rq (replyWith (toBytes (d.nextKey i.toNat j.toNat) 4)) }) ∧
    (let rq := plainReq 9 0 0
     let d := s.dev.receive o rq
     Executed s o rq →
     exec (.identify o) s = .next { s with dev := d.answerReq o rq (replyWith (toBytes (d.identifyBits s.fuses) 48)) })

/-- Notices, idle transfers and silent clients (R468, R472, R473). The T1S segment (R463, R464): without a beacon the module
goes silent, with one it sends again; strap 0 stays off; it answers for its link-local address, and echo for that and all nodes,
while it may send. -/
def Obligations.NoticesAndSegment : Prop :=
  (∀ s : State, s.dev.powered = true →
     (∀ (c : Client) (q : BitVec 16), c = targetOf (s.dev.get kNoticeTarget) →
       exec (.notice c q) s = .next { s with dev := { s.dev with mgmt := { s.dev.mgmt with
         notices := s.dev.mgmt.notices.filter (fun x => decide (x.1 ≠ q.toNat)) } } }) ∧
     (∀ (q : BitVec 16) (r left sentAt : Nat),
       s.dev.mgmt.notices.find? (fun x => decide (x.1 = q.toNat)) = some (q.toNat, r, left, sentAt) →
       sentAt + 1000000 * s.dev.get kNoticeRetryMs ≤ s.dev.time →
       ∃ t, exec (.noticeRetry q) s = .next t ∧ t.fuses = s.fuses ∧ t.dev.units = s.dev.units ∧
         (0 < left →
           t.dev.mgmt.notices = s.dev.mgmt.notices.map (fun x => if x.1 = q.toNat then (q.toNat, r, left - 1, s.dev.time) else x) ∧
           (s.dev.get kT1sState = 2 → t.dev.mgmt.out = s.dev.mgmt.out ++ [.t1s (targetOf (s.dev.get kNoticeTarget))
             (clHeader 3 0x0A q.toNat 0xA000 3 128 0 0 false false) (toBytes r 128)])) ∧
         (left = 0 → t.dev.mgmt.notices = s.dev.mgmt.notices.filter (fun x => decide (x.1 ≠ q.toNat)) ∧
           t.dev.get kNoticesDropped = (s.dev.get kNoticesDropped + 1) % 2 ^ 64)) ∧
     (∀ (id : BitVec 16) (x : Transfer), s.dev.mgmt.transfers.find? (fun x => decide (x.id = id.toNat)) = some x →
       x.heard + 2000000000 ≤ s.dev.time →
       ∃ t, exec (.transferTimeout id) s = .next t ∧ t.fuses = s.fuses ∧ t.dev.units = s.dev.units ∧
         t.dev.mgmt.transfers = s.dev.mgmt.transfers.filter (fun x => decide (x.id ≠ id.toNat)) ∧
         t.dev.get kTransferTimeouts = (s.dev.get kTransferTimeouts + 1) % 2 ^ 64) ∧
     (∀ c : Client, exec (.clientExpiry c) s = .next { s with dev := { s.dev with mgmt := { s.dev.mgmt with
       clients := s.dev.mgmt.clients.filter (fun x => decide (x.c ≠ c) || decide (s.dev.time < x.heard + 10000000000)) } } }) ∧
     (∀ (c : Client) (id : BitVec 16) (x : Transfer), s.dev.transferOf (some c) id.toNat = some x →
       exec (.clientAbort c id) s = .next { s with dev := { s.dev with mgmt := { s.dev.mgmt with
         transfers := s.dev.mgmt.transfers.filter (fun y => decide (y.id ≠ x.id)) } } })) ∧
  (∀ s : State, s.dev.powered = true →
     (s.dev.get kT1sNodeId ≠ 0 → exec .beaconLoss s = .next { s with dev := s.dev.put kT1sState 1 }) ∧
     (s.dev.get kT1sNodeId ≠ 0 → exec .beacon s = .next { s with dev := s.dev.put kT1sState 2 }) ∧
     (s.dev.get kT1sNodeId = 0 → exec .beaconLoss s = .next s ∧ exec .beacon s = .next s) ∧
     (∀ src target, target.toNat = s.fuses.linkLocal → s.dev.get kT1sState = 2 →
       exec (.neighborSolicitation src target) s = .next { s with dev := s.dev.send (.neighborAdvert src) }) ∧
     (∀ src dst data, dst.toNat = s.fuses.linkLocal ∨ dst.toNat = allNodes → s.dev.get kT1sState = 2 →
       exec (.echoRequest src dst data) s = .next { s with dev := s.dev.send (.echoReply src data) }) ∧
     (∀ (c : Client) (h : Nat) (bs : List Byte), s.dev.get kT1sState ≠ 2 → (s.dev.sendT1s c h bs) = s.dev))

/-! Power, boot, the PCIe path and the surroundings. -/

/-- POWER_UP (R490, R491, R494): whatever stood before, stage 0 begins at time 0 with the straps sampled; the fuses, the fault
log, the captures and the flash's slots are kept, and what the dies and the stacks held is gone. -/
def Obligations.PowerUpStartsStageZero : Prop :=
  ∀ (x : BitVec 4) (s : State), ∃ t, exec (.powerUp x) s = .next t ∧ t.fuses = s.fuses ∧ t.pending = s.pending ∧
    t.dev.powered = true ∧ t.dev.time = 0 ∧ t.dev.get kBootStage = 0 ∧ t.dev.get kT1sNodeId = x.toNat ∧
    t.dev.get kT1sState = (if x = 0#4 then 0 else 1) ∧ t.dev.mgmt.perst = true ∧ t.dev.mgmt.pcieLink = false ∧
    t.dev.mgmt.transfers = [] ∧ t.dev.mgmt.clients = [] ∧ t.dev.mgmt.confBody = s.dev.mgmt.confBody ∧
    t.dev.mgmt.confSeq = s.dev.mgmt.confSeq ∧ t.dev.faults.log = s.dev.faults.log ∧
    t.dev.faults.captures = s.dev.faults.captures ∧ t.dev.seqs = Seqs.reset ∧ t.dev.haul = [] ∧ t.dev.tallies = Tallies.reset ∧
    t.dev.mem.hbm = [] ∧ t.dev.mem.poison = [] ∧ t.dev.mem.softRemap = s.dev.mem.softRemap ∧
    t.dev.mem.retired = s.dev.mem.retired ∧ t.dev.training = Training.reset ∧ t.dev.parts = [] ∧
    (∀ n : Fin 16, t.dev.get (kPortState n) = poDown)

/-- BOOT_STAGE_END (R490): each stage of the boot leads to the next; the ROM runs only an image that passes its checks (R500),
the keys are locked before the weighbridge starts (R501), an inlet or an input outside the envelope holds stage 4 (R492), and
with stage 9 the module stands in STANDBY (R495). STAGE_OVERRUN (R493): a stage after the identity that exceeds its limit halts
the power-up with the module FAILED and MOD_FATAL_N low; a ROM stage of the first slot starts the boot again with the other
slot, of the second enters recovery. -/
def Obligations.BootStagesAndOverruns : Prop :=
  (∀ s : State, s.dev.powered = true → s.dev.env.shutAt = none →
     let n := s.dev.get kBootStage
     ∃ t, exec .bootStageEnd s = .next t ∧ t.fuses = s.fuses ∧ t.dev.seqs = s.dev.seqs ∧ t.dev.haul = s.dev.haul ∧
       t.dev.tallies = s.dev.tallies ∧
       (n = 0 → t.dev.get kBootStage = 1) ∧
       (n = 1 → s.dev.imageCheck s.fuses s.dev.sec.bootSlot = 0 →
         t.dev.get kBootStage = 2 ∧ t.dev.sec.runningSlot = s.dev.sec.bootSlot) ∧
       (n = 2 → t.dev.get kBootStage = 3 ∧ t.dev.sec.identityLocked = true) ∧
       (n = 3 → t.dev.get kBootStage = 4) ∧
       (n = 4 → s.dev.outside = true → t.dev.get kBootStage = 4) ∧
       (n = 4 → s.dev.outside = false → t.dev.get kBootStage = 5) ∧
       (n = 5 → (∀ k : Fin 33, s.dev.railState k ≠ 3) → t.dev.get kBootStage = 6) ∧
       (n = 6 → t.dev.get kBootStage = 7) ∧ (n = 7 → t.dev.get kBootStage = 8) ∧
       (n = 8 → t.dev.get kBootStage = 9 ∧ t.dev.get kModuleState = 1)) ∧
  (∀ (s : State) (limit : Nat), s.dev.powered = true → s.dev.stageLimit = some limit → s.dev.env.stageAt + limit ≤ s.dev.time →
     ∃ t, exec .stageOverrun s = .next t ∧ t.fuses = s.fuses ∧ t.dev.seqs = s.dev.seqs ∧ t.dev.mem = s.dev.mem ∧
       (2 < s.dev.get kBootStage →
         t.dev.get kBootStage = 15 ∧ t.dev.get kModuleState = 4 ∧ t.dev.env.fatalLow = true ∧ t.dev.sec = s.dev.sec) ∧
       (1 ≤ s.dev.get kBootStage → s.dev.get kBootStage ≤ 2 → s.dev.sec.bootFailed = none →
         t.dev.get kBootStage = 1 ∧ t.dev.sec.bootSlot = !s.dev.sec.bootSlot) ∧
       (1 ≤ s.dev.get kBootStage → s.dev.get kBootStage ≤ 2 → s.dev.sec.bootFailed ≠ none → t.dev.get kBootStage = 14))

/-- PCIE_PERST_N resets the endpoint alone (R530): BAR2_BASE, the MSI-X table and the mailbox's transfer; its
release lets the link train once stage 2 has ended (R496). -/
def Obligations.EndpointReset : Prop :=
  ∀ s : State, s.dev.powered = true →
    (∃ t, exec .pciePerstN s = .next t ∧ t.fuses = s.fuses ∧ t.dev.units = s.dev.units ∧ t.dev.get kBar2Base = 0 ∧
      (∀ k, k ≠ kBar2Base → t.dev.get k = s.dev.get k) ∧ t.dev.mgmt.pcieLink = false ∧ t.dev.mgmt.msixTable = [] ∧
      t.dev.mgmt.clients = s.dev.mgmt.clients ∧ t.dev.mgmt.notices = s.dev.mgmt.notices ∧ t.dev.mgmt.out = s.dev.mgmt.out ∧
      ∀ x, x ∈ t.dev.mgmt.transfers ↔ x ∈ s.dev.mgmt.transfers ∧ x.owner ≠ none) ∧
    (let link := if 2 < s.dev.get kBootStage then true else s.dev.mgmt.pcieLink
     exec .perstRelease s =
       .next { s with dev := { s.dev with mgmt := { s.dev.mgmt with perst := false, pcieLink := link } } })

/-- BAR2 (R480): within working memory, a read returns the bytes in place, marked where a line of it is poisoned, and a write
replaces exactly its bytes; an access to a line that is held waits its turn (R245), and one past working memory, or of a LOST
pseudo-channel, is an Unsupported Request. -/
def Obligations.Bar2ReachesMemory : Prop :=
  ∀ (s : State) (off : Word32), s.dev.mgmt.pcieLink = true → s.dev.bar2Open = true →
    let a := s.dev.get kBar2Base + off.toNat
    (∀ n : BitVec 13, a + n.toNat ≤ s.dev.workingBytes → s.dev.blocked a n.toNat = false → s.dev.lostIn a n.toNat = none →
      ∃ t bad, exec (.bar2Access off (.read n)) s = .next t ∧
        t.dev.mgmt.out = s.dev.mgmt.out ++ [.bar2 (s.dev.readMem a n.toNat) bad] ∧
        ((s.dev.poisonIn a n.toNat).isSome = true → bad = true) ∧
        (s.dev.mem.carried = [] → bad = (s.dev.poisonIn a n.toNat).isSome) ∧
        t.dev.mgmt.aer = s.dev.mgmt.aer + (if bad = true then 1 else 0) ∧
        t.dev.mem.hbm = s.dev.mem.hbm ∧ t.dev.mem.poison = s.dev.mem.poison ∧ t.fuses = s.fuses ∧ t.dev.dict = s.dev.dict ∧
        t.dev.seqs = s.dev.seqs ∧ t.dev.tallies = s.dev.tallies ∧ t.dev.fabric = s.dev.fabric) ∧
    (∀ l : List Byte, a + l.length ≤ s.dev.workingBytes → s.dev.blocked a l.length = false → s.dev.lostIn a l.length = none →
      exec (.bar2Access off (.write l)) s = .next { s with dev := s.dev.writeMem a l false }) ∧
    (∀ op : Bar2Op, let n := (match op with | .read b => b.toNat | .write l => l.length)
      a + n ≤ s.dev.workingBytes →
      (s.dev.blocked a n = true → exec (.bar2Access off op) s = .next { s with dev := s.dev.hold a n (.host op) }) ∧
      (s.dev.blocked a n = false → (s.dev.lostIn a n).isSome = true →
        exec (.bar2Access off op) s = .next { s with dev := s.dev.send .bar2Unsupported })) ∧
    (∀ op : Bar2Op, s.dev.workingBytes < a + (match op with | .read b => b.toNat | .write l => l.length) →
      exec (.bar2Access off op) s = .next { s with dev := s.dev.send .bar2Unsupported })

/-- DOE (R511): ATTEST leaves the signed report and both certificates in the mailbox, an abort discards them, and nothing else
changes. -/
def Obligations.DoeReports : Prop :=
  ∀ (s : State) (nonce : BitVec 256),
    (s.dev.doeServed = true → ∃ t, exec (.doeAttest nonce) s = .next t ∧ t.fuses = s.fuses ∧ t.dev.units = s.dev.units ∧
      t.dev.dict = s.dev.dict ∧ { t.dev.mgmt with doe := [] } = { s.dev.mgmt with doe := [] } ∧
      t.dev.mgmt.doe = s.dev.reportBytes s.fuses nonce.toNat ++ fitBytes blockBytes s.dev.sec.aliasCert ++
        fitBytes blockBytes s.dev.sec.deviceCert) ∧
    (s.dev.powered = true → exec .doeAbort s = .next { s with dev := { s.dev with mgmt := { s.dev.mgmt with doe := [] } } })

/-- Measurements (R543 to R549): a reading is taken as the point's value with its extremes; a trip beyond stage 8 switches every
rail from k = 4 off, shuts the module down with its record and darkens the dies; a phase fault takes one phase of a rail out
(R539). -/
def Obligations.SurroundingsAct : Prop :=
  ∀ s : State, s.dev.powered = true →
    (∀ (pt : BitVec 16) (v : Word32), 3 ≤ s.dev.get kBootStage → s.dev.get kBootStage ≤ 9 → isPoint pt.toNat = true →
      s.dev.env.shutAt = none → s.dev.notEvaluated pt.toNat = false → railOf pt.toNat = none →
      let w := s.dev.sampleOf pt.toNat v.toNat
      let d := (s.dev.measured pt.toNat w).lifetime pt.toNat w
      exec (.measurementEvaluation pt v false) s = .next { s with dev := (d.judge pt.toNat w).envelopeNow } ∧
      ((s.dev.measured pt.toNat w).point pt.toNat).value = w ∧ ((s.dev.measured pt.toNat w).point pt.toNat).valid = true ∧
      (pt ≠ 0x13 → w = v.toNat)) ∧
    (∀ (pt : BitVec 16) (v : Word32) (x : Limit),
      (s.dev.pointLimits pt.toNat).find? (fun y => y.broken y.trip v.toNat) = some x →
      (∃ k : Fin 33, 4 ≤ k.val ∧ s.dev.railState k ≠ 0) → s.dev.get kBootStage = 9 → s.dev.env.shutAt = none →
      ∃ t, exec (.trip pt v false) s = .next t ∧ t.fuses = s.fuses ∧ t.dev.live = false ∧
        (∀ k : Fin 33, 4 ≤ k.val → t.dev.railState k = 0) ∧ t.dev.get kModuleState = 4 ∧ t.dev.get kEnvelopeState = 4 ∧
        t.dev.env.fatalLow = true ∧ t.dev.env.shutPoint = pt.toNat ∧ t.dev.mem.hbm = [] ∧ t.dev.seqs = Seqs.reset) ∧
    (∀ k : Fin 33, 0 < s.dev.phases k → s.dev.railState k ≠ 0 → phasesMin k < s.dev.phases k →
      let w := setFld (s.dev.get kRailPhases) (8 * k + 7) (8 * k) (s.dev.phases k - 1)
      exec (.phaseFault k) s = .next { s with dev := s.dev.put kRailPhases w })

/-! Deadlines, resets, teardown and proofs. -/

/-- A missed deadline (R422, R423): the segment is marked, the chain keeps running (R147), the count goes up by one, a record is
written for it, and the effects of its kind follow; while a pseudo-channel retrains no deadline passes (R262, in the model's
reading of log 151); HANG_AFTER past the deadline it is hung, once (R426). -/
def Obligations.MissedSegments : Prop :=
  ∀ (s : State) (k : ChainId) (x : Seg), s.dev.live = true →
    (s.dev.memHolds = true → exec (.deadlineMiss k) s = .next s) ∧
    (s.dev.memHolds = false →
      (s.dev.gauge k).find? (fun y => !y.missed && y.heldAt.isNone && decide (y.deadline ≤ s.dev.time)) = some x →
      let a := s.dev.laggard k x
      let d := s.dev.setGauge k (mapSeg (s.dev.gauge k) x.seq0 (fun y => { y with missed := true }))
      let d := (d.bump kDeadlineMisses 1).record (d.whereSeg k x a.1 a.2.1) 0x104 3 (missBody x a.2.2)
      exec (.deadlineMiss k) s = .next (s.withDev (d.missEffect k.p x.kind)) ∧
      d.seqs.cursors = s.dev.seqs.cursors ∧ ∀ y ∈ d.gauge k, y.seq0 = x.seq0 → y.missed = true) ∧
    ((s.dev.gauge k).find? (fun y => !y.hung && y.heldAt.isNone && decide (y.deadline + s.dev.get (kHangAfter k.p) ≤ s.dev.time)) =
        some x → s.dev.get (kHangAction k.p) = 0 →
      ∃ t, exec (.segmentHung k) s = .next t ∧ t.fuses = s.fuses ∧ t.dev.seqs.cursors = s.dev.seqs.cursors ∧
        t.dev.benches = s.dev.benches ∧ t.dev.haul = s.dev.haul ∧ t.dev.tallies = s.dev.tallies ∧
        (∀ y ∈ t.dev.gauge k, y.seq0 = x.seq0 → y.hung = true) ∧ t.dev.faults.captures ≠ [] ∧
        t.dev.faults.run = s.dev.faults.run)

/-- RESET_DONE (R446): a reset whose work is at rest ends with its effect, its record, RESET_STATUS DONE and no reset in
progress, or with the one in progress that a function-level reset brought beside it (log 148); an armed re-fuse follows a module reset alone (R514). A reset that exceeds its limit escalates to the next domain
(R446): a module reset fails for good, a partition reset becomes a module reset, and a smaller one is reported ESCALATED and
replaced. -/
def Obligations.ResetsEndOrEscalate : Prop :=
  (∀ (s : State) (r : ResetRun), s.dev.powered = true → s.dev.faults.run = some r → s.dev.resetReady r = true →
     (r.refuse = false →
       exec .resetDone s = .next { s with dev := (s.dev.resetEffect r).endReset r 0 } ∧
       ((s.dev.resetEffect r).endReset r 0).faults.run = s.dev.faults.next ∧
       ((s.dev.resetEffect r).endReset r 0).get kResetStatus = (if s.dev.faults.next = none then 3 else 2) ∧
       (r.domain = 4 → ((s.dev.resetEffect r).endReset r 0).get kModuleState =
           (if s.dev.env.fatalLow || s.dev.env.shutAt.isSome then 4 else 1) ∧
         ((s.dev.resetEffect r).endReset r 0).seqs = Seqs.reset ∧ ((s.dev.resetEffect r).endReset r 0).tallies = Tallies.reset ∧
         ((s.dev.resetEffect r).endReset r 0).mem.hbm = s.dev.mem.hbm)) ∧
     (r.refuse = true → ∃ t, exec .resetDone s = .next t ∧ t.dev.faults.run = s.dev.faults.next ∧ t.fuses.svnFloor = s.fuses.svnFloor ∧
       t.fuses.serial = s.fuses.serial ∧ (s.dev.sec.token = none → t.fuses = s.fuses) ∧
       ∀ w, s.dev.sec.token = some w → t.fuses.levels = s.fuses.levels ||| (tokenOf w).levelsAdd ∧
         t.fuses.refuses = min (s.fuses.refuses + 1) 255)) ∧
  ∀ (s : State) (r : ResetRun), s.dev.powered = true → s.dev.faults.run = some r →
    r.startedAt + s.dev.resetLimit r ≤ s.dev.time →
    let d := s.dev.endReset r 1
    let p := ((r.parts.head?).map Prod.fst).getD 0
    (r.domain = 4 → ∃ t, exec .resetEscalation s = .next t ∧ t.fuses = s.fuses ∧ t.dev.faults.run = none ∧
      t.dev.get kModuleState = 4 ∧ t.dev.env.fatalLow = true ∧ t.dev.get kResetStatus = 5 ∧ t.dev.seqs = s.dev.seqs) ∧
    (r.domain = 3 → exec .resetEscalation s = .next (s.withDev (s.dev.moduleReset rcEscalated))) ∧
    (r.domain = 2 → exec .resetEscalation s =
      .next (s.withDev ((d.capture 3 p 0xFF 0).partitionReset p rcEscalated 0 0 d.captureId))) ∧
    (r.domain = 1 → exec .resetEscalation s =
      .next (s.withDev ((d.capture 2 p r.engine 0).engineReset p r.engine rcEscalated false d.captureId)))

/-- The lines and the link that reset (R443, R531) and the management cores (R446): a qualified edge of TRAY_RESET_N, and no
other, is a module reset unless one is in progress; a function-level reset clears BAR2_BASE and the MSI-X table and resets the
partitions that can be. -/
def Obligations.ResetsFromOutside : Prop :=
  ∀ s : State, s.dev.powered = true →
    (∀ a b : BitVec 32, 10 ≤ a.toNat → 1 ≤ b.toNat → s.dev.get kModuleState ≠ 0 → s.dev.get kModuleState ≠ 4 →
      s.dev.faults.run = none →
      exec (.trayResetN a b) s = .next (s.withDev (s.dev.moduleReset rcTray)) ∧
      ((∀ p : Fin 4, s.dev.resettable p = false) →
        (s.dev.moduleReset rcTray).get kModuleState = 3 ∧ (s.dev.moduleReset rcTray).get kResetStatus = 2 ∧
        ∃ r, (s.dev.moduleReset rcTray).faults.run = some r ∧ r.domain = 4 ∧ r.cause = rcTray ∧ r.startedAt = s.dev.time)) ∧
    (∀ a b : BitVec 32, a.toNat < 10 ∨ b.toNat < 1 → exec (.trayResetN a b) s = .next s) ∧
    (∀ (a b : BitVec 32) (r : ResetRun), s.dev.faults.run = some r → r.domain = 4 → exec (.trayResetN a b) s = .next s) ∧
    (let d := s.dev.put kBar2Base 0
     let d := { d with mgmt := { d.mgmt with msixTable := [], msixPending := [], d3hot := false, busMaster := false } }
     let ps := (List.range 4).filter (fun p => d.resettable p)
     (ps = [] → exec .functionLevelReset s = .next (s.withDev d)) ∧
     (ps ≠ [] → s.dev.faults.run = none →
       let parts := ps.zipIdx.map (fun x => (x.1, (d.captureId + x.2 - 1) % 65535 + 1))
       let e := ps.foldl (fun d p => d.capture 3 p 0xFF 0) d
       exec .functionLevelReset s = .next (s.withDev (ps.foldl (fun d p => d.resetPart p 0 0) (e.startReset
         { domain := 3, cause := rcFlr, clear := false, refuse := false, discarded := false, parts := parts, engine := 0xFF, chain := 0
           startedAt := e.time }))))) ∧
    (∀ (c : Fin 2) (n : BitVec 16), 100 ≤ n.toNat →
      exec (.mgmtCoreRestart c n) s = .next { s with dev := s.dev.record noWhere 0x704 0 [(1, c.val), (16, n.toNat)] })

/-- Teardown (R409): what waits is aborted, and once nothing of the partition runs its binding, tallies and chains are cleared
and it is released, or waits for SHIFT_CONFIRM; what still runs after 20 ms, a BED_SNAPSHOT in progress excepted, is aborted.
TENANT_SWITCH (R404): where the resident tenant of a host is blocked and none of its grants is pending, the next tenant of the
host becomes resident, its image in the bench and the other's put away. -/
def Obligations.TeardownAndTenancy : Prop :=
  (∀ (s : State) (p : Fin 4) (x : Teardown), s.dev.powered = true → (s.dev.part p).teardown = some x → x.torn = false →
     let d := s.dev.drainWork p
     let e := ((((d.abortEngines p 0xFF).unbind p).clearAllTallies p true).restartQueues p).setTrain p Train.start
     let e := e.setBed p { e.bed p with ckptDue := none }
     let e := ((e.setPart p { e.part p with teardown := some { x with torn := true } }).setShift p 4).kickBed
     (d.workDone p = false → exec (.tornDown p) s = .next (s.withDev d)) ∧
     (d.workDone p = true → x.confirm = true → exec (.tornDown p) s = .next (s.withDev e)) ∧
     (d.workDone p = true → x.confirm = false → exec (.tornDown p) s = .next (s.withDev (e.release p))) ∧
     (x.startedAt + 20000000 ≤ s.dev.time →
       let c := ((s.dev.stopCkpt p).cutEngines p).kickBed
       exec (.teardownCutoff p) s =
         .next (s.withDev (c.setPart p { c.part p with teardown := some { x with cutoff := true } })))) ∧
  (∀ (d : Dev) (p : Nat) (x : Teardown), p < 4 → (d.part p).teardown = some x →
     (d.release p).pState p = x.endState ∧ ((d.release p).part p).teardown = none ∧
     (x.endState ≠ psRestoring → ((d.release p).part p).hosts = []) ∧
     (d.unbind p).get (kPartMpart p) = 0 ∧ (d.unbind p).get (kPartEpoch p) = 0 ∧ (d.unbind p).get (kPartJoinStatus p) = 0) ∧
  (∀ (s : State) (p : Fin 4) (h : Fin 96), s.dev.live = true →
     let f := s.dev.tenancy p
     let first := h * f
     let n := min (first + f) (s.dev.get (kPartLogicalBenches p)) - first
     let l := s.dev.residentOf p h
     let next := first + (l - first + 1) % n
     let b := s.dev.hostBench p l
     1 < n → h.val < (s.dev.part p).hosts.length → s.dev.tenantBlocked p l = true →
     s.dev.tallies.waits.any (fun x => s.dev.benchWait p l x.1 && x.2.latch) = false →
     let x := s.dev.bench b
     let d := ((s.dev.saveWaits p l).moveBench b (imagePlace p l)).moveBench (imagePlace p next) b
     let d := d.setBench b { d.bench b with faces := x.faces, vec := x.vec, ranPass := x.ranPass, replay := x.replay }
     let d := d.setPart p { d.part p with resident := SMap.set first (d.part p).resident h next }
     exec (.tenantSwitch p h) s = .next { s with dev := ((d.restoreWaits p next).endMarked).kickBench b } ∧
     first ≤ next ∧ next < first + n)

/-- PROOF_BLOCK (R427 to R431): the bench's proof ends and its sequencer goes on. A pass is noted for its step; a failure of a
sub-block that the lift runs marks the face and is reported; a poisoned line of the image ends the block INCONCLUSIVE whatever the
words would have been, its first such line recorded and the image written again. A verdict that the block cannot reach, of a
clean image inconclusive or of a sub-block the lift has not, has no effect (the model's choice, log 16). -/
def Obligations.ProofBlocksEnd : Prop :=
  ∀ (s : State) (b : Fin 96) (r : ProofResult) (k : ChainId) (step a l : Nat), s.dev.live = true →
    (s.dev.bench b).proof = some (k, step) → s.dev.tenantAt b = some (a, l) →
    let u := l - s.dev.liftFirst k.p k.e
    let d := (s.dev.setBench b { s.dev.bench b with proof := none }).proofUsed b
    let d := (d.setCursor k u { d.cursor k u with proof := false }).bump kProofRuns 1
    (d.bench b).proof = none ∧ (d.cursor k u).proof = false ∧
    (∀ line, s.dev.proofPoison k.p = some line →
      exec (.proofBlock b r) s =
        .next { s with dev := (d.record (d.proofWhere k u b) 0x604 0 [(44, line)]).writeProofImage k.p }) ∧
    (s.dev.proofPoison k.p = none →
      exec (.proofBlock b .pass) s = .next { s with dev := d.proofPass k.p b step } ∧
      (∀ addr, exec (.proofBlock b (.inconclusive addr)) s = .next s) ∧
      ∀ sub face element expected found,
        (s.dev.subBlock k sub.toNat = true → exec (.proofBlock b (.fail sub face element expected found)) s =
          .next { s with dev :=
            (d.markFace s.fuses b face).proofFail k u b sub.toNat face element.toNat expected.toNat found.toNat }) ∧
        (s.dev.subBlock k sub.toNat = false → exec (.proofBlock b (.fail sub face element expected found)) s = .next s))

/-! Chains: reading words, the control commands and the issue to the units. -/

/-- The next word is taken where R130, R140 and R159 let it be: in its chain's turn (R121), in the partition's allocation, served and
not poisoned, next in the sequence, neither skipped nor another bench's, without an offence and of the row's opcode; a word out of
sequence or outside the allocation faults the chain with its record and is not executed, and out of its turn none is read. -/
def Obligations.WordsAreCheckedFirst : Prop :=
  (∀ (d : Dev) (k : ChainId) (u op : Nat), d.mayRead k u = false ∨ d.turn k u = false → d.fetch k u op = .done d) ∧
  ∀ (d : Dev) (k : ChainId) (u op : Nat), d.mayRead k u = true → d.turn k u = true →
    let c := d.cursor k u
    let w := d.readNum c.pos 64
    let h := headerOf w
    (d.inAlloc k.p c.pos 64 = false → d.fetch k u op = .done (d.accessViolation (cmdAt k u c w) c.pos 0 0 0)) ∧
    (d.inAlloc k.p c.pos 64 = true → d.heldIn c.pos 64 = false → d.lostIn c.pos 64 = none → d.linePoisoned c.pos = false →
      (h.cmdSeq ≠ c.expSeq → d.fetch k u op =
        .done ((d.record (d.whereCmd (cmdAt k u c w)) 0x103 2 [(44, c.pos), (32, c.expSeq), (32, h.cmdSeq)]).faultChain k)) ∧
      (h.cmdSeq = c.expSeq → d.kindHeld k.p w = true → d.fetch k u op = .done d) ∧
      (h.cmdSeq = c.expSeq → d.kindHeld k.p w = false → c.skip = 0 → isLift k = false ∨ h.benchSel = 0x7F ∨ h.benchSel = u →
        offences d k (d.logicalOf k u) w = [] → c.atStart = decide (h.opcode = opSegment) →
        (h.opcode = opSelect → d.reachesLink c.pos (selectOf w).count = false) →
        h.opcode = op → d.fetch k u op = .word (cmdAt k u c w)))

/-- SEGMENT (R133, R144): the gauge is armed with the deadline of DL_MODE, the cursor passes the word with its kind, step and
segment, and a due proof block holds the bench (R427). -/
def Obligations.SegmentArms : Prop :=
  ∀ (s : State) (k : ChainId) (u : Fin 96) (c : Cmd), s.dev.live = true → s.dev.fetch k u opSegment = .word c →
    let b := segmentOf c.word
    let d := s.dev.armSeg k c.seq b
    let x := (pushOutst (d.cursor k u) c.seq c.word c.addr true).advance
    let e := d.setCursor k u { x with kind := b.segKind, step := b.step, segId := b.segId, seg0 := c.seq, atStart := false }
    exec (.segment k u) s = .next { s with dev := (e.beginProof k u b).settle k u } ∧
    (e.cursor k u).pos = (s.dev.cursor k u).pos + 64 ∧ (e.cursor k u).expSeq = ((s.dev.cursor k u).expSeq + 1) % 2 ^ 32 ∧
    ((∀ y ∈ s.dev.gauge k, y.seq0 ≠ c.seq) → ∃ y ∈ e.gauge k, y.seq0 = c.seq ∧ y.kind = b.segKind ∧ y.missed = false ∧
      y.deadline = (if b.dlMode = 1 then b.deadline
        else s.dev.time + (if 1 < s.dev.tenancy k.p then b.deadline * s.dev.get (kShrinkDlScale k.p) / 16 else b.deadline)))

/-- LINK (R135, R138): the segment's commands end with it, and the chain follows NEXT_ADDR, halts there, or polls while NEXT_VALID
is 0; POLL_INTERVAL after its last reading a polling chain reads the word again. -/
def Obligations.LinkFollowsOrPolls : Prop :=
  (∀ (s : State) (k : ChainId) (u : Fin 96) (c : Cmd), s.dev.live = true → s.dev.fetch k u opLink = .word c →
    let x := pushOutst (s.dev.cursor k u) c.seq c.word c.addr false
    let d := s.dev.setCursor k u { x with atLink := true }
    let d := d.setGauge k (mapSeg (d.gauge k) x.seg0 (fun y => { y with endSeq := some c.seq }))
    exec (.link k u) s = .next { s with dev := (d.settle k u).followLink k u }) ∧
  (∀ (s : State) (k : ChainId) (u : Fin 96), s.dev.live = true →
    let x := s.dev.cursor k u
    x.state = .polling → s.dev.unitLive k u = true → s.dev.tearing k.p = false → s.dev.heldIn x.pos 64 = false →
    s.dev.lostIn x.pos 64 = none → s.dev.linePoisoned x.pos = false →
    x.polledAt + (s.dev.takenOf k).1 ≤ s.dev.time →
    exec (.linkPoll k u) s = .next { s with dev := s.dev.followLink k u }) ∧
  ∀ (d : Dev) (k : ChainId) (u : Nat),
    let x := d.cursor k u
    let b := linkOf (d.readNum x.pos 64)
    x.haltReq = false →
    (b.nextValid = 0 → d.followLink k u = d.setCursor k u { x with state := .polling, polledAt := d.time }) ∧
    (b.nextValid ≠ 0 → d.followLink k u = Dev.drainCheck (Dev.settle (d.setCursor k u { x with
      state := if b.halt = 1 then .halted else .running
      pos := b.nextAddr * 64, expSeq := (x.expSeq + 1) % 2 ^ 32, atLink := false, atStart := true
      outst := setOutst x.outst x.expSeq (fun o => { o with fin := true }) }) k u) k.p)

/-- The cursor past a control command that it has issued, with the command still to complete (R140). -/
def Sys2Proof.issued (d : Dev) (c : Cmd) : Dev :=
  d.setCursor c.k c.u { (pushOutst (d.cursor c.k c.u) c.seq c.word c.addr false).advance with ctl := some c }

/-- NOP, WAIT and SIGNAL (R131, R148) past ORDERED (R129): a header wait holds the command at its sequencer; without one a NOP
has been executed and completes with its report, a WAIT stands waiting for its tally, and a SIGNAL sets out in its turn. SELECT
(R149) with its decision word in bench store or in device memory: 0 skips the guarded words, any other value executes them, and a
RERUN that executes them extends the deadline (R146); a decision word that is held is waited for. -/
def Obligations.ControlCommandsIssue : Prop :=
  (∀ (s : State) (k : ChainId) (u : Fin 96) (c : Cmd), s.dev.live = true → s.dev.orderOk c = true →
     let d := issued s.dev c
     (s.dev.fetch k u opNop = .word c → (headerOf c.word).opcode = opNop →
       ((headerOf c.word).waitKind ≠ 0 → exec (.nop k u) s = .next { s with dev := d }) ∧
       ((headerOf c.word).waitKind = 0 → exec (.nop k u) s = .next { s with dev := d.ctlRan c })) ∧
     (s.dev.fetch k u opWait = .word c → (headerOf c.word).opcode = opWait →
       ((headerOf c.word).waitKind ≠ 0 → exec (.wait k u) s = .next { s with dev := d }) ∧
       ((headerOf c.word).waitKind = 0 →
         exec (.wait k u) s = .next { s with dev := d.setCursor c.k c.u { d.cursor c.k c.u with ctl := some { c with released := true } } })) ∧
     (s.dev.fetch k u opSignal = .word c → (headerOf c.word).opcode = opSignal →
       ((headerOf c.word).waitKind ≠ 0 → exec (.signal k u) s = .next { s with dev := d }) ∧
       ((headerOf c.word).waitKind = 0 →
         exec (.signal k u) s = .next { s with dev := (d.mapOutst c (fun o => { o with ready := true })).settle c.k c.u }))) ∧
  (∀ (s : State) (k : ChainId) (u : Fin 96) (c : Cmd), s.dev.live = true → s.dev.fetch k u opSelect = .word c →
     (headerOf c.word).opcode = opSelect → s.dev.orderOk c = true → (headerOf c.word).waitKind = 0 →
     let b := selectOf c.word
     let d := issued s.dev c
     let pl := d.unitPlace c.k c.u
     (b.dev = 1 → s.dev.heldIn b.decisionAddr 4 = true → exec (.select k u) s = .next s) ∧
     ∀ v : Nat,
       (b.dev ≠ 1 ∧ d.storePoisoned pl b.decisionAddr = false ∧ v = d.storeNum pl b.decisionAddr 4) ∨
       (b.dev = 1 ∧ s.dev.heldIn b.decisionAddr 4 = false ∧ d.inAlloc c.k.p b.decisionAddr 4 = true ∧
         d.lostIn b.decisionAddr 4 = none ∧ d.linePoisoned b.decisionAddr = false ∧ v = d.readNum b.decisionAddr 4) →
       (v = 0 → exec (.select k u) s = .next { s with dev :=
         (Dev.ctlDone (d.setCursor c.k c.u { d.cursor c.k c.u with skip := b.count }) c).settle c.k c.u }) ∧
       (v ≠ 0 → b.rerun ≠ 1 → exec (.select k u) s = .next { s with dev := (d.ctlDone c).settle c.k c.u }) ∧
       (v ≠ 0 → b.rerun = 1 → exec (.select k u) s = .next { s with dev := ((d.rerun c).ctlDone c).settle c.k c.u }))

/-- Commands for a unit (R140): in order, and with room in the unit's queue, they join its end, the cursor passes the word, and
the unit is looked at: a bench's two queues hold four, an exchange or bed engine's two, a haul channel's one. The three bed
commands (R236, R377): with room in the partition's bed queue and the region list in its allocation they join its end. -/
def Obligations.UnitsTakeCommands : Prop :=
  (∀ (s : State) (k : ChainId) (u : Fin 96) (c : Cmd), s.dev.live = true → s.dev.orderOk c = true →
     let pl := s.dev.unitPlace c.k c.u
     let b := s.dev.bench pl
     let h := c.k.e.val - 0x10
     let ch := (headerOf c.word).channel
     let x := { s.dev.train c.k.p with xq := (s.dev.train c.k.p).xq ++ [c] }
     (s.dev.fetch k u opMatmul = .word c → b.matQ.length < 4 →
       exec (.matmul k u) s = .next { s with dev := ((s.dev.push c).setBench pl { b with matQ := b.matQ ++ [c] }).kickBench pl }) ∧
     (s.dev.fetch k u opVector = .word c → b.vecQ.length < 4 →
       exec (.vector k u) s = .next { s with dev := ((s.dev.push c).setBench pl { b with vecQ := b.vecQ ++ [c] }).kickBench pl }) ∧
     (s.dev.fetch k u opHaul = .word c → (s.dev.chan h ch).queued = none →
       s.dev.sideViolation c.k.p (haulOf c.word).src = none → s.dev.sideViolation c.k.p (haulOf c.word).dst = none →
       let y := { s.dev.chan h ch with queued := some c }
       exec (.haul k u) s = .next { s with dev := ((s.dev.push c).setChan h ch y).kickHaul h ch }) ∧
     (s.dev.fetch k u opHopper = .word c → (s.dev.train c.k.p).xq.length < 2 → s.dev.exchangeViolation c.k.p c = none →
       exec (.xchgHopper k u) s = .next { s with dev := ((s.dev.push c).setTrain c.k.p x).kickExchange c.k.p }) ∧
     (s.dev.fetch k u opVote = .word c → (s.dev.train c.k.p).xq.length < 2 → s.dev.exchangeViolation c.k.p c = none →
       exec (.xchgVote k u) s = .next { s with dev := ((s.dev.push c).setTrain c.k.p x).kickExchange c.k.p })) ∧
  (∀ (s : State) (k : ChainId) (u : Fin 96) (c : Cmd), s.dev.live = true → s.dev.orderOk c = true →
     (s.dev.bed c.k.p).q.length < 2 →
     s.dev.inAlloc c.k.p (bedOf c.word).regionList (16 * (bedOf c.word).regionCount) = true →
     let d := ((s.dev.push c).setBed c.k.p { s.dev.bed c.k.p with q := (s.dev.bed c.k.p).q ++ [c] }).kickBed
     (s.dev.fetch k u opSnapshot = .word c → exec (.bedSnapshot k u) s = .next { s with dev := d }) ∧
     (s.dev.fetch k u opRestore = .word c → exec (.bedRestore k u) s = .next { s with dev := d }) ∧
     (s.dev.fetch k u opStream = .word c → exec (.bedStream k u) s = .next { s with dev := d }))

/-! Benches and transfers at work. -/

/-- TILE_DRAINED (R88, R97 to R100): the oldest tile of a bench (R107), in DRAIN and for no conveyor, is converted, written and
reported, its slots are free again and its command is finished; a tile for a conveyor is sent on where the neighbour's inbox has
a credit (R104), and stays otherwise; a HELD tile first adds the sum that has arrived, in the order expected (R103); a tile that
is not the oldest stays. Conveyors (R102 to R104): the oldest segment for a bench arrives and leaves the flight, and a
returned credit counts up to two. -/
def Obligations.TilesAndConveyors : Prop :=
  (∀ (s : State) (b : Fin 96) (i : Fin 8) (c : Cmd), s.dev.live = true →
     let x := s.dev.slot b i
     let m := matmulOf c.word
     x.cmd = some c →
     (s.dev.isOldest b i = false → exec (.tileDrained b i) s = .next s) ∧
     (s.dev.isOldest b i = true → x.state = .held → s.dev.sumArrived b m = true → s.dev.strayTile b i m = none →
       exec (.tileDrained b i) s = .next { s with dev := (s.dev.takeSum b i c).drainSlot b i c }) ∧
     (s.dev.isOldest b i = true → x.state = .drain →
     (m.convPos ≠ 1 → m.convPos ≠ 2 →
       exec (.tileDrained b i) s = .next { s with dev := (s.dev.drainTile b x c).tileEnd b c }) ∧
     (m.convPos = 1 ∨ m.convPos = 2 → s.dev.canSend c = true →
       exec (.tileDrained b i) s = .next { s with dev := (s.dev.sendTile b x c).tileEnd b c }) ∧
     (m.convPos = 1 ∨ m.convPos = 2 → s.dev.canSend c = false → exec (.tileDrained b i) s = .next s))) ∧
  (∀ (s : State) (b : Fin 96), s.dev.live = true →
     (∀ x, s.dev.benches.convFlight.find? (fun y => s.dev.hosts b y.dst) = some x →
       let d := { s.dev with benches := { s.dev.benches with convFlight := s.dev.benches.convFlight.erase x } }
       exec (.conveyorSegment b) s = .next { s with dev := Dev.segmentArrives d x }) ∧
     (∀ (f : Fin 4) x, s.dev.benches.creditFlight.find? (fun y => s.dev.hosts b y.1 && decide (y.2 = f.val)) = some x →
       ∃ t, exec (.conveyorCredit b f) s = .next t ∧ t.fuses = s.fuses ∧
         t.dev.benches.creditFlight = s.dev.benches.creditFlight.erase x ∧
         t.dev.convCredits (x.1 / 96) (x.1 % 96) f = min 2 (s.dev.convCredits (x.1 / 96) (x.1 % 96) f + 1) ∧
         t.dev.benches.store = s.dev.benches.store ∧ t.dev.mem = s.dev.mem ∧ t.dev.dict = s.dev.dict ∧ t.dev.seqs = s.dev.seqs))

/-- RAMP_DOWN (R93, R120): out of FILL with no command at its head, the unit of a bench enters RAMP_DOWN at the level it has, and
the event is counted; nothing else of the module changes. RAMP_STEP (R94): a level at a time to RESTING at 0 or to FILL at 8; where
no command can start, nothing but the unit's activity changes. Both complete. -/
def Obligations.RampsStep : Prop :=
  (∀ (s : State) (b : Fin 96) (w : ActUnit), s.dev.live = true → (s.dev.act b w).state = .fill → s.dev.headed b w = false →
    ∃ t, exec (.rampDown b w) s = .next t ∧
      (t.dev.act b w).state = .rampDown ∧ (t.dev.act b w).level = (s.dev.act b w).level ∧
      t.dev.get kRampDownEvents = (s.dev.get kRampDownEvents + 1) % 2 ^ 64 ∧ t.pending = s.pending ∧ t.fuses = s.fuses ∧
      (∀ k, k ≠ kRampDownEvents → t.dev.get k = s.dev.get k) ∧
      (∀ b' w', (b', w') ≠ (b.val, w) → t.dev.act b' w' = s.dev.act b' w') ∧
      t.dev.benches.slots = s.dev.benches.slots ∧ t.dev.benches.store = s.dev.benches.store ∧ t.dev.mem = s.dev.mem ∧
      t.dev.seqs = s.dev.seqs ∧ t.dev.tallies = s.dev.tallies ∧ t.dev.haul = s.dev.haul ∧ t.dev.fabric = s.dev.fabric) ∧
  (∀ (s : State) (b : Fin 96) (w : ActUnit), s.dev.live = true →
    let e := s.dev.setAct b w (s.dev.act b w).ramp
    ∃ t, exec (.rampStep b w) s = .next t ∧ t.dev = e.kickBench b ∧ t.fuses = s.fuses ∧ t.pending = s.pending ∧
      e.act b w = (s.dev.act b w).ramp ∧ { e with benches := s.dev.benches } = s.dev ∧
      ((s.dev.act b w).state = .rampDown → 1 < (s.dev.act b w).level →
        e.act b w = { state := .rampDown, level := (s.dev.act b w).level - 1 }) ∧
      ((s.dev.act b w).state = .rampDown → (s.dev.act b w).level ≤ 1 → e.act b w = { state := .resting, level := 0 }) ∧
      ((s.dev.act b w).state = .rampUp → (s.dev.act b w).level < 7 →
        e.act b w = { state := .rampUp, level := (s.dev.act b w).level + 1 }) ∧
      ((s.dev.act b w).state = .rampUp → 7 ≤ (s.dev.act b w).level → e.act b w = { state := .fill, level := 8 })) ∧
  ∀ (s : State) (b : Fin 96) (w : ActUnit), s.dev.live = true → (s.dev.bench b).matQ = [] → (s.dev.bench b).vecQ = [] →
    ∃ t, exec (.rampStep b w) s = .next t ∧ t.dev = s.dev.setAct b w (s.dev.act b w).ramp

/-- GRADER_REPORT (R348, R349): the report's sums join the grader's; short of EXPECT_TILES nothing else happens, and with the last
tile the grader decides. -/
def Obligations.GradersSum : Prop :=
  ∀ (s : State) (p : Fin 4) (g : Fin 64) (r : Report), s.dev.live = true →
    s.dev.training.reports.find? (fun y => decide (y.p = p.val) && decide (y.g = g.val)) = some r →
    let e := s.dev.graderEntry p g
    let x := s.dev.grader p g
    let x := { x with tiles := x.tiles + 1, elements := x.elements + r.elements, clip := x.clip + r.clip
                      uflow := x.uflow + r.uflow, amax := max x.amax r.amax, flags := x.flags ||| r.flags }
    let d := { s.dev with training := { s.dev.training with reports := s.dev.training.reports.erase r } }
    (e.enable = true → x.tiles < e.expect → exec (.graderReport p g) s = .next { s with dev := d.setGrader p g x }) ∧
    (e.enable = true → e.expect ≤ x.tiles → exec (.graderReport p g) s = .next { s with dev := d.decide_ p g e x }) ∧
    (e.enable = false → exec (.graderReport p g) s = .next { s with dev := d })

/-- HAUL_COMPLETE (R175 to R181): a transfer whose read-back has returned ends by what it found: OK, OK_POISONED or
READBACK_POISONED, or READBACK_ERROR with the chain FAULTED. BED_COMPLETE (R375, R377): the command in hand ends with its copies
made and its state digest set, and the next may start. -/
def Obligations.TransfersComplete : Prop :=
  (∀ (s : State) (h : Fin 16) (ch : Fin 8) (c : Cmd) (back : Nat × Bool), s.dev.live = true →
     let x := s.dev.chan h ch
     x.cur = some c → x.state = .closing → x.lastAcked = true → x.ended = false →
     (x.readback = some back ∨ x.readback = none ∧ (haulOf c.word).dst.space ≠ 2 ∧ s.dev.localBack c.k.p (haulOf c.word) = some back) →
     exec (.haulComplete h ch) s = .next { s with dev := s.dev.haulEnd h ch c back } ∧
     (back.1 ≠ stOk → s.dev.haulEnd h ch c back =
       (((s.dev.endBad h ch 0x21 (haulOf c.word).backLine (haulOf c.word).dstUnit (haulOf c.word).dstSpace x.guardSent).faultChain c.k).settle
         c.k c.u).kickHaul h ch)) ∧
  (∀ (s : State) (p : Fin 4) (r : BedRun), s.dev.live = true → (s.dev.bed p).run = some r →
     let b := bedOf r.cmd.word
     let rs := r.regions.map regionOf
     let op := (headerOf r.cmd.word).opcode
     (op = opStream → r.acked = true → exec (.bedComplete p) s = .next { s with dev :=
       ((((s.dev.setStateDigest p b.step (s.dev.statePoisoned p false r.bad rs) (s.dev.stateDigestOf p false rs)).bedDone
         p).voteIfDue p).finish r.cmd none).kickBed }) ∧
     (op = opSnapshot → s.dev.bedHeld rs = false → s.dev.bedLost rs = none → exec (.bedComplete p) s = .next { s with dev :=
       (((((s.dev.snapshotEnd p r).bedDone p).voteIfDue p).finish r.cmd none).snapshotBoundary p).kickBed }) ∧
     (op = opRestore → s.dev.bedHeld rs = false → s.dev.bedLost rs = none → exec (.bedComplete p) s = .next { s with dev :=
       ((((((stripesOf rs).foldl (fun d x => d.copyStripe p true r.bad x) s.dev).bedDone p).voteIfDue p).finish r.cmd
         none).snapshotBoundary p).kickBed }))

/-! The vector unit. -/

/-- The element-wise operations of R154 with their codes and rows. -/
def Sys2Proof.arithmeticRows : List (Nat × (Fin 96 → VOperands → Instr)) :=
  [(0x10, .add), (0x11, .sub), (0x12, .mul), (0x13, .fma), (0x14, .div), (0x15, .sqrt), (0x16, .min), (0x17, .max), (0x18, .exp2),
   (0x19, .log2), (0x1A, .rsqrt)]

/-- Every vector instruction of R154 with its code. -/
def Sys2Proof.vectorRows : List (Nat × (Fin 96 → VOperands → Instr)) :=
  arithmeticRows ++ [(0x00, .vopNop), (0x01, .ld), (0x02, .st), (0x03, .bcast), (0x20, .cvt), (0x21, .merge), (0x22, .join),
    (0x23, .split), (0x30, .cmpLt), (0x31, .cmpEq), (0x32, .nonfinite), (0x38, .redAdd)]

/-- The lanes that take part (R153). -/
def Sys2Proof.Active (s : State) (b : Fin 96) (o : VOperands) : Nat → Bool := laneOn (b2n o.maskEn) (s.dev.vmaskReg b o.vmask)

/-- The element format that VFMT selects (R153). -/
def Sys2Proof.formatOf (o : VOperands) : Fmt := (Fmt.ofCode o.vfmt).getD .fp32

/-- ADD to RSQRT (R70 to R72, R154, R555): each writes VD alone, element by element, and a masked-out lane keeps VD. Of every
vector row, an instruction that is malformed changes nothing (the model's reading, log 84), nor does one on a bench that is out of
use (R116). -/
def Obligations.VectorArithmetic : Prop :=
  (∀ x ∈ vectorRows, ∀ (s : State) (b : Fin 96) (o : VOperands), s.dev.live = true →
    vinstrOffences [] (vinstrFor x.1 o) ≠ [] ∨ s.dev.outOfUse b = true → exec (x.2 b o) s = .next s) ∧
  ∀ x ∈ arithmeticRows, ∀ (s : State) (b : Fin 96) (o : VOperands), s.dev.live = true → s.dev.outOfUse b = false →
    vinstrOffences [] (vinstrFor x.1 o) = [] →
    exec (x.2 b o) s = .next (s.withDev (s.dev.setVreg b o.vd (mergeLanes (Active s b o) (s.dev.vreg b o.vd)
      (vArith (formatOf o) x.1 (s.dev.vreg b o.va) (s.dev.vreg b o.vb) (s.dev.vreg b o.vc)))))

/-- What a lane reads after a merge: the new value where it takes part, the old one elsewhere. A register put together again
from its elements in any view (R153). -/
def Obligations.LanesAndViews : Prop :=
  (∀ (on : Nat → Bool) (old new : List Word32) (i : Nat), old.length = new.length → i < old.length →
     (mergeLanes on old new)[i]? = if on i then new[i]? else old[i]?) ∧
  (∀ (bits : Nat) (r : List Word32), bits = 8 ∨ bits = 16 ∨ bits = 32 → packView bits r.length (viewOf bits r) = r)

/-- NOP, LD, ST and BCAST (R153, R154, R258, R555): LD fills VD from bench store and ST writes the active lanes' bytes, at the pitch
of VSTRIDE, and clears the marks of the lines it writes whole (R111); BCAST repeats the element at VADDR. -/
def Obligations.VectorMemory : Prop :=
  ∀ (s : State) (b : Fin 96) (o : VOperands), s.dev.live = true → s.dev.outOfUse b = false →
    let at_ := laneAddr o.vaddr.toNat o.vstride.toNat
    let unit := match s.dev.tenantAt b with | some t => t.2 | none => 0
    (vinstrOffences [] (vinstrFor 0x00 o) = [] → exec (.vopNop b o) s = .next s) ∧
    (vinstrOffences [] (vinstrFor 0x01 o) = [] →
      let pieces := ((List.range 1024).filter (Active s b o)).map (fun i => (at_ i, 4))
      let new := (List.range 1024).map (fun i => BitVec.ofNat 32 (s.dev.storeNum b (at_ i) 4))
      exec (.ld b o) s = .next (s.withDev ((s.dev.consumeLoad (s.dev.benchWhere b) b unit pieces).setVreg b o.vd
        (mergeLanes (Active s b o) (s.dev.vreg b o.vd) new))) ∧
      (s.dev.poisonedOf b pieces = [] → s.dev.consumeLoad (s.dev.benchWhere b) b unit pieces = s.dev)) ∧
    (vinstrOffences [] (vinstrFor 0x02 o) = [] →
      let es := (s.dev.vreg b o.va).zipIdx.filter (fun e => Active s b o e.2)
      exec (.st b o) s = .next (s.withDev ((es.foldl
        (fun d e => d.writeStore b (at_ e.2) (toBytes e.1.toNat 4) false) s.dev).cleanLines b
          (es.map (fun e => (at_ e.2, 4)))))) ∧
    (vinstrOffences [] (vinstrFor 0x03 o) = [] →
      let f := formatOf o
      let e := List.replicate (perLane f.bits) (s.dev.storeNum b o.vaddr.toNat f.bytes)
      exec (.bcast b o) s = .next (s.withDev ((s.dev.consumeLoad (s.dev.benchWhere b) b unit [(o.vaddr.toNat, f.bytes)]).setVreg b
        o.vd (mergeLanes (Active s b o) (s.dev.vreg b o.vd) (List.replicate 1024 (BitVec.ofNat 32 (packLane f.bits e)))))))

/-- CVT, MERGE, JOIN and SPLIT (R72, R154, R555): conversions between parts, the selector, and the halves of 32-bit lanes.
CMP_LT, CMP_EQ, NONFINITE and RED_ADD (R73, R154, R555): the first three write a mask register, the last element 0 of VD with
the others +0. -/
def Obligations.VectorMovesAndTests : Prop :=
  (∀ (s : State) (b : Fin 96) (o : VOperands), s.dev.live = true → s.dev.outOfUse b = false →
     let on := Active s b o
     let old := s.dev.vreg b o.vd
     let x := s.dev.vreg b o.va
     let y := s.dev.vreg b o.vb
     (vinstrOffences [] (vinstrFor 0x20 o) = [] →
       let f := formatOf o
       let g := (Fmt.ofCode o.vb).getD .fp32
       exec (.cvt b o) s = .next (s.withDev (s.dev.setVreg b o.vd
         (putPart f.bits o.pd on old ((getPart g.bits o.ps x).map (cvtElem g f (signed 8 o.vscale.toNat))))))) ∧
     (vinstrOffences [] (vinstrFor 0x21 o) = [] →
       exec (.merge b o) s = .next (s.withDev (s.dev.setVreg b o.vd (mergeLanes (bit (s.dev.vmaskReg b o.vmask)) y x)))) ∧
     (vinstrOffences [] (vinstrFor 0x22 o) = [] →
       let joined := (List.zip (getPart 16 o.ps x) (getPart 16 o.ps y)).map (fun e => BitVec.ofNat 32 (e.1 * 2 ^ 16 + e.2))
       exec (.join b o) s = .next (s.withDev (s.dev.setVreg b o.vd (mergeLanes on old joined)))) ∧
     (vinstrOffences [] (vinstrFor 0x23 o) = [] →
       let d := s.dev.setVreg b o.vd (putPart 16 o.pd on old (x.map (fun w => w.toNat / 2 ^ 16)))
       let low := x.map (fun w => w.toNat % 2 ^ 16)
       exec (.split b o) s = .next (s.withDev (d.setVreg b o.vc (putPart 16 o.pd on (d.vreg b o.vc) low))))) ∧
  (∀ (s : State) (b : Fin 96) (o : VOperands), s.dev.live = true → s.dev.outOfUse b = false →
     let on := Active s b o
     let f := formatOf o
     let old := s.dev.vmaskReg b o.vd
     let x := s.dev.vreg b o.va
     let y := s.dev.vreg b o.vb
     (vinstrOffences [] (vinstrFor 0x30 o) = [] → exec (.cmpLt b o) s = .next (s.withDev (s.dev.setVmask b o.vd
       (mergeMask on old (laneTest f (fun p q => Val.lt (decodeScalar f p) (decodeScalar f q)) x y))))) ∧
     (vinstrOffences [] (vinstrFor 0x31 o) = [] → exec (.cmpEq b o) s = .next (s.withDev (s.dev.setVmask b o.vd
       (mergeMask on old (laneTest f (fun p q => Val.eq (decodeScalar f p) (decodeScalar f q)) x y))))) ∧
     (vinstrOffences [] (vinstrFor 0x32 o) = [] → exec (.nonfinite b o) s = .next (s.withDev (s.dev.setVmask b o.vd
       (mergeMask on old (laneTest f (fun p _ => !(decodeScalar f p).isFinite) x x))))) ∧
     (vinstrOffences [] (vinstrFor 0x38 o) = [] → exec (.redAdd b o) s = .next (s.withDev (s.dev.setVreg b o.vd
       (BitVec.ofNat 32 (redAdd f on x) :: List.replicate 1023 0#32)))))

/-! Tallies, votes and barriers. -/

/-- No wait has been ended by an overflow of its tally. -/
def Sys2Proof.NoWaitEnded (d : Dev) : Prop := ∀ y ∈ d.tallies.waits, y.2.ended = false

/-- TALLY_SIGNAL (R196, R199, R203, R211, R214): a signal on its way reaches its home, leaves the flight, is added and evaluated; past
2^32 − 1 it saturates, marks the tally OVERFLOWED and ends the waits there; for an unmapped identifier it is dropped and recorded;
one of an old epoch is dropped and counted. A SIGNAL completes with its arrival. -/
def Obligations.SignalsReachTheirHome : Prop :=
  (∀ (s : State) (n : Nat) (x : Signal), s.dev.live = true → s.dev.tallies.flight[n]? = some x →
    let e := { s.dev with tallies := { s.dev.tallies with flight := s.dev.tallies.flight.eraseIdx n } }
    let d := if x.epoch = s.dev.get (kPartEpoch x.p) then Dev.applySignal e x else e.bump kStaleSignals 1
    ∃ t, exec (.tallySignal n) s = .next t ∧ t.fuses = s.fuses ∧ t.pending = s.pending ∧
      (x.cmd = none → t.dev = d.endMarked) ∧
      (∀ c, x.cmd = some c → x.completes = false → t.dev = d.endMarked) ∧
      (∀ c, x.cmd = some c → x.completes = true → t.dev = ((d.ctlDone c).settle c.k c.u).endMarked) ∧
      (NoWaitEnded s.dev → x.cmd = none → x.epoch ≠ s.dev.get (kPartEpoch x.p) →
        t.dev.tallies = { s.dev.tallies with flight := s.dev.tallies.flight.eraseIdx n } ∧
        t.dev.get kStaleSignals = (s.dev.get kStaleSignals + 1) % 2 ^ 64 ∧ t.dev.mem = s.dev.mem ∧ t.dev.seqs = s.dev.seqs) ∧
      (∀ h, s.dev.tallies.waits = [] → x.cmd = none → x.epoch = s.dev.get (kPartEpoch x.p) → s.dev.phys x.p x.vt = some h →
        (s.dev.tally h).count + x.count ≤ 0xFFFFFFFF → s.dev.ownTakers h = [] →
        (t.dev.tally h).count = (s.dev.tally h).count + x.count ∧
        (∀ u, u ≠ h → t.dev.tally u = s.dev.tally u) ∧
        t.dev.tallies.flight = s.dev.tallies.flight.eraseIdx n ∧ t.dev.mem = s.dev.mem ∧ t.dev.seqs = s.dev.seqs ∧
        t.dev.fabric = s.dev.fabric)) ∧
  ∀ (d : Dev) (x : Signal),
    (∀ t, d.phys x.p x.vt = some t → 0xFFFFFFFF < (d.tally t).count + x.count →
      ((d.applySignal x).tally t).count = 0xFFFFFFFF ∧ ((d.applySignal x).tally t).overflowed = true ∧
      (∀ u, u ≠ t → (d.applySignal x).tally u = d.tally u)) ∧
    (∀ t, d.phys x.p x.vt = some t → (d.tally t).count + x.count ≤ 0xFFFFFFFF → (d.tally t).overflowed = true →
      ((d.applySignal x).tally t).count = (d.tally t).count + x.count ∧ (d.applySignal x).tallies.waits = d.tallies.waits) ∧
    (d.phys x.p x.vt = none → (d.applySignal x).tallies = d.tallies ∧
      (d.applySignal x).get kUnmappedSignals = (d.get kUnmappedSignals + 1) % 2 ^ 64)

/-- Waiting points (R127, R199, R202, R206): a wait is posted at its tally's home and evaluated at once, and ends at once
where the tally is OVERFLOWED; an unmapped tally makes the command malformed; a released wait is withdrawn and its command starts; a wait that times out, or stands on an overflowed tally, is
withdrawn, faults its chain and leaves the command undone. -/
def Obligations.WaitsAtTheirPoints : Prop :=
  ∀ (s : State) (w : Waiter) (c : Cmd), s.dev.live = true → s.dev.pointCmd w = some c →
    (∀ x t, s.dev.posted (pointId w) = false → s.dev.tearing w.p = false → s.dev.waitSpec c = some x → s.dev.phys w.p x.vt = some t →
      exec (.waitPost w) s = .next (s.withDev (((s.dev.setWait (pointId w)
        { vt := x.vt, pt := t, kind := x.kind, thresh := x.thresh, timeout := x.timeout, postedAt := s.dev.time, latch := false
          ended := (s.dev.tally t).overflowed }).evaluate t).endMarked))) ∧
    (∀ x, s.dev.posted (pointId w) = false → s.dev.tearing w.p = false → s.dev.waitSpec c = some x → s.dev.phys w.p x.vt = none →
      exec (.waitPost w) s = .next (s.withDev ((s.dev.malformed c x.bit 0xFF).dropPoint w c))) ∧
    (w.kind.val ≠ 6 ∨ w.sub.val ≠ 1 → (s.dev.waitAt (pointId w)).latch = true → s.dev.tearing w.p = false →
      s.dev.ctlHeld c = false →
      exec (.waitRelease w) s = .next (s.withDev ((s.dev.setWait (pointId w) Wait.none).startPoint w c))) ∧
    (let x := s.dev.waitAt (pointId w)
     s.dev.posted (pointId w) = true → x.latch = false → x.ended = true ∨ x.postedAt + x.timeout ≤ s.dev.time →
     let t := s.dev.tally x.pt
     let d := (s.dev.bump kTallyTimeouts 1).record (s.dev.whereCmd c) 0x201 2
       [(12, x.vt), (14, x.pt), (16, pointId w), (2, x.kind), (32, x.thresh), (64, x.timeout), (32, t.count), (1, b2n t.overflowed),
        (64, x.postedAt)]
     exec (.tallyTimeout w) s = .next (s.withDev (((d.setWait (pointId w) Wait.none).faultChain c.k).dropPoint w c)))

/-- TALLY_MAP (R210): afterwards every identifier of the partition below the table's length translates by the entry written, and
every tally it maps stands at 0. -/
def Obligations.TallyMapTranslates : Prop :=
  ∀ (d : Dev) (p v : Nat) (bs : List Byte), p < 4 → v < 4096 → v < (halves bs).length →
    ((d.writeTallyMap p bs).mapEntry p v = (halves bs)[v]?.getD 0) ∧
    (∀ t, (d.writeTallyMap p bs).phys p v = some t → (d.writeTallyMap p bs).tally t = Tally.zero)

/-- ARRIVE (R219, R222, R223): a granted agent releases its slot at once where it is local, with the next generation, or sends one
ARRIVE on its plane's port with the exchange data acknowledged, and the slot is in flight. RELEASE (R222, R224): accepted for a slot
in flight of the same tree and generation it releases it, any other is counted stale. VOTE (R356 to R358): the vote of a running
XCHG_VOTE is sent at its moment, to fail where a cause holds, as one signal to the leaf tally of the vote slot, and not before. -/
def Obligations.BarriersArriveAndRelease : Prop :=
  (∀ (s : State) (p : Fin 4) (i : Fin 64) (payload : Nat), s.dev.live = true →
    SMap.get none s.dev.tallies.granted (64 * p + i) = some payload →
    let e := s.dev.barrier p i
    let g := s.dev.get (kBarrierGen p i)
    let d := { s.dev with tallies := { s.dev.tallies with
      granted := SMap.set none s.dev.tallies.granted (64 * p + i) none
      inFlight := NSet.add s.dev.tallies.inFlight (64 * p + i) } }
    (e.tree = 0xFFFF →
      ∃ t, exec (.arrive p i) s = .next t ∧ t.dev = (d.releaseSlot p i g payload 1 0).endMarked ∧ t.fuses = s.fuses ∧
        t.pending = s.pending ∧
        (NoWaitEnded s.dev → (s.dev.train p).voteSent = none →
          (∀ h, s.dev.phys p e.release = some h → (s.dev.tally h).count + 1 ≤ 0xFFFFFFFF) →
          t.dev.get (kBarrierGen p i) = (g + 1) % 2 ^ 32)) ∧
    (e.tree ≠ 0xFFFF → s.dev.anyReq (fun r => isExchange p r.what) = false → s.dev.portAdmitted e.plane = true →
      NoWaitEnded s.dev →
      ∃ t, exec (.arrive p i) s = .next t ∧ t.fuses = s.fuses ∧ SMap.get none t.dev.tallies.granted (64 * p + i) = none ∧
        NSet.mem t.dev.tallies.inFlight (64 * p + i) = true ∧
        t.dev.get kBarrierArrivals = (s.dev.get kBarrierArrivals + 1) % 2 ^ 64 ∧ t.dev.mem = s.dev.mem ∧ t.dev.seqs = s.dev.seqs ∧
        ∃ pkt, SMap.get [] (t.dev.port e.plane).txq vlCollective = SMap.get [] (s.dev.port e.plane).txq vlCollective ++ [pkt])) ∧
  (∀ (s : State) (n : Fin 16) (x : Incoming) (a : Dev) (c : Nat × Nat) (p : Nat) (h : PacketHeader), s.dev.live = true →
    s.dev.accept n x = (a, some c) → a.arrival n ptBarrier x.pkt = .take p h →
    let b := ofBytes x.pkt.payload
    fld b 127 120 = 2 →
    let d := a.releaseArrives p (fld b 111 96) (fld b 95 64) (fld b 63 32) (fld b 31 16) (fld b 119 112)
    ∃ t, exec (.release n x) s = .next t ∧ t.dev = d.endMarked.leaveBuffer n (packetHeader x.pkt).vl c.1 c.2 ∧ t.fuses = s.fuses ∧
      t.pending = s.pending ∧
      ((∀ i : Fin 64, (a.barrier p i).enable = false ∨ (a.barrier p i).tree ≠ fld b 111 96 ∨
          NSet.mem a.tallies.inFlight (64 * p + i) = false ∨ a.get (kBarrierGen p i) ≠ fld b 95 64) →
        d = a.bump kStaleReleases 1)) ∧
  ∀ (s : State) (p : Fin 4), s.dev.live = true →
    let d := s.dev.inboxCheck p
    (∃ t, exec (.vote p) s = .next t ∧ t.dev = (s.dev.voteIfDue p).shadowCheck p ∧ t.fuses = s.fuses ∧ t.pending = s.pending) ∧
    ((d.train p).vote = none → ∃ t, exec (.vote p) s = .next t ∧ t.dev = d) ∧
    ∀ v, (d.train p).vote = some v → (d.train p).shadowWait = false →
      let late := (d.gauge v.cmd.k).any (fun y =>
        decide (y.segId = v.cmd.segId) && decide (y.step = v.cmd.step) && decide (y.deadline ≤ d.time)) && !d.memHolds
      let bad := d.failCause p v.step v.forceFail || late
      (v.sent = false → d.isMember p = true → bad = true ∨ d.causesKnown p v.step = true →
        ∃ t x, exec (.vote p) s = .next t ∧ t.fuses = s.fuses ∧ (t.dev.train p).voteSent = some v.step ∧
          t.dev.tallies.flight = d.tallies.flight ++ [x] ∧ x.p = p.val ∧ x.count = 1 ∧
          (d.get (kVoteSlot p) < 64 → x.vt = (d.barrier p (d.get (kVoteSlot p))).leaf) ∧
          x.payload = d.voteWord p v.step bad false ∧
          t.dev.get kFailVotes = (if bad = true then (d.get kFailVotes + 1) % 2 ^ 64 else d.get kFailVotes)) ∧
      (v.sent = true ∨ d.isMember p = false ∨ (bad = false ∧ d.causesKnown p v.step = false) →
        ∃ t, exec (.vote p) s = .next t ∧ t.dev = d)

/-! The fabric. -/

/-- A packet is taken only on a trained, ADMITTED port, from a machine partition that is allowed, well formed, for a bound
partition and of its epoch, judged in that order; else it is dropped, and a request answered by its reason (R295, R296, R303,
R311). Before that its frames are accepted (R283, R286): a bad one is asked for again, one accepted before is discarded, and a new
one takes its credits, its lane's reserve first. -/
def Obligations.PacketsAreJudgedInOrder : Prop :=
  (∀ (d : Dev) (n : Nat) (x : Incoming), d.linked n = true →
    let b := d.bump (kFecCorrected n) x.corrected.toNat
    let vl := (packetHeader x.pkt).vl
    (x.state = .crc → d.accept n x = (b.tell n (.nak x.seq.toNat), none)) ∧
    (∀ i l, x.state = .codeword i l → d.accept n x = ((b.tell n (.nak x.seq.toNat)).badWord n i l, none)) ∧
    (x.state = .good → NSet.mem (d.port n).rxSeen x.seq.toNat = true → d.accept n x = (b, none)) ∧
    (x.state = .good → NSet.mem (d.port n).rxSeen x.seq.toNat = false →
      ∃ e own shared, d.accept n x = (e, some (own, shared)) ∧ own + shared ≤ creditCost x.pkt ∧
        SMap.get 0 (e.port n).granted vl + own = SMap.get 0 (d.port n).granted vl ∧
        (e.port n).grantedPool + shared = (d.port n).grantedPool ∧
        (0 < shared → own = SMap.get 0 (d.port n).granted vl) ∧
        (x.pkt.payload.length ≤ 4096 → NSet.mem (e.port n).rxSeen x.seq.toNat = true))) ∧
  ∀ (d : Dev) (n : Nat) (pkt : Packet), d.linked n = true →
    let h := packetHeader pkt
    (d.portAdmitted n = false →
      d.arrival n h.ptype pkt = .drop ((d.bump (kNotAdmittedDrops n) 1).answerIf n h stNotAdmitted)) ∧
    (d.portAdmitted n = true → d.mpartAllowed h.mpart = false → d.arrival n h.ptype pkt = .drop (d.fenceDrop n h)) ∧
    (d.portAdmitted n = true → d.mpartAllowed h.mpart = true → malformedPacket pkt = true →
      d.arrival n h.ptype pkt = .drop (d.malformedDrop n h)) ∧
    (d.portAdmitted n = true → d.mpartAllowed h.mpart = true → malformedPacket pkt = false →
      (d.boundTo h.mpart = none → d.arrival n h.ptype pkt = .drop (d.answerIf n h stNotAdmitted)) ∧
      (∀ p, d.boundTo h.mpart = some p → h.epoch ≠ d.get (kPartEpoch p) → d.arrival n h.ptype pkt = .drop (d.staleDrop h)) ∧
      (∀ p, d.boundTo h.mpart = some p → h.epoch = d.get (kPartEpoch p) → d.arrival n h.ptype pkt = .take p h))

/-- Requests that are taken (R217, R245, R289, R292, R338): a WRITE, a READ_REQ, a SIGNAL and an EXCHANGE are performed in their
partition and answered on the port they came by, and leave the receive buffer; one whose lines are held waits its turn there, and
an EXCHANGE whose descriptor does not fit is dropped as malformed. -/
def Obligations.RequestsAreServed : Prop :=
  (∀ (s : State) (n : Fin 16) (x : Incoming) (a : Dev) (c : Nat × Nat) (p : Nat) (h : PacketHeader), s.dev.live = true →
    s.dev.accept n x = (a, some c) →
    let d := (a.servePort n p x.pkt).leaveBuffer n h.vl c.1 c.2
    let w := a.hold (h.span.getD (0, 0)).1 (h.span.getD (0, 0)).2 (.port n p x.pkt c.1 c.2)
    (a.arrival n ptWrite x.pkt = .take p h →
      (a.mustHold p h = false → exec (.write n x) s = .next (s.withDev d)) ∧
      (a.mustHold p h = true → exec (.write n x) s = .next (s.withDev w))) ∧
    (a.arrival n ptReadReq x.pkt = .take p h →
      (a.mustHold p h = false → exec (.readReq n x) s = .next (s.withDev d)) ∧
      (a.mustHold p h = true → exec (.readReq n x) s = .next (s.withDev w))) ∧
    (a.arrival n ptSignal x.pkt = .take p h → exec (.remoteSignal n x) s = .next (s.withDev d)) ∧
    (a.arrival n ptExchange x.pkt = .take p h →
      let r := a.exchangeServe p h x.pkt.payload
      (a.exchangeHeld p h x.pkt.payload = none → r.2.status ≠ stMalformed →
        exec (.exchange n x) s = .next (s.withDev ((r.1.respond n h r.2).leaveBuffer n h.vl c.1 c.2))) ∧
      (a.exchangeHeld p h x.pkt.payload = none → r.2.status = stMalformed →
        exec (.exchange n x) s = .next (s.withDev ((r.1.malformedDrop n h).leaveBuffer n h.vl c.1 c.2))) ∧
      (∀ off m, a.exchangeHeld p h x.pkt.payload = some (off, m) →
        exec (.exchange n x) s = .next (s.withDev (a.hold off m (.port n p x.pkt c.1 c.2)))))) ∧
  ∀ (d : Dev) (n p : Nat) (pkt : Packet),
    let h := packetHeader pkt
    let r := d.serve false p h pkt.payload
    (h.ptype = ptWrite ∨ h.ptype = ptSignal → d.servePort n p pkt = (r.1.respond n h r.2).endMarked) ∧
    (h.ptype = ptReadReq → r.2.status = stOk → d.mem.carried = [] → d.servePort n p pkt = d.respond n h (d.readLines h.offset (h.linesM1 + 1)))

/-- Responses (R187, R196, R291, R294, R339, R556): the response to an outstanding request frees its TAG and reaches the unit that
waits; one not as its request is malformed; NOT_READY to an EXCHANGE waits 2 µs and is sent again on a port chosen anew;
FABRIC_RESP_TIMEOUT counts as an error response. -/
def Obligations.ResponsesReachTheirUnits : Prop :=
  ∀ s : State, s.dev.live = true →
    (∀ (n : Fin 16) (x : Incoming) (a : Dev) (c : Nat × Nat) (p : Nat) (h : PacketHeader) (r : Req),
      s.dev.accept n x = (a, some c) → a.answered p h = some r →
      let leave := fun (d : Dev) => s.withDev (d.leaveBuffer n (packetHeader x.pkt).vl c.1 c.2)
      let d := (a.setReq h.tag none).dispatch r { status := h.status, data := x.pkt.payload, lines := h.byteEnOrLinePoison }
      (a.arrival n ptWriteAck x.pkt = .take p h →
        (unlikeRequest r h = false → exec (.writeAck n x) s = .next (leave d)) ∧
        (unlikeRequest r h = true → exec (.writeAck n x) s = .next (leave (a.malformedDrop n h)))) ∧
      (a.arrival n ptReadResp x.pkt = .take p h →
        (unlikeRequest r h = false → exec (.readResp n x) s = .next (leave d)) ∧
        (unlikeRequest r h = true → exec (.readResp n x) s = .next (leave (a.malformedDrop n h)))) ∧
      (a.arrival n ptSignalAck x.pkt = .take p h →
        (unlikeRequest r h = false → exec (.signalAck n x) s = .next (leave d)) ∧
        (unlikeRequest r h = true → exec (.signalAck n x) s = .next (leave (a.malformedDrop n h)))) ∧
      (a.arrival n ptExchangeAck x.pkt = .take p h →
        (unlikeRequest r h = false → h.status ≠ stNotReady → exec (.exchangeAck n x) s = .next (leave d)) ∧
        (unlikeRequest r h = false → h.status = stNotReady →
          exec (.exchangeAck n x) s = .next (leave (a.setReq h.tag (some { r with notReadyAt := some a.time })))) ∧
        (unlikeRequest r h = true → exec (.exchangeAck n x) s = .next (leave (a.malformedDrop n h))))) ∧
    (∀ (tag : BitVec 16) (r : Req), s.dev.req tag.toNat = some r →
      (r.notReadyAt = none → r.port ≠ ownPort → r.sentAt + s.dev.get kFabricRespTimeout ≤ s.dev.time →
        exec (.responseTimeout tag) s = .next (s.withDev ((s.dev.setReq tag.toNat none).dispatch r (replyOf stTimeout)))) ∧
      (∀ t, r.notReadyAt = some t → t + 2000 ≤ s.dev.time →
        let h := packetHeader r.pkt
        (∀ m d, s.dev.pickPort (rotationOf r.p r.what) h.dstChip = some (m, d) →
          let pkt := packetFrom { h with plane := m } r.pkt.payload
          exec (.exchangeRetry tag) s = .next (s.withDev ((d.enqueue m h.vl pkt).setReq tag.toNat
            (some { r with pkt := pkt, sentAt := d.time, port := m, notReadyAt := none })))) ∧
        (s.dev.pickPort (rotationOf r.p r.what) h.dstChip = none →
          exec (.exchangeRetry tag) s = .next (s.withDev ((s.dev.setReq tag.toNat none).dispatch r (replyOf stNoRoute))))))

/-- PACKET_TRANSMIT (R283, R286, R288): a port sends the packet of the lane that the rotation picks, MANAGEMENT first, on credits,
reserve before pool, and a TIME packet takes its times as it leaves (R314); without a packet and its credits nothing leaves, and
during a retrain or a substitution nothing does (R280, R284). CREDIT_RETURN: returned credits are added. FRAME_NAK: the frame and
every later one are replayed, and the eighth replay of it begins a retrain. LINK_RETRAIN: one that ends keeps the port up and
replays, one that fails puts it DOWN. LANE_FAILED (R278 to R281): a lane or fibre with its spare unused has it asked for, one
without puts the port DOWN. LANE_SPARED and FIBRE_SPARED: a substitution of either direction completes with PORT_LANES and its
replay. -/
def Obligations.PortsTransmitAndSpare : Prop :=
  (∀ (s : State) (n : Fin 16), s.dev.live = true → s.dev.linked n = true →
     let x := s.dev.port n
     (x.retraining = true ∨ x.wanted ≠ [] → exec (.packetTransmit n) s = .next s) ∧
     (∀ vl p rest, x.retraining = false → x.wanted = [] → x.nextLane = some vl → SMap.get [] x.txq vl = p :: rest →
       let q := x.stamp s.dev.time p
       ∃ t, exec (.packetTransmit n) s = .next t ∧ t.fuses = s.fuses ∧ t.pending = s.pending ∧
         SMap.get [] (t.dev.port n).txq vl = rest ∧
         (∀ v, v ≠ vl → SMap.get [] (t.dev.port n).txq v = SMap.get [] x.txq v ∧
           SMap.get 0 (t.dev.port n).reserve v = SMap.get 0 x.reserve v) ∧
         (x.creditsFor vl q = true →
           SMap.get 0 (t.dev.port n).reserve vl + (t.dev.port n).pool + creditCost q = SMap.get 0 x.reserve vl + x.pool) ∧
         (creditCost q ≤ SMap.get 0 x.reserve vl → (t.dev.port n).pool = x.pool) ∧
         (t.dev.port n).nextFrame = (x.nextFrame + frameCount q) % 4096 ∧
         (∀ m, m ≠ n.val → t.dev.port m = s.dev.port m) ∧
         (x.stallAt = none → t.dev.dict = s.dev.dict) ∧
         (∀ t0, x.stallAt = some t0 →
           t.dev.get (kCreditStallNs n) = (s.dev.get (kCreditStallNs n) + (s.dev.time - t0)) % 2 ^ 64) ∧
         (∀ k, k ≠ kCreditStallNs n → t.dev.get k = s.dev.get k) ∧ t.dev.mem = s.dev.mem ∧ t.dev.seqs = s.dev.seqs ∧
         t.dev.tallies = s.dev.tallies ∧ t.dev.haul = s.dev.haul ∧ t.dev.benches = s.dev.benches) ∧
     (x.retraining = false → x.wanted = [] → x.nextLane = none →
       ∃ t, exec (.packetTransmit n) s = .next t ∧ t.fuses = s.fuses ∧ (t.dev.port n).txq = x.txq ∧
         (t.dev.port n).reserve = x.reserve ∧ (t.dev.port n).pool = x.pool ∧ t.dev.mem = s.dev.mem) ∧
     (∀ (vl : Fin 4) (r q : BitVec 14),
       ∃ t, exec (.creditReturn n vl r q) s = .next t ∧ t.fuses = s.fuses ∧ t.pending = s.pending ∧
         SMap.get 0 (t.dev.port n).reserve vl = SMap.get 0 x.reserve vl + r.toNat ∧ (t.dev.port n).pool = x.pool + q.toNat ∧
         (∀ v, v ≠ vl.val → SMap.get 0 (t.dev.port n).reserve v = SMap.get 0 x.reserve v) ∧
         (t.dev.port n).txq = x.txq ∧ (t.dev.port n).retry = x.retry ∧ (∀ m, m ≠ n.val → t.dev.port m = s.dev.port m) ∧
         (∀ k, k ≠ kCreditStallNs n → t.dev.get k = s.dev.get k) ∧ t.dev.mem = s.dev.mem ∧ t.dev.seqs = s.dev.seqs) ∧
     (∀ (f : BitVec 12), x.retraining = false → x.retry.dropWhile (fun y => decide (y.1 ≠ f.toNat)) ≠ [] →
       let rest := x.retry.dropWhile (fun y => decide (y.1 ≠ f.toNat))
       let y := { x with retry := rest, replays := x.replayed rest }
       let d := (s.dev.setPort n y).bump (kLinkReplays n) rest.length
       (SMap.get 0 (x.replayed rest) f.toNat < 8 →
         ∃ t, exec (.frameNak n f) s = .next t ∧ t.dev = d ∧ t.fuses = s.fuses ∧ t.pending = s.pending ∧
           t.dev.get (kLinkReplays n) = (s.dev.get (kLinkReplays n) + rest.length) % 2 ^ 64) ∧
       (8 ≤ SMap.get 0 (x.replayed rest) f.toNat →
         ∃ t, exec (.frameNak n f) s = .next t ∧ t.dev = d.beginRetrain n ∧
           (x.retrains = [] → (t.dev.port n).retraining = true ∧ (t.dev.port n).retry = rest ∧
             t.dev.get (kLinkRetrains n) = (s.dev.get (kLinkRetrains n) + 1) % 2 ^ 64))) ∧
     (x.retraining = true →
       (∃ t, exec (.linkRetrain n true) s = .next t ∧ t.fuses = s.fuses ∧ t.pending = s.pending ∧
         (t.dev.port n).retraining = false ∧ (t.dev.port n).retry = x.retry ∧ (t.dev.port n).reserve = x.reserve ∧
         t.dev.portState n = s.dev.portState n ∧
         t.dev.get (kLinkReplays n) = (s.dev.get (kLinkReplays n) + x.retry.length) % 2 ^ 64) ∧
       (∃ t, exec (.linkRetrain n false) s = .next t ∧ t.dev = s.dev.downPort n reRetrain ∧ t.fuses = s.fuses))) ∧
  (∀ (s : State) (n : Fin 16), s.dev.live = true → s.dev.linked n = true →
     let x := s.dev.port n
     let v := laneField true (s.dev.get (kPortLanes n))
     (∀ f : LaneFault, fibreActive v (faultFibre f) = true → spareLeft v (s.dev.faultSeen n f) = false →
       ∃ t, exec (.laneFailed n f) s = .next t ∧ t.dev = s.dev.downPort n reLanes ∧ t.fuses = s.fuses ∧ t.pending = s.pending) ∧
     (∀ f : LaneFault, fibreActive v (faultFibre f) = true → x.rxFails = [] → x.wanted = [] → spareLeft v f = true →
       ∃ t, exec (.laneFailed n f) s = .next t ∧ t.fuses = s.fuses ∧ t.pending = s.pending ∧
         (t.dev.port n).wanted = [f] ∧ (t.dev.port n).rxFails = [(s.dev.time, failKey f)] ∧
         (t.dev.port n).control = x.control ++ [.substitute f] ∧ t.dev.dict = s.dev.dict ∧ t.dev.mem = s.dev.mem ∧
         t.dev.seqs = s.dev.seqs ∧ t.dev.tallies = s.dev.tallies)) ∧
  ∀ (s : State) (n : Fin 16) (rx : Bool), s.dev.live = true → s.dev.linked n = true →
     let x := s.dev.port n
     let v := laneField rx (s.dev.get (kPortLanes n))
     (∀ (i : Fin 3) (l : Fin 4), fibreActive v i = true → rx = false ∨ x.wanted.contains (.lane i l) = true →
       (lambdaSub v i = 0 →
         ∃ t, exec (.laneSpared n rx i l) s = .next t ∧ t.fuses = s.fuses ∧ t.pending = s.pending ∧
           t.dev.get (kPortLanes n) = setLaneField rx (s.dev.get (kPortLanes n)) (setLambdaSub v i (4 + l)) ∧
           t.dev.get (kLinkReplays n) = (s.dev.get (kLinkReplays n) + x.retry.length) % 2 ^ 64 ∧
           (rx = true → (t.dev.port n).wanted = x.wanted.erase (.lane i l)) ∧
           t.dev.portState n = s.dev.portState n ∧ t.dev.seqs = s.dev.seqs ∧ t.dev.tallies = s.dev.tallies ∧ t.dev.mem = s.dev.mem) ∧
       (lambdaSub v i ≠ 0 →
         ∃ t, exec (.laneSpared n rx i l) s = .next t ∧ t.dev = s.dev.downPort n reLanes ∧ t.fuses = s.fuses)) ∧
     (∀ i : Fin 2, fibreActive v i = true → rx = false ∨ x.wanted.contains (.fibre i.castSucc) = true →
       (fibreSub v = 0 →
         ∃ t, exec (.fibreSpared n rx i) s = .next t ∧ t.fuses = s.fuses ∧ t.pending = s.pending ∧
           t.dev.get (kPortLanes n) = setLaneField rx (s.dev.get (kPortLanes n)) (setFld v 10 9 (i + 1)) ∧
           t.dev.get (kLinkReplays n) = (s.dev.get (kLinkReplays n) + x.retry.length) % 2 ^ 64 ∧
           (rx = true → (t.dev.port n).wanted = x.wanted.erase (.fibre i.castSucc)) ∧
           t.dev.portState n = s.dev.portState n ∧ t.dev.seqs = s.dev.seqs ∧ t.dev.tallies = s.dev.tallies ∧ t.dev.mem = s.dev.mem) ∧
       (fibreSub v ≠ 0 →
         ∃ t, exec (.fibreSpared n rx i) s = .next t ∧ t.dev = s.dev.downPort n reLanes ∧ t.fuses = s.fuses))

/-- Discovery and time (R303 to R309, R314): a trained link is QUIET, with the credit split that fills its buffer (R287), and probed;
an untrained one tries again after a second, a planned port that finds no neighbour in time goes DOWN; probes are answered by an
IDENT after its hold-off, and repeated every 256 ms; an ADMITTED port sends TIME once a millisecond. -/
def Obligations.PortsDiscover : Prop :=
  ∀ (s : State) (n : Fin 16), s.dev.live = true →
    let x := s.dev.port n
    (s.dev.portState n = poTraining →
      let split := if s.dev.creditSplit.sum = 8192 then s.dev.creditSplit else [512, 512, 256, 512, 6400]
      exec (.linkTrained n) s = .next (s.withDev (((s.dev.setPort n { x with
        waitFrom := s.dev.time, split := split }).movePort n poQuiet 0).sendProbe n)) ∧
      exec (.trainingFailed n) s = .next (s.withDev (s.dev.downPort n reTrainingFailed))) ∧
    (s.dev.portState n = poDown → s.dev.get (kPortDisable n) = 0 → x.downAt + 1000000000 ≤ s.dev.time →
      exec (.trainingRetry n) s = .next (s.withDev (s.dev.startTraining n))) ∧
    (s.dev.linked n = true → x.ident = none → x.lastProbe + 256000000 ≤ s.dev.time →
      exec (.probeRetry n) s = .next (s.withDev (s.dev.sendProbe n))) ∧
    (∀ t, x.identDue = some t → t ≤ s.dev.time → s.dev.linked n = true →
      let d := s.dev.setPort n { x with identDue := none, lastIdent := some s.dev.time }
      exec (.identHoldoff n) s =
        .next (s.withDev (d.sendManagement n ptIdent (toBytes (identBits (d.ownIdent s.fuses n)) 64)))) ∧
    (s.dev.planned n = true → x.waitFrom + s.dev.get kDiscoveryWait * 1000000 ≤ s.dev.time →
      (s.dev.portState n = poTraining → exec (.discoveryTimeout n) s = .next (s.withDev (s.dev.downPort n reNoLight))) ∧
      (s.dev.portState n = poQuiet → x.ident = none →
        exec (.discoveryTimeout n) s = .next (s.withDev (s.dev.downPort n reNoNeighbour)))) ∧
    (s.dev.portAdmitted n = true → (∀ t, x.timeSent = some t → t + 1000000 ≤ s.dev.time) →
      let hold := if x.timeEcho = 0 then 0 else s.dev.time - x.timeArr
      exec (.timeTick n) s = .next (s.withDev ((s.dev.setPort n { x with timeSent := some s.dev.time }).sendManagement n ptTime
        (toBytes (pack [(64, hold), (64, x.timeEcho), (64, s.dev.time)]) 64)))) ∧
    (∀ (i : Incoming) (a : Dev) (c : Nat × Nat), s.dev.accept n i = (a, some c) → malformedPacket i.pkt = false →
      let leave := fun (d : Dev) => s.withDev (d.leaveBuffer n (packetHeader i.pkt).vl c.1 c.2)
      let w := ofBytes i.pkt.payload
      ((packetHeader i.pkt).ptype = ptProbe → exec (.probe n i) s = .next (leave (a.dueIdent n))) ∧
      ((packetHeader i.pkt).ptype = ptIdent → exec (.ident n i) s = .next (leave
        (((a.setPort n { a.port n with ident := some w }).put (kNbrIdent n) w).comparePort n))) ∧
      ((packetHeader i.pkt).ptype = ptTime → exec (.time n i) s = .next (leave (a.timeArrives n w))))

/-! The memory controllers. -/

/-- MEMORY_ACCESS and SCRUB (R230, R246 to R248): a position beyond the stack's last ends the run by name; a clean write of a line
stores the bytes enabled and leaves every other byte, marks its poison or clears it; a clean read or scrub changes nothing; a
correction is counted, and symbols that cannot be corrected poison the line and are counted. -/
def Obligations.LinesAreAccessed : Prop :=
  (∀ (s : State) (a : MemAccess) (ev : MemEvent), positions ≤ placePos a.target → exec (.memoryAccess a ev) s = .fault .noSuchPosition) ∧
  (∀ (s : State) (l : MemLine) (ev : MemEvent), positions ≤ l.pos.toNat → exec (.scrub l ev) s = .fault .noSuchPosition) ∧
  (∀ (s : State) (tgt : MemTarget) (r : Requester), s.dev.live = true →
    let g := s.dev.targetOf tgt
    let line := posKey g.1 g.2.1 g.2.2.1 (64 * g.2.2.2.1) / 64
    s.dev.pc (12 * g.2.1 + g.1) = .online →
    (match tgt with
      | .working off => off.toNat < s.dev.workingBytes ∧ s.dev.blocked (off.toNat / 64 * 64) 64 = false
      | .place l => l.pos.toNat < positions ∧ s.dev.rowMoves l.s l.k l.pos.toNat = false ∧
          SMap.get none s.dev.mem.heldWrites line = none) →
    exec (.memoryAccess { target := tgt, req := r, wr := none } .clean) s = .next s ∧
    (∃ t, exec (.memoryAccess { target := tgt, req := r, wr := none } .innerCorrected) s = .next t ∧
      t.dev.get kMemInnerCorrected = (s.dev.get kMemInnerCorrected + 1) % 2 ^ 64 ∧ t.dev.mem = s.dev.mem ∧ t.fuses = s.fuses) ∧
    (∀ data be poison, ∃ t, exec (.memoryAccess { target := tgt, req := r, wr := some (data, be, poison) } .clean) s = .next t ∧
      t.fuses = s.fuses ∧ t.dev.dict = s.dev.dict ∧ t.dev.seqs = s.dev.seqs ∧ t.dev.tallies = s.dev.tallies ∧
      (∀ i, i < 64 → Memory.byte t.dev.mem.hbm (64 * line + i) =
        if bit be.toNat i then BitVec.ofNat 8 (data.toNat >>> (8 * i)) else Memory.byte s.dev.mem.hbm (64 * line + i)) ∧
      (∀ x, x < 64 * line ∨ 64 * line + 64 ≤ x → Memory.byte t.dev.mem.hbm x = Memory.byte s.dev.mem.hbm x) ∧
      (poison = true → NSet.mem t.dev.mem.poison line = true) ∧
      (poison = false → be.toNat = 2 ^ 64 - 1 → NSet.mem t.dev.mem.poison line = false) ∧
      (poison = false → be.toNat ≠ 2 ^ 64 - 1 → t.dev.mem.poison = s.dev.mem.poison) ∧
      (Memory.wf s.dev.mem.hbm = true → Memory.wf t.dev.mem.hbm = true))) ∧
  ∀ (s : State) (l : MemLine), s.dev.live = true → l.pos.toNat < positions → s.dev.rowMoves l.s l.k l.pos.toNat = false →
    s.dev.pc (12 * l.k + l.s) = .online →
    let line := posKey l.s l.k l.pos.toNat (64 * l.acc) / 64
    exec (.scrub l .clean) s = .next s ∧
    (∀ bad, bad ≠ [] → correctable bad = true →
      exec (.scrub l (.symbols bad)) s = .next (s.withDev (s.dev.outerCorrected l.s l.k l.pos.toNat))) ∧
    (∀ bad, bad ≠ [] → correctable bad = false →
      ∃ t, exec (.scrub l (.symbols bad)) s = .next t ∧ t.fuses = s.fuses ∧ NSet.mem t.dev.mem.poison line = true ∧
        t.dev.get kMemUncorrectable = (s.dev.get kMemUncorrectable + 1) % 2 ^ 64 ∧ t.dev.mem.hbm = s.dev.mem.hbm)

/-- Rows and pseudo-channels (R249 to R268): a row's copy ends with the row served by the next spare; a retrain within its limit
puts the pseudo-channel ONLINE again and past it LOST; relief is switched on once every ADMITTED partition has passed a commit
point, and a population ends RELIEVED; a second loss of a stack tears the partitions down. TG_RUN_END (R270, R272): each
pseudo-channel of the run gets its result record, as its operation allows it, PASS where it counted no error, and leaves TEST for
the state it had; the stack's run is over. -/
def Obligations.ChannelsRecoverAndTest : Prop :=
  (∀ (s : State) (n : Fin 12) (k : Fin 64), s.dev.live = true →
     let c := 12 * k.val + n.val
     (∀ (b : Fin 64) (r : Fin 12288) (x : Nat × Nat), SMap.get none s.dev.mem.remapping (rowKey n k b r) = some x →
       ∃ d : Dev, exec (.rowRemapped n k b r) s = .next (s.withDev (d.wakeMemory)) ∧
         SMap.get none d.mem.remapping (rowKey n k b r) = none ∧
         (r.val ≠ 12287 → SMap.get none d.mem.softRemap (rowKey n k b r) = some (s.dev.freeSpare c) ∧
           NSet.mem (d.sparesIn c) (s.dev.freeSpare c) = true) ∧
         (r.val = 12287 → NSet.mem (d.sparesIn c) b = true ∧ SMap.get none d.mem.softRemap (rowKey n k b r) ≠ none) ∧
         d.mem.hbm = s.dev.mem.hbm ∧ d.mem.poison = s.dev.mem.poison) ∧
     (s.dev.pc c = .retraining → s.dev.time ≤ SMap.get 0 s.dev.mem.retrainAt c + 40000 →
       let d := (s.dev.holdEnds c true).setPc c .online
       let d := (d.writesHeld c).foldl (fun d w => d.storeLine w.1 w.2.1 w.2.2 true) (d.dropWrites c)
       exec (.channelRetrain n k) s = .next (s.withDev ((d.nextRetrain (c % 12)).wakeMemory)) ∧ d.pc c = .online) ∧
     (s.dev.pc c = .retraining → SMap.get 0 s.dev.mem.retrainAt c + 40000 ≤ s.dev.time →
       let d := ((s.dev.holdEnds c false).setPc c .lost).dropWrites c
       let d := d.record (atSite n) 0x306 3 [(6, k)]
       let seq := d.lastSeq
       let d := d.warnStack n 4 seq
       d.pc c = .lost ∧
       (s.dev.reliefTaken n = false →
         let d := { d with mem := { d.mem with reliefWanted := SMap.set none d.mem.reliefWanted n (some k.val) } }
         exec (.channelLost n k) s = .next (s.withDev (((d.lossVotes seq).nextRetrain n).wakeMemory))) ∧
       (s.dev.reliefTaken n = true →
         let d := d.record (atSite n) 0x308 5 [(6, k)]
         let cause := d.lastSeq
         let d := (List.range 4).foldl (fun d p => d.faultTeardown p 0x308 cause) d
         exec (.channelLost n k) s = .next (s.withDev (((d.lossVotes seq).nextRetrain n).wakeMemory)))) ∧
     (SMap.get none s.dev.mem.reliefWanted n = some k.val → (∀ p : Fin 4, s.dev.commitPoint p = true) →
       ∃ t, exec (.reliefSwitch n) s = .next t ∧ t.fuses = s.fuses ∧ t.dev.get (kRelievedPc n) = k ∧
         SMap.get none t.dev.mem.reliefWanted n = none ∧ NSet.mem t.dev.mem.populating n = true ∧ t.dev.mem.hbm = s.dev.mem.hbm) ∧
     (NSet.mem s.dev.mem.populating n = true → s.dev.get (kRelievedPc n) = k →
       ∃ d : Dev, exec (.channelRelieved n) s = .next (s.withDev (d.wakeMemory)) ∧ d.pc c = .relieved ∧
         NSet.mem d.mem.populating n = false)) ∧
  (∀ (s : State) (n : Fin 12) (rs : List TgResult), s.dev.live = true → s.dev.tgRuns n = true →
     (∀ k ∈ s.dev.tgChannels n, ∃ r ∈ rs, r.k.val = k) →
     ∃ d : Dev, exec (.tgRunEnd n rs) s = .next (s.withDev (d.wakeMemory)) ∧ d.tgRuns n = false ∧ d.seqs = s.dev.seqs ∧
       d.tallies = s.dev.tallies ∧
       ∀ k ∈ s.dev.tgChannels n, ∀ r, rs.find? (fun x => decide (x.k.val = k)) = some r →
         (let x := s.dev.tgResultOf n r
          SMap.get 0 d.mem.tgResult (64 * n + k) = tgRecord x (if x.errors.toNat = 0 then 2 else 3)) ∧
         d.pc (12 * k + n) = SMap.get PcState.online s.dev.mem.pcBefore (12 * k + n))
end

