-- ==== Sys2Proof/Laws/Bits.lean ====
section
/-! SUPPORT. Fields packed into a word: where each one stands, and that it is read back. -/

namespace Sys2Proof.Machine

/-- The width of a list of fields. -/
def packWidth (l : List (Nat × Nat)) : Nat := (l.map Prod.fst).sum

theorem pack_foldl (l : List (Nat × Nat)) (a : Nat) :
    l.foldl (fun acc f => acc * 2 ^ f.1 + f.2 % 2 ^ f.1) a = a * 2 ^ packWidth l + pack l := by
  induction l generalizing a with
  | nil => simp [packWidth, pack]
  | cons x l ih =>
    simp only [pack, List.foldl_cons, packWidth, List.map_cons, List.sum_cons, Nat.zero_mul, Nat.zero_add] at ih ⊢
    rw [ih, ih (x.2 % 2 ^ x.1), Nat.pow_add]; ring

/-- The first field stands above the others. -/
theorem pack_cons (x : Nat × Nat) (l : List (Nat × Nat)) :
    pack (x :: l) = x.2 % 2 ^ x.1 * 2 ^ packWidth l + pack l := by
  rw [← pack_foldl]; simp [pack]

theorem pack_lt (l : List (Nat × Nat)) : pack l < 2 ^ packWidth l := by
  induction l with
  | nil => simp [pack, packWidth]
  | cons x l ih =>
    rw [pack_cons]
    have h : x.2 % 2 ^ x.1 + 1 ≤ 2 ^ x.1 := Nat.mod_lt _ (Nat.two_pow_pos _)
    have e : packWidth (x :: l) = x.1 + packWidth l := by simp [packWidth]
    calc x.2 % 2 ^ x.1 * 2 ^ packWidth l + pack l < x.2 % 2 ^ x.1 * 2 ^ packWidth l + 2 ^ packWidth l := by omega
      _ = (x.2 % 2 ^ x.1 + 1) * 2 ^ packWidth l := by ring
      _ ≤ 2 ^ x.1 * 2 ^ packWidth l := Nat.mul_le_mul_right _ h
      _ = 2 ^ packWidth (x :: l) := by rw [e, Nat.pow_add]

theorem fld_eq (w hi lo : Nat) : fld w hi lo = w / 2 ^ lo % 2 ^ (hi + 1 - lo) := by rw [fld, Nat.shiftRight_eq_div_pow]

theorem fld_lt_two_pow (w hi lo : Nat) : fld w hi lo < 2 ^ (hi + 1 - lo) := Nat.mod_lt _ (Nat.two_pow_pos _)

/-- A field of the packed word below the first one is a field of the rest. -/
theorem fld_pack_tail (x : Nat × Nat) (l : List (Nat × Nat)) {hi lo : Nat} (h : hi < packWidth l) (hl : lo ≤ hi) :
    fld (pack (x :: l)) hi lo = fld (pack l) hi lo := by
  rw [pack_cons, fld_eq, fld_eq]
  obtain ⟨c, hc⟩ : ∃ c, packWidth l = lo + ((hi + 1 - lo) + c) := ⟨packWidth l - hi - 1, by omega⟩
  rw [hc, Nat.pow_add, Nat.pow_add]
  have e : x.2 % 2 ^ x.1 * (2 ^ lo * (2 ^ (hi + 1 - lo) * 2 ^ c)) + pack l =
      pack l + 2 ^ lo * (2 ^ (hi + 1 - lo) * (x.2 % 2 ^ x.1 * 2 ^ c)) := by ring
  rw [e, Nat.add_mul_div_left _ _ (Nat.two_pow_pos _), Nat.add_mul_mod_self_left]

/-- The first field is read back. -/
theorem fld_pack_head (n v : Nat) (l : List (Nat × Nat)) {hi lo : Nat} (h : lo = packWidth l) (hh : hi + 1 - lo = n) :
    fld (pack ((n, v) :: l)) hi lo = v % 2 ^ n := by
  rw [pack_cons, fld_eq, hh, h, Nat.add_comm, Nat.mul_comm, Nat.add_mul_div_left _ _ (Nat.two_pow_pos _),
    Nat.div_eq_of_lt (pack_lt l), Nat.zero_add, Nat.mod_mod]

/-! Bytes. -/

@[simp] theorem toBytes_length (v n : Nat) : (toBytes v n).length = n := by
  induction n generalizing v with
  | zero => rfl
  | succ n ih => simp [toBytes, ih]

/-- A number written little-endian is read back, up to the bytes there are. -/
theorem ofBytes_toBytes (v n : Nat) : ofBytes (toBytes v n) = v % 256 ^ n := by
  induction n generalizing v with
  | zero => simp [toBytes, ofBytes, Nat.mod_one]
  | succ n ih => rw [toBytes, ofBytes, ih, Nat.pow_succ', Nat.mod_mul]; simp

end Sys2Proof.Machine
end

