-- ==== Sys2Proof/Laws/State.lean ====
section
/-! SUPPORT. What each shared operation leaves alone: one lemma per field of the module's state. -/

namespace Sys2Proof.Machine

/-- What every round of a fold leaves alone, the fold leaves alone. -/
theorem foldl_field {β γ : Type} (g : Dev → γ) (f : Dev → β → Dev) (h : ∀ d b, g (f d b) = g d) (l : List β) (d : Dev) :
    g (l.foldl f d) = g d := by
  induction l generalizing d with
  | nil => rfl
  | cons b l ih => rw [List.foldl_cons, ih, h]

variable (d : Dev)

/-! `Dev.put` -/

@[simp] theorem Dev.put_powered (k v : Nat) : (d.put k v).powered = d.powered := rfl
@[simp] theorem Dev.put_time (k v : Nat) : (d.put k v).time = d.time := rfl
@[simp] theorem Dev.put_draws (k v : Nat) : (d.put k v).draws = d.draws := rfl
@[simp] theorem Dev.put_seqs (k v : Nat) : (d.put k v).seqs = d.seqs := rfl
@[simp] theorem Dev.put_benches (k v : Nat) : (d.put k v).benches = d.benches := rfl
@[simp] theorem Dev.put_haul (k v : Nat) : (d.put k v).haul = d.haul := rfl
@[simp] theorem Dev.put_haulStop (k v : Nat) : (d.put k v).haulStop = d.haulStop := rfl
@[simp] theorem Dev.put_tallies (k v : Nat) : (d.put k v).tallies = d.tallies := rfl
@[simp] theorem Dev.put_mem (k v : Nat) : (d.put k v).mem = d.mem := rfl
@[simp] theorem Dev.put_fabric (k v : Nat) : (d.put k v).fabric = d.fabric := rfl
@[simp] theorem Dev.put_training (k v : Nat) : (d.put k v).training = d.training := rfl
@[simp] theorem Dev.put_parts (k v : Nat) : (d.put k v).parts = d.parts := rfl
@[simp] theorem Dev.put_faults (k v : Nat) : (d.put k v).faults = d.faults := rfl
@[simp] theorem Dev.put_mgmt (k v : Nat) : (d.put k v).mgmt = d.mgmt := rfl
@[simp] theorem Dev.put_sec (k v : Nat) : (d.put k v).sec = d.sec := rfl
@[simp] theorem Dev.put_env (k v : Nat) : (d.put k v).env = d.env := rfl

/-! `Dev.bump` -/

@[simp] theorem Dev.bump_powered (k n : Nat) : (d.bump k n).powered = d.powered := rfl
@[simp] theorem Dev.bump_time (k n : Nat) : (d.bump k n).time = d.time := rfl
@[simp] theorem Dev.bump_draws (k n : Nat) : (d.bump k n).draws = d.draws := rfl
@[simp] theorem Dev.bump_seqs (k n : Nat) : (d.bump k n).seqs = d.seqs := rfl
@[simp] theorem Dev.bump_benches (k n : Nat) : (d.bump k n).benches = d.benches := rfl
@[simp] theorem Dev.bump_haul (k n : Nat) : (d.bump k n).haul = d.haul := rfl
@[simp] theorem Dev.bump_haulStop (k n : Nat) : (d.bump k n).haulStop = d.haulStop := rfl
@[simp] theorem Dev.bump_tallies (k n : Nat) : (d.bump k n).tallies = d.tallies := rfl
@[simp] theorem Dev.bump_mem (k n : Nat) : (d.bump k n).mem = d.mem := rfl
@[simp] theorem Dev.bump_fabric (k n : Nat) : (d.bump k n).fabric = d.fabric := rfl
@[simp] theorem Dev.bump_training (k n : Nat) : (d.bump k n).training = d.training := rfl
@[simp] theorem Dev.bump_parts (k n : Nat) : (d.bump k n).parts = d.parts := rfl
@[simp] theorem Dev.bump_faults (k n : Nat) : (d.bump k n).faults = d.faults := rfl
@[simp] theorem Dev.bump_mgmt (k n : Nat) : (d.bump k n).mgmt = d.mgmt := rfl
@[simp] theorem Dev.bump_sec (k n : Nat) : (d.bump k n).sec = d.sec := rfl
@[simp] theorem Dev.bump_env (k n : Nat) : (d.bump k n).env = d.env := rfl

/-! `Dev.send` -/

@[simp] theorem Dev.send_powered (m : OutMsg) : (d.send m).powered = d.powered := rfl
@[simp] theorem Dev.send_time (m : OutMsg) : (d.send m).time = d.time := rfl
@[simp] theorem Dev.send_draws (m : OutMsg) : (d.send m).draws = d.draws := rfl
@[simp] theorem Dev.send_dict (m : OutMsg) : (d.send m).dict = d.dict := rfl
@[simp] theorem Dev.send_seqs (m : OutMsg) : (d.send m).seqs = d.seqs := rfl
@[simp] theorem Dev.send_benches (m : OutMsg) : (d.send m).benches = d.benches := rfl
@[simp] theorem Dev.send_haul (m : OutMsg) : (d.send m).haul = d.haul := rfl
@[simp] theorem Dev.send_haulStop (m : OutMsg) : (d.send m).haulStop = d.haulStop := rfl
@[simp] theorem Dev.send_tallies (m : OutMsg) : (d.send m).tallies = d.tallies := rfl
@[simp] theorem Dev.send_mem (m : OutMsg) : (d.send m).mem = d.mem := rfl
@[simp] theorem Dev.send_fabric (m : OutMsg) : (d.send m).fabric = d.fabric := rfl
@[simp] theorem Dev.send_training (m : OutMsg) : (d.send m).training = d.training := rfl
@[simp] theorem Dev.send_parts (m : OutMsg) : (d.send m).parts = d.parts := rfl
@[simp] theorem Dev.send_faults (m : OutMsg) : (d.send m).faults = d.faults := rfl
@[simp] theorem Dev.send_sec (m : OutMsg) : (d.send m).sec = d.sec := rfl
@[simp] theorem Dev.send_env (m : OutMsg) : (d.send m).env = d.env := rfl

/-! `Dev.msix` -/

@[simp] theorem Dev.msix_powered (v : Nat) : (d.msix v).powered = d.powered := by unfold Dev.msix; split <;> rfl
@[simp] theorem Dev.msix_time (v : Nat) : (d.msix v).time = d.time := by unfold Dev.msix; split <;> rfl
@[simp] theorem Dev.msix_draws (v : Nat) : (d.msix v).draws = d.draws := by unfold Dev.msix; split <;> rfl
@[simp] theorem Dev.msix_dict (v : Nat) : (d.msix v).dict = d.dict := by unfold Dev.msix; split <;> rfl
@[simp] theorem Dev.msix_seqs (v : Nat) : (d.msix v).seqs = d.seqs := by unfold Dev.msix; split <;> rfl
@[simp] theorem Dev.msix_benches (v : Nat) : (d.msix v).benches = d.benches := by unfold Dev.msix; split <;> rfl
@[simp] theorem Dev.msix_haul (v : Nat) : (d.msix v).haul = d.haul := by unfold Dev.msix; split <;> rfl
@[simp] theorem Dev.msix_haulStop (v : Nat) : (d.msix v).haulStop = d.haulStop := by unfold Dev.msix; split <;> rfl
@[simp] theorem Dev.msix_tallies (v : Nat) : (d.msix v).tallies = d.tallies := by unfold Dev.msix; split <;> rfl
@[simp] theorem Dev.msix_mem (v : Nat) : (d.msix v).mem = d.mem := by unfold Dev.msix; split <;> rfl
@[simp] theorem Dev.msix_fabric (v : Nat) : (d.msix v).fabric = d.fabric := by unfold Dev.msix; split <;> rfl
@[simp] theorem Dev.msix_training (v : Nat) : (d.msix v).training = d.training := by unfold Dev.msix; split <;> rfl
@[simp] theorem Dev.msix_parts (v : Nat) : (d.msix v).parts = d.parts := by unfold Dev.msix; split <;> rfl
@[simp] theorem Dev.msix_faults (v : Nat) : (d.msix v).faults = d.faults := by unfold Dev.msix; split <;> rfl
@[simp] theorem Dev.msix_sec (v : Nat) : (d.msix v).sec = d.sec := by unfold Dev.msix; split <;> rfl
@[simp] theorem Dev.msix_env (v : Nat) : (d.msix v).env = d.env := by unfold Dev.msix; split <;> rfl

/-! `Dev.putRaise` -/

@[simp] theorem Dev.putRaise_powered (v k x : Nat) : (d.putRaise v k x).powered = d.powered :=
  by unfold Dev.putRaise; split <;> simp
@[simp] theorem Dev.putRaise_time (v k x : Nat) : (d.putRaise v k x).time = d.time := by unfold Dev.putRaise; split <;> simp
@[simp] theorem Dev.putRaise_draws (v k x : Nat) : (d.putRaise v k x).draws = d.draws :=
  by unfold Dev.putRaise; split <;> simp
@[simp] theorem Dev.putRaise_seqs (v k x : Nat) : (d.putRaise v k x).seqs = d.seqs := by unfold Dev.putRaise; split <;> simp
@[simp] theorem Dev.putRaise_benches (v k x : Nat) : (d.putRaise v k x).benches = d.benches :=
  by unfold Dev.putRaise; split <;> simp
@[simp] theorem Dev.putRaise_haul (v k x : Nat) : (d.putRaise v k x).haul = d.haul := by unfold Dev.putRaise; split <;> simp
@[simp] theorem Dev.putRaise_haulStop (v k x : Nat) : (d.putRaise v k x).haulStop = d.haulStop :=
  by unfold Dev.putRaise; split <;> simp
@[simp] theorem Dev.putRaise_tallies (v k x : Nat) : (d.putRaise v k x).tallies = d.tallies :=
  by unfold Dev.putRaise; split <;> simp
@[simp] theorem Dev.putRaise_mem (v k x : Nat) : (d.putRaise v k x).mem = d.mem := by unfold Dev.putRaise; split <;> simp
@[simp] theorem Dev.putRaise_fabric (v k x : Nat) : (d.putRaise v k x).fabric = d.fabric :=
  by unfold Dev.putRaise; split <;> simp
@[simp] theorem Dev.putRaise_training (v k x : Nat) : (d.putRaise v k x).training = d.training :=
  by unfold Dev.putRaise; split <;> simp
@[simp] theorem Dev.putRaise_parts (v k x : Nat) : (d.putRaise v k x).parts = d.parts :=
  by unfold Dev.putRaise; split <;> simp
@[simp] theorem Dev.putRaise_faults (v k x : Nat) : (d.putRaise v k x).faults = d.faults :=
  by unfold Dev.putRaise; split <;> simp
@[simp] theorem Dev.putRaise_sec (v k x : Nat) : (d.putRaise v k x).sec = d.sec := by unfold Dev.putRaise; split <;> simp
@[simp] theorem Dev.putRaise_env (v k x : Nat) : (d.putRaise v k x).env = d.env := by unfold Dev.putRaise; split <;> simp

/-! `Dev.setPState` -/

@[simp] theorem Dev.setPState_powered (p v : Nat) : (d.setPState p v).powered = d.powered := by simp [Dev.setPState]
@[simp] theorem Dev.setPState_time (p v : Nat) : (d.setPState p v).time = d.time := by simp [Dev.setPState]
@[simp] theorem Dev.setPState_draws (p v : Nat) : (d.setPState p v).draws = d.draws := by simp [Dev.setPState]
@[simp] theorem Dev.setPState_seqs (p v : Nat) : (d.setPState p v).seqs = d.seqs := by simp [Dev.setPState]
@[simp] theorem Dev.setPState_benches (p v : Nat) : (d.setPState p v).benches = d.benches := by simp [Dev.setPState]
@[simp] theorem Dev.setPState_haul (p v : Nat) : (d.setPState p v).haul = d.haul := by simp [Dev.setPState]
@[simp] theorem Dev.setPState_haulStop (p v : Nat) : (d.setPState p v).haulStop = d.haulStop := by simp [Dev.setPState]
@[simp] theorem Dev.setPState_tallies (p v : Nat) : (d.setPState p v).tallies = d.tallies := by simp [Dev.setPState]
@[simp] theorem Dev.setPState_mem (p v : Nat) : (d.setPState p v).mem = d.mem := by simp [Dev.setPState]
@[simp] theorem Dev.setPState_fabric (p v : Nat) : (d.setPState p v).fabric = d.fabric := by simp [Dev.setPState]
@[simp] theorem Dev.setPState_training (p v : Nat) : (d.setPState p v).training = d.training := by simp [Dev.setPState]
@[simp] theorem Dev.setPState_parts (p v : Nat) : (d.setPState p v).parts = d.parts := by simp [Dev.setPState]
@[simp] theorem Dev.setPState_faults (p v : Nat) : (d.setPState p v).faults = d.faults := by simp [Dev.setPState]
@[simp] theorem Dev.setPState_sec (p v : Nat) : (d.setPState p v).sec = d.sec := by simp [Dev.setPState]
@[simp] theorem Dev.setPState_env (p v : Nat) : (d.setPState p v).env = d.env := by simp [Dev.setPState]

/-! `Dev.setShift` -/

@[simp] theorem Dev.setShift_powered (p v : Nat) : (d.setShift p v).powered = d.powered := by simp [Dev.setShift]
@[simp] theorem Dev.setShift_time (p v : Nat) : (d.setShift p v).time = d.time := by simp [Dev.setShift]
@[simp] theorem Dev.setShift_draws (p v : Nat) : (d.setShift p v).draws = d.draws := by simp [Dev.setShift]
@[simp] theorem Dev.setShift_seqs (p v : Nat) : (d.setShift p v).seqs = d.seqs := by simp [Dev.setShift]
@[simp] theorem Dev.setShift_benches (p v : Nat) : (d.setShift p v).benches = d.benches := by simp [Dev.setShift]
@[simp] theorem Dev.setShift_haul (p v : Nat) : (d.setShift p v).haul = d.haul := by simp [Dev.setShift]
@[simp] theorem Dev.setShift_haulStop (p v : Nat) : (d.setShift p v).haulStop = d.haulStop := by simp [Dev.setShift]
@[simp] theorem Dev.setShift_tallies (p v : Nat) : (d.setShift p v).tallies = d.tallies := by simp [Dev.setShift]
@[simp] theorem Dev.setShift_mem (p v : Nat) : (d.setShift p v).mem = d.mem := by simp [Dev.setShift]
@[simp] theorem Dev.setShift_fabric (p v : Nat) : (d.setShift p v).fabric = d.fabric := by simp [Dev.setShift]
@[simp] theorem Dev.setShift_training (p v : Nat) : (d.setShift p v).training = d.training := by simp [Dev.setShift]
@[simp] theorem Dev.setShift_parts (p v : Nat) : (d.setShift p v).parts = d.parts := by simp [Dev.setShift]
@[simp] theorem Dev.setShift_faults (p v : Nat) : (d.setShift p v).faults = d.faults := by simp [Dev.setShift]
@[simp] theorem Dev.setShift_sec (p v : Nat) : (d.setShift p v).sec = d.sec := by simp [Dev.setShift]
@[simp] theorem Dev.setShift_env (p v : Nat) : (d.setShift p v).env = d.env := by simp [Dev.setShift]

/-! `Dev.setPortState` -/

@[simp] theorem Dev.setPortState_powered (n v r : Nat) : (d.setPortState n v r).powered = d.powered :=
  by simp [Dev.setPortState]
@[simp] theorem Dev.setPortState_time (n v r : Nat) : (d.setPortState n v r).time = d.time := by simp [Dev.setPortState]
@[simp] theorem Dev.setPortState_draws (n v r : Nat) : (d.setPortState n v r).draws = d.draws := by simp [Dev.setPortState]
@[simp] theorem Dev.setPortState_seqs (n v r : Nat) : (d.setPortState n v r).seqs = d.seqs := by simp [Dev.setPortState]
@[simp] theorem Dev.setPortState_benches (n v r : Nat) : (d.setPortState n v r).benches = d.benches :=
  by simp [Dev.setPortState]
@[simp] theorem Dev.setPortState_haul (n v r : Nat) : (d.setPortState n v r).haul = d.haul := by simp [Dev.setPortState]
@[simp] theorem Dev.setPortState_haulStop (n v r : Nat) : (d.setPortState n v r).haulStop = d.haulStop :=
  by simp [Dev.setPortState]
@[simp] theorem Dev.setPortState_tallies (n v r : Nat) : (d.setPortState n v r).tallies = d.tallies :=
  by simp [Dev.setPortState]
@[simp] theorem Dev.setPortState_mem (n v r : Nat) : (d.setPortState n v r).mem = d.mem := by simp [Dev.setPortState]
@[simp] theorem Dev.setPortState_fabric (n v r : Nat) : (d.setPortState n v r).fabric = d.fabric :=
  by simp [Dev.setPortState]
@[simp] theorem Dev.setPortState_training (n v r : Nat) : (d.setPortState n v r).training = d.training :=
  by simp [Dev.setPortState]
@[simp] theorem Dev.setPortState_parts (n v r : Nat) : (d.setPortState n v r).parts = d.parts := by simp [Dev.setPortState]
@[simp] theorem Dev.setPortState_faults (n v r : Nat) : (d.setPortState n v r).faults = d.faults :=
  by simp [Dev.setPortState]
@[simp] theorem Dev.setPortState_sec (n v r : Nat) : (d.setPortState n v r).sec = d.sec := by simp [Dev.setPortState]
@[simp] theorem Dev.setPortState_env (n v r : Nat) : (d.setPortState n v r).env = d.env := by simp [Dev.setPortState]

/-! `Dev.setPart` -/

@[simp] theorem Dev.setPart_powered (p : Nat) (x : Part) : (d.setPart p x).powered = d.powered := rfl
@[simp] theorem Dev.setPart_time (p : Nat) (x : Part) : (d.setPart p x).time = d.time := rfl
@[simp] theorem Dev.setPart_draws (p : Nat) (x : Part) : (d.setPart p x).draws = d.draws := rfl
@[simp] theorem Dev.setPart_dict (p : Nat) (x : Part) : (d.setPart p x).dict = d.dict := rfl
@[simp] theorem Dev.setPart_seqs (p : Nat) (x : Part) : (d.setPart p x).seqs = d.seqs := rfl
@[simp] theorem Dev.setPart_benches (p : Nat) (x : Part) : (d.setPart p x).benches = d.benches := rfl
@[simp] theorem Dev.setPart_haul (p : Nat) (x : Part) : (d.setPart p x).haul = d.haul := rfl
@[simp] theorem Dev.setPart_haulStop (p : Nat) (x : Part) : (d.setPart p x).haulStop = d.haulStop := rfl
@[simp] theorem Dev.setPart_tallies (p : Nat) (x : Part) : (d.setPart p x).tallies = d.tallies := rfl
@[simp] theorem Dev.setPart_mem (p : Nat) (x : Part) : (d.setPart p x).mem = d.mem := rfl
@[simp] theorem Dev.setPart_fabric (p : Nat) (x : Part) : (d.setPart p x).fabric = d.fabric := rfl
@[simp] theorem Dev.setPart_training (p : Nat) (x : Part) : (d.setPart p x).training = d.training := rfl
@[simp] theorem Dev.setPart_faults (p : Nat) (x : Part) : (d.setPart p x).faults = d.faults := rfl
@[simp] theorem Dev.setPart_mgmt (p : Nat) (x : Part) : (d.setPart p x).mgmt = d.mgmt := rfl
@[simp] theorem Dev.setPart_sec (p : Nat) (x : Part) : (d.setPart p x).sec = d.sec := rfl
@[simp] theorem Dev.setPart_env (p : Nat) (x : Part) : (d.setPart p x).env = d.env := rfl

/-! `Dev.setTrain` -/

@[simp] theorem Dev.setTrain_powered (p : Nat) (x : Train) : (d.setTrain p x).powered = d.powered := rfl
@[simp] theorem Dev.setTrain_time (p : Nat) (x : Train) : (d.setTrain p x).time = d.time := rfl
@[simp] theorem Dev.setTrain_draws (p : Nat) (x : Train) : (d.setTrain p x).draws = d.draws := rfl
@[simp] theorem Dev.setTrain_dict (p : Nat) (x : Train) : (d.setTrain p x).dict = d.dict := rfl
@[simp] theorem Dev.setTrain_seqs (p : Nat) (x : Train) : (d.setTrain p x).seqs = d.seqs := rfl
@[simp] theorem Dev.setTrain_benches (p : Nat) (x : Train) : (d.setTrain p x).benches = d.benches := rfl
@[simp] theorem Dev.setTrain_haul (p : Nat) (x : Train) : (d.setTrain p x).haul = d.haul := rfl
@[simp] theorem Dev.setTrain_haulStop (p : Nat) (x : Train) : (d.setTrain p x).haulStop = d.haulStop := rfl
@[simp] theorem Dev.setTrain_tallies (p : Nat) (x : Train) : (d.setTrain p x).tallies = d.tallies := rfl
@[simp] theorem Dev.setTrain_mem (p : Nat) (x : Train) : (d.setTrain p x).mem = d.mem := rfl
@[simp] theorem Dev.setTrain_fabric (p : Nat) (x : Train) : (d.setTrain p x).fabric = d.fabric := rfl
@[simp] theorem Dev.setTrain_parts (p : Nat) (x : Train) : (d.setTrain p x).parts = d.parts := rfl
@[simp] theorem Dev.setTrain_faults (p : Nat) (x : Train) : (d.setTrain p x).faults = d.faults := rfl
@[simp] theorem Dev.setTrain_mgmt (p : Nat) (x : Train) : (d.setTrain p x).mgmt = d.mgmt := rfl
@[simp] theorem Dev.setTrain_sec (p : Nat) (x : Train) : (d.setTrain p x).sec = d.sec := rfl
@[simp] theorem Dev.setTrain_env (p : Nat) (x : Train) : (d.setTrain p x).env = d.env := rfl

/-! `Dev.setBed` -/

@[simp] theorem Dev.setBed_powered (p : Nat) (x : Bed) : (d.setBed p x).powered = d.powered := rfl
@[simp] theorem Dev.setBed_time (p : Nat) (x : Bed) : (d.setBed p x).time = d.time := rfl
@[simp] theorem Dev.setBed_draws (p : Nat) (x : Bed) : (d.setBed p x).draws = d.draws := rfl
@[simp] theorem Dev.setBed_dict (p : Nat) (x : Bed) : (d.setBed p x).dict = d.dict := rfl
@[simp] theorem Dev.setBed_seqs (p : Nat) (x : Bed) : (d.setBed p x).seqs = d.seqs := rfl
@[simp] theorem Dev.setBed_benches (p : Nat) (x : Bed) : (d.setBed p x).benches = d.benches := rfl
@[simp] theorem Dev.setBed_haul (p : Nat) (x : Bed) : (d.setBed p x).haul = d.haul := rfl
@[simp] theorem Dev.setBed_haulStop (p : Nat) (x : Bed) : (d.setBed p x).haulStop = d.haulStop := rfl
@[simp] theorem Dev.setBed_tallies (p : Nat) (x : Bed) : (d.setBed p x).tallies = d.tallies := rfl
@[simp] theorem Dev.setBed_mem (p : Nat) (x : Bed) : (d.setBed p x).mem = d.mem := rfl
@[simp] theorem Dev.setBed_fabric (p : Nat) (x : Bed) : (d.setBed p x).fabric = d.fabric := rfl
@[simp] theorem Dev.setBed_parts (p : Nat) (x : Bed) : (d.setBed p x).parts = d.parts := rfl
@[simp] theorem Dev.setBed_faults (p : Nat) (x : Bed) : (d.setBed p x).faults = d.faults := rfl
@[simp] theorem Dev.setBed_mgmt (p : Nat) (x : Bed) : (d.setBed p x).mgmt = d.mgmt := rfl
@[simp] theorem Dev.setBed_sec (p : Nat) (x : Bed) : (d.setBed p x).sec = d.sec := rfl
@[simp] theorem Dev.setBed_env (p : Nat) (x : Bed) : (d.setBed p x).env = d.env := rfl

/-! `Dev.setFlag` -/

@[simp] theorem Dev.setFlag_powered (p b : Nat) (v : Bool) : (d.setFlag p b v).powered = d.powered := rfl
@[simp] theorem Dev.setFlag_time (p b : Nat) (v : Bool) : (d.setFlag p b v).time = d.time := rfl
@[simp] theorem Dev.setFlag_draws (p b : Nat) (v : Bool) : (d.setFlag p b v).draws = d.draws := rfl
@[simp] theorem Dev.setFlag_seqs (p b : Nat) (v : Bool) : (d.setFlag p b v).seqs = d.seqs := rfl
@[simp] theorem Dev.setFlag_benches (p b : Nat) (v : Bool) : (d.setFlag p b v).benches = d.benches := rfl
@[simp] theorem Dev.setFlag_haul (p b : Nat) (v : Bool) : (d.setFlag p b v).haul = d.haul := rfl
@[simp] theorem Dev.setFlag_haulStop (p b : Nat) (v : Bool) : (d.setFlag p b v).haulStop = d.haulStop := rfl
@[simp] theorem Dev.setFlag_tallies (p b : Nat) (v : Bool) : (d.setFlag p b v).tallies = d.tallies := rfl
@[simp] theorem Dev.setFlag_mem (p b : Nat) (v : Bool) : (d.setFlag p b v).mem = d.mem := rfl
@[simp] theorem Dev.setFlag_fabric (p b : Nat) (v : Bool) : (d.setFlag p b v).fabric = d.fabric := rfl
@[simp] theorem Dev.setFlag_training (p b : Nat) (v : Bool) : (d.setFlag p b v).training = d.training := rfl
@[simp] theorem Dev.setFlag_parts (p b : Nat) (v : Bool) : (d.setFlag p b v).parts = d.parts := rfl
@[simp] theorem Dev.setFlag_faults (p b : Nat) (v : Bool) : (d.setFlag p b v).faults = d.faults := rfl
@[simp] theorem Dev.setFlag_mgmt (p b : Nat) (v : Bool) : (d.setFlag p b v).mgmt = d.mgmt := rfl
@[simp] theorem Dev.setFlag_sec (p b : Nat) (v : Bool) : (d.setFlag p b v).sec = d.sec := rfl
@[simp] theorem Dev.setFlag_env (p b : Nat) (v : Bool) : (d.setFlag p b v).env = d.env := rfl

/-! `Dev.sendT1s` -/

@[simp] theorem Dev.sendT1s_powered (c : Client) (h : Nat) (l : List Byte) : (d.sendT1s c h l).powered = d.powered :=
  by unfold Dev.sendT1s; split <;> rfl
@[simp] theorem Dev.sendT1s_time (c : Client) (h : Nat) (l : List Byte) : (d.sendT1s c h l).time = d.time :=
  by unfold Dev.sendT1s; split <;> rfl
@[simp] theorem Dev.sendT1s_draws (c : Client) (h : Nat) (l : List Byte) : (d.sendT1s c h l).draws = d.draws :=
  by unfold Dev.sendT1s; split <;> rfl
@[simp] theorem Dev.sendT1s_dict (c : Client) (h : Nat) (l : List Byte) : (d.sendT1s c h l).dict = d.dict :=
  by unfold Dev.sendT1s; split <;> rfl
@[simp] theorem Dev.sendT1s_seqs (c : Client) (h : Nat) (l : List Byte) : (d.sendT1s c h l).seqs = d.seqs :=
  by unfold Dev.sendT1s; split <;> rfl
@[simp] theorem Dev.sendT1s_benches (c : Client) (h : Nat) (l : List Byte) : (d.sendT1s c h l).benches = d.benches :=
  by unfold Dev.sendT1s; split <;> rfl
@[simp] theorem Dev.sendT1s_haul (c : Client) (h : Nat) (l : List Byte) : (d.sendT1s c h l).haul = d.haul :=
  by unfold Dev.sendT1s; split <;> rfl
@[simp] theorem Dev.sendT1s_haulStop (c : Client) (h : Nat) (l : List Byte) : (d.sendT1s c h l).haulStop = d.haulStop :=
  by unfold Dev.sendT1s; split <;> rfl
@[simp] theorem Dev.sendT1s_tallies (c : Client) (h : Nat) (l : List Byte) : (d.sendT1s c h l).tallies = d.tallies :=
  by unfold Dev.sendT1s; split <;> rfl
@[simp] theorem Dev.sendT1s_mem (c : Client) (h : Nat) (l : List Byte) : (d.sendT1s c h l).mem = d.mem :=
  by unfold Dev.sendT1s; split <;> rfl
@[simp] theorem Dev.sendT1s_fabric (c : Client) (h : Nat) (l : List Byte) : (d.sendT1s c h l).fabric = d.fabric :=
  by unfold Dev.sendT1s; split <;> rfl
@[simp] theorem Dev.sendT1s_training (c : Client) (h : Nat) (l : List Byte) : (d.sendT1s c h l).training = d.training :=
  by unfold Dev.sendT1s; split <;> rfl
@[simp] theorem Dev.sendT1s_parts (c : Client) (h : Nat) (l : List Byte) : (d.sendT1s c h l).parts = d.parts :=
  by unfold Dev.sendT1s; split <;> rfl
@[simp] theorem Dev.sendT1s_faults (c : Client) (h : Nat) (l : List Byte) : (d.sendT1s c h l).faults = d.faults :=
  by unfold Dev.sendT1s; split <;> rfl
@[simp] theorem Dev.sendT1s_sec (c : Client) (h : Nat) (l : List Byte) : (d.sendT1s c h l).sec = d.sec :=
  by unfold Dev.sendT1s; split <;> rfl
@[simp] theorem Dev.sendT1s_env (c : Client) (h : Nat) (l : List Byte) : (d.sendT1s c h l).env = d.env :=
  by unfold Dev.sendT1s; split <;> rfl

/-! `Dev.notify` -/

@[simp] theorem Dev.notify_powered (r : Nat) : (d.notify r).powered = d.powered :=
  by unfold Dev.notify; dsimp only; (repeat' split) <;> simp
@[simp] theorem Dev.notify_time (r : Nat) : (d.notify r).time = d.time :=
  by unfold Dev.notify; dsimp only; (repeat' split) <;> simp
@[simp] theorem Dev.notify_draws (r : Nat) : (d.notify r).draws = d.draws :=
  by unfold Dev.notify; dsimp only; (repeat' split) <;> simp
@[simp] theorem Dev.notify_seqs (r : Nat) : (d.notify r).seqs = d.seqs :=
  by unfold Dev.notify; dsimp only; (repeat' split) <;> simp
@[simp] theorem Dev.notify_benches (r : Nat) : (d.notify r).benches = d.benches :=
  by unfold Dev.notify; dsimp only; (repeat' split) <;> simp
@[simp] theorem Dev.notify_haul (r : Nat) : (d.notify r).haul = d.haul :=
  by unfold Dev.notify; dsimp only; (repeat' split) <;> simp
@[simp] theorem Dev.notify_haulStop (r : Nat) : (d.notify r).haulStop = d.haulStop :=
  by unfold Dev.notify; dsimp only; (repeat' split) <;> simp
@[simp] theorem Dev.notify_tallies (r : Nat) : (d.notify r).tallies = d.tallies :=
  by unfold Dev.notify; dsimp only; (repeat' split) <;> simp
@[simp] theorem Dev.notify_mem (r : Nat) : (d.notify r).mem = d.mem :=
  by unfold Dev.notify; dsimp only; (repeat' split) <;> simp
@[simp] theorem Dev.notify_fabric (r : Nat) : (d.notify r).fabric = d.fabric :=
  by unfold Dev.notify; dsimp only; (repeat' split) <;> simp
@[simp] theorem Dev.notify_training (r : Nat) : (d.notify r).training = d.training :=
  by unfold Dev.notify; dsimp only; (repeat' split) <;> simp
@[simp] theorem Dev.notify_parts (r : Nat) : (d.notify r).parts = d.parts :=
  by unfold Dev.notify; dsimp only; (repeat' split) <;> simp
@[simp] theorem Dev.notify_faults (r : Nat) : (d.notify r).faults = d.faults :=
  by unfold Dev.notify; dsimp only; (repeat' split) <;> simp
@[simp] theorem Dev.notify_sec (r : Nat) : (d.notify r).sec = d.sec :=
  by unfold Dev.notify; dsimp only; (repeat' split) <;> simp
@[simp] theorem Dev.notify_env (r : Nat) : (d.notify r).env = d.env :=
  by unfold Dev.notify; dsimp only; (repeat' split) <;> simp

/-! `Dev.record` -/

@[simp] theorem Dev.record_powered (w : Where) (t c : Nat) (b : List (Nat × Nat)) : (d.record w t c b).powered = d.powered :=
  by unfold Dev.record; dsimp only; (repeat' split) <;> simp
@[simp] theorem Dev.record_time (w : Where) (t c : Nat) (b : List (Nat × Nat)) : (d.record w t c b).time = d.time :=
  by unfold Dev.record; dsimp only; (repeat' split) <;> simp
@[simp] theorem Dev.record_draws (w : Where) (t c : Nat) (b : List (Nat × Nat)) : (d.record w t c b).draws = d.draws :=
  by unfold Dev.record; dsimp only; (repeat' split) <;> simp
@[simp] theorem Dev.record_seqs (w : Where) (t c : Nat) (b : List (Nat × Nat)) : (d.record w t c b).seqs = d.seqs :=
  by unfold Dev.record; dsimp only; (repeat' split) <;> simp
@[simp] theorem Dev.record_benches (w : Where) (t c : Nat) (b : List (Nat × Nat)) : (d.record w t c b).benches = d.benches :=
  by unfold Dev.record; dsimp only; (repeat' split) <;> simp
@[simp] theorem Dev.record_haul (w : Where) (t c : Nat) (b : List (Nat × Nat)) : (d.record w t c b).haul = d.haul :=
  by unfold Dev.record; dsimp only; (repeat' split) <;> simp
@[simp] theorem Dev.record_haulStop (w : Where) (t c : Nat) (b : List (Nat × Nat)) : (d.record w t c b).haulStop = d.haulStop :=
  by unfold Dev.record; dsimp only; (repeat' split) <;> simp
@[simp] theorem Dev.record_tallies (w : Where) (t c : Nat) (b : List (Nat × Nat)) : (d.record w t c b).tallies = d.tallies :=
  by unfold Dev.record; dsimp only; (repeat' split) <;> simp
@[simp] theorem Dev.record_mem (w : Where) (t c : Nat) (b : List (Nat × Nat)) : (d.record w t c b).mem = d.mem :=
  by unfold Dev.record; dsimp only; (repeat' split) <;> simp
@[simp] theorem Dev.record_fabric (w : Where) (t c : Nat) (b : List (Nat × Nat)) : (d.record w t c b).fabric = d.fabric :=
  by unfold Dev.record; dsimp only; (repeat' split) <;> simp
@[simp] theorem Dev.record_training (w : Where) (t c : Nat) (b : List (Nat × Nat)) : (d.record w t c b).training = d.training :=
  by unfold Dev.record; dsimp only; (repeat' split) <;> simp
@[simp] theorem Dev.record_parts (w : Where) (t c : Nat) (b : List (Nat × Nat)) : (d.record w t c b).parts = d.parts :=
  by unfold Dev.record; dsimp only; (repeat' split) <;> simp
@[simp] theorem Dev.record_sec (w : Where) (t c : Nat) (b : List (Nat × Nat)) : (d.record w t c b).sec = d.sec :=
  by unfold Dev.record; dsimp only; (repeat' split) <;> simp
@[simp] theorem Dev.record_env (w : Where) (t c : Nat) (b : List (Nat × Nat)) : (d.record w t c b).env = d.env :=
  by unfold Dev.record; dsimp only; (repeat' split) <;> simp

/-! `Dev.ckptWarn` -/

@[simp] theorem Dev.ckptWarn_powered (w : Where) (c r : Nat) : (d.ckptWarn w c r).powered = d.powered :=
  (foldl_field (fun d => d.powered) _ (by intro d l; simp) _ _).trans (by simp)
@[simp] theorem Dev.ckptWarn_time (w : Where) (c r : Nat) : (d.ckptWarn w c r).time = d.time :=
  (foldl_field (fun d => d.time) _ (by intro d l; simp) _ _).trans (by simp)
@[simp] theorem Dev.ckptWarn_draws (w : Where) (c r : Nat) : (d.ckptWarn w c r).draws = d.draws :=
  (foldl_field (fun d => d.draws) _ (by intro d l; simp) _ _).trans (by simp)
@[simp] theorem Dev.ckptWarn_seqs (w : Where) (c r : Nat) : (d.ckptWarn w c r).seqs = d.seqs :=
  (foldl_field (fun d => d.seqs) _ (by intro d l; simp) _ _).trans (by simp)
@[simp] theorem Dev.ckptWarn_benches (w : Where) (c r : Nat) : (d.ckptWarn w c r).benches = d.benches :=
  (foldl_field (fun d => d.benches) _ (by intro d l; simp) _ _).trans (by simp)
@[simp] theorem Dev.ckptWarn_haul (w : Where) (c r : Nat) : (d.ckptWarn w c r).haul = d.haul :=
  (foldl_field (fun d => d.haul) _ (by intro d l; simp) _ _).trans (by simp)
@[simp] theorem Dev.ckptWarn_haulStop (w : Where) (c r : Nat) : (d.ckptWarn w c r).haulStop = d.haulStop :=
  (foldl_field (fun d => d.haulStop) _ (by intro d l; simp) _ _).trans (by simp)
@[simp] theorem Dev.ckptWarn_tallies (w : Where) (c r : Nat) : (d.ckptWarn w c r).tallies = d.tallies :=
  (foldl_field (fun d => d.tallies) _ (by intro d l; simp) _ _).trans (by simp)
@[simp] theorem Dev.ckptWarn_mem (w : Where) (c r : Nat) : (d.ckptWarn w c r).mem = d.mem :=
  (foldl_field (fun d => d.mem) _ (by intro d l; simp) _ _).trans (by simp)
@[simp] theorem Dev.ckptWarn_fabric (w : Where) (c r : Nat) : (d.ckptWarn w c r).fabric = d.fabric :=
  (foldl_field (fun d => d.fabric) _ (by intro d l; simp) _ _).trans (by simp)
@[simp] theorem Dev.ckptWarn_training (w : Where) (c r : Nat) : (d.ckptWarn w c r).training = d.training :=
  (foldl_field (fun d => d.training) _ (by intro d l; simp) _ _).trans (by simp)
@[simp] theorem Dev.ckptWarn_parts (w : Where) (c r : Nat) : (d.ckptWarn w c r).parts = d.parts :=
  (foldl_field (fun d => d.parts) _ (by intro d l; simp) _ _).trans (by simp)
@[simp] theorem Dev.ckptWarn_sec (w : Where) (c r : Nat) : (d.ckptWarn w c r).sec = d.sec :=
  (foldl_field (fun d => d.sec) _ (by intro d l; simp) _ _).trans (by simp)
@[simp] theorem Dev.ckptWarn_env (w : Where) (c r : Nat) : (d.ckptWarn w c r).env = d.env :=
  (foldl_field (fun d => d.env) _ (by intro d l; simp) _ _).trans (by simp)

/-! `Dev.setBench` -/

@[simp] theorem Dev.setBench_powered (pl : Nat) (x : Bench) : (d.setBench pl x).powered = d.powered := rfl
@[simp] theorem Dev.setBench_time (pl : Nat) (x : Bench) : (d.setBench pl x).time = d.time := rfl
@[simp] theorem Dev.setBench_draws (pl : Nat) (x : Bench) : (d.setBench pl x).draws = d.draws := rfl
@[simp] theorem Dev.setBench_dict (pl : Nat) (x : Bench) : (d.setBench pl x).dict = d.dict := rfl
@[simp] theorem Dev.setBench_seqs (pl : Nat) (x : Bench) : (d.setBench pl x).seqs = d.seqs := rfl
@[simp] theorem Dev.setBench_haul (pl : Nat) (x : Bench) : (d.setBench pl x).haul = d.haul := rfl
@[simp] theorem Dev.setBench_haulStop (pl : Nat) (x : Bench) : (d.setBench pl x).haulStop = d.haulStop := rfl
@[simp] theorem Dev.setBench_tallies (pl : Nat) (x : Bench) : (d.setBench pl x).tallies = d.tallies := rfl
@[simp] theorem Dev.setBench_mem (pl : Nat) (x : Bench) : (d.setBench pl x).mem = d.mem := rfl
@[simp] theorem Dev.setBench_fabric (pl : Nat) (x : Bench) : (d.setBench pl x).fabric = d.fabric := rfl
@[simp] theorem Dev.setBench_training (pl : Nat) (x : Bench) : (d.setBench pl x).training = d.training := rfl
@[simp] theorem Dev.setBench_parts (pl : Nat) (x : Bench) : (d.setBench pl x).parts = d.parts := rfl
@[simp] theorem Dev.setBench_faults (pl : Nat) (x : Bench) : (d.setBench pl x).faults = d.faults := rfl
@[simp] theorem Dev.setBench_mgmt (pl : Nat) (x : Bench) : (d.setBench pl x).mgmt = d.mgmt := rfl
@[simp] theorem Dev.setBench_sec (pl : Nat) (x : Bench) : (d.setBench pl x).sec = d.sec := rfl
@[simp] theorem Dev.setBench_env (pl : Nat) (x : Bench) : (d.setBench pl x).env = d.env := rfl

/-! `Dev.setSlot` -/

@[simp] theorem Dev.setSlot_powered (pl i : Nat) (x : Slot) : (d.setSlot pl i x).powered = d.powered := rfl
@[simp] theorem Dev.setSlot_time (pl i : Nat) (x : Slot) : (d.setSlot pl i x).time = d.time := rfl
@[simp] theorem Dev.setSlot_draws (pl i : Nat) (x : Slot) : (d.setSlot pl i x).draws = d.draws := rfl
@[simp] theorem Dev.setSlot_dict (pl i : Nat) (x : Slot) : (d.setSlot pl i x).dict = d.dict := rfl
@[simp] theorem Dev.setSlot_seqs (pl i : Nat) (x : Slot) : (d.setSlot pl i x).seqs = d.seqs := rfl
@[simp] theorem Dev.setSlot_haul (pl i : Nat) (x : Slot) : (d.setSlot pl i x).haul = d.haul := rfl
@[simp] theorem Dev.setSlot_haulStop (pl i : Nat) (x : Slot) : (d.setSlot pl i x).haulStop = d.haulStop := rfl
@[simp] theorem Dev.setSlot_tallies (pl i : Nat) (x : Slot) : (d.setSlot pl i x).tallies = d.tallies := rfl
@[simp] theorem Dev.setSlot_mem (pl i : Nat) (x : Slot) : (d.setSlot pl i x).mem = d.mem := rfl
@[simp] theorem Dev.setSlot_fabric (pl i : Nat) (x : Slot) : (d.setSlot pl i x).fabric = d.fabric := rfl
@[simp] theorem Dev.setSlot_training (pl i : Nat) (x : Slot) : (d.setSlot pl i x).training = d.training := rfl
@[simp] theorem Dev.setSlot_parts (pl i : Nat) (x : Slot) : (d.setSlot pl i x).parts = d.parts := rfl
@[simp] theorem Dev.setSlot_faults (pl i : Nat) (x : Slot) : (d.setSlot pl i x).faults = d.faults := rfl
@[simp] theorem Dev.setSlot_mgmt (pl i : Nat) (x : Slot) : (d.setSlot pl i x).mgmt = d.mgmt := rfl
@[simp] theorem Dev.setSlot_sec (pl i : Nat) (x : Slot) : (d.setSlot pl i x).sec = d.sec := rfl
@[simp] theorem Dev.setSlot_env (pl i : Nat) (x : Slot) : (d.setSlot pl i x).env = d.env := rfl

/-! `Dev.setVreg` -/

@[simp] theorem Dev.setVreg_powered (pl r : Nat) (x : List Word32) : (d.setVreg pl r x).powered = d.powered := rfl
@[simp] theorem Dev.setVreg_time (pl r : Nat) (x : List Word32) : (d.setVreg pl r x).time = d.time := rfl
@[simp] theorem Dev.setVreg_draws (pl r : Nat) (x : List Word32) : (d.setVreg pl r x).draws = d.draws := rfl
@[simp] theorem Dev.setVreg_dict (pl r : Nat) (x : List Word32) : (d.setVreg pl r x).dict = d.dict := rfl
@[simp] theorem Dev.setVreg_seqs (pl r : Nat) (x : List Word32) : (d.setVreg pl r x).seqs = d.seqs := rfl
@[simp] theorem Dev.setVreg_haul (pl r : Nat) (x : List Word32) : (d.setVreg pl r x).haul = d.haul := rfl
@[simp] theorem Dev.setVreg_haulStop (pl r : Nat) (x : List Word32) : (d.setVreg pl r x).haulStop = d.haulStop := rfl
@[simp] theorem Dev.setVreg_tallies (pl r : Nat) (x : List Word32) : (d.setVreg pl r x).tallies = d.tallies := rfl
@[simp] theorem Dev.setVreg_mem (pl r : Nat) (x : List Word32) : (d.setVreg pl r x).mem = d.mem := rfl
@[simp] theorem Dev.setVreg_fabric (pl r : Nat) (x : List Word32) : (d.setVreg pl r x).fabric = d.fabric := rfl
@[simp] theorem Dev.setVreg_training (pl r : Nat) (x : List Word32) : (d.setVreg pl r x).training = d.training := rfl
@[simp] theorem Dev.setVreg_parts (pl r : Nat) (x : List Word32) : (d.setVreg pl r x).parts = d.parts := rfl
@[simp] theorem Dev.setVreg_faults (pl r : Nat) (x : List Word32) : (d.setVreg pl r x).faults = d.faults := rfl
@[simp] theorem Dev.setVreg_mgmt (pl r : Nat) (x : List Word32) : (d.setVreg pl r x).mgmt = d.mgmt := rfl
@[simp] theorem Dev.setVreg_sec (pl r : Nat) (x : List Word32) : (d.setVreg pl r x).sec = d.sec := rfl
@[simp] theorem Dev.setVreg_env (pl r : Nat) (x : List Word32) : (d.setVreg pl r x).env = d.env := rfl

/-! `Dev.setVmask` -/

@[simp] theorem Dev.setVmask_powered (pl m x : Nat) : (d.setVmask pl m x).powered = d.powered := rfl
@[simp] theorem Dev.setVmask_time (pl m x : Nat) : (d.setVmask pl m x).time = d.time := rfl
@[simp] theorem Dev.setVmask_draws (pl m x : Nat) : (d.setVmask pl m x).draws = d.draws := rfl
@[simp] theorem Dev.setVmask_dict (pl m x : Nat) : (d.setVmask pl m x).dict = d.dict := rfl
@[simp] theorem Dev.setVmask_seqs (pl m x : Nat) : (d.setVmask pl m x).seqs = d.seqs := rfl
@[simp] theorem Dev.setVmask_haul (pl m x : Nat) : (d.setVmask pl m x).haul = d.haul := rfl
@[simp] theorem Dev.setVmask_haulStop (pl m x : Nat) : (d.setVmask pl m x).haulStop = d.haulStop := rfl
@[simp] theorem Dev.setVmask_tallies (pl m x : Nat) : (d.setVmask pl m x).tallies = d.tallies := rfl
@[simp] theorem Dev.setVmask_mem (pl m x : Nat) : (d.setVmask pl m x).mem = d.mem := rfl
@[simp] theorem Dev.setVmask_fabric (pl m x : Nat) : (d.setVmask pl m x).fabric = d.fabric := rfl
@[simp] theorem Dev.setVmask_training (pl m x : Nat) : (d.setVmask pl m x).training = d.training := rfl
@[simp] theorem Dev.setVmask_parts (pl m x : Nat) : (d.setVmask pl m x).parts = d.parts := rfl
@[simp] theorem Dev.setVmask_faults (pl m x : Nat) : (d.setVmask pl m x).faults = d.faults := rfl
@[simp] theorem Dev.setVmask_mgmt (pl m x : Nat) : (d.setVmask pl m x).mgmt = d.mgmt := rfl
@[simp] theorem Dev.setVmask_sec (pl m x : Nat) : (d.setVmask pl m x).sec = d.sec := rfl
@[simp] theorem Dev.setVmask_env (pl m x : Nat) : (d.setVmask pl m x).env = d.env := rfl

/-! `Dev.setCursor` -/

@[simp] theorem Dev.setCursor_powered (k : ChainId) (u : Nat) (x : Cursor) : (d.setCursor k u x).powered = d.powered := rfl
@[simp] theorem Dev.setCursor_time (k : ChainId) (u : Nat) (x : Cursor) : (d.setCursor k u x).time = d.time := rfl
@[simp] theorem Dev.setCursor_draws (k : ChainId) (u : Nat) (x : Cursor) : (d.setCursor k u x).draws = d.draws := rfl
@[simp] theorem Dev.setCursor_dict (k : ChainId) (u : Nat) (x : Cursor) : (d.setCursor k u x).dict = d.dict := rfl
@[simp] theorem Dev.setCursor_benches (k : ChainId) (u : Nat) (x : Cursor) : (d.setCursor k u x).benches = d.benches := rfl
@[simp] theorem Dev.setCursor_haul (k : ChainId) (u : Nat) (x : Cursor) : (d.setCursor k u x).haul = d.haul := rfl
@[simp] theorem Dev.setCursor_haulStop (k : ChainId) (u : Nat) (x : Cursor) : (d.setCursor k u x).haulStop = d.haulStop :=
  rfl
@[simp] theorem Dev.setCursor_tallies (k : ChainId) (u : Nat) (x : Cursor) : (d.setCursor k u x).tallies = d.tallies := rfl
@[simp] theorem Dev.setCursor_mem (k : ChainId) (u : Nat) (x : Cursor) : (d.setCursor k u x).mem = d.mem := rfl
@[simp] theorem Dev.setCursor_fabric (k : ChainId) (u : Nat) (x : Cursor) : (d.setCursor k u x).fabric = d.fabric := rfl
@[simp] theorem Dev.setCursor_training (k : ChainId) (u : Nat) (x : Cursor) : (d.setCursor k u x).training = d.training :=
  rfl
@[simp] theorem Dev.setCursor_parts (k : ChainId) (u : Nat) (x : Cursor) : (d.setCursor k u x).parts = d.parts := rfl
@[simp] theorem Dev.setCursor_faults (k : ChainId) (u : Nat) (x : Cursor) : (d.setCursor k u x).faults = d.faults := rfl
@[simp] theorem Dev.setCursor_mgmt (k : ChainId) (u : Nat) (x : Cursor) : (d.setCursor k u x).mgmt = d.mgmt := rfl
@[simp] theorem Dev.setCursor_sec (k : ChainId) (u : Nat) (x : Cursor) : (d.setCursor k u x).sec = d.sec := rfl
@[simp] theorem Dev.setCursor_env (k : ChainId) (u : Nat) (x : Cursor) : (d.setCursor k u x).env = d.env := rfl

/-! `Dev.setGauge` -/

@[simp] theorem Dev.setGauge_powered (k : ChainId) (l : List Seg) : (d.setGauge k l).powered = d.powered := rfl
@[simp] theorem Dev.setGauge_time (k : ChainId) (l : List Seg) : (d.setGauge k l).time = d.time := rfl
@[simp] theorem Dev.setGauge_draws (k : ChainId) (l : List Seg) : (d.setGauge k l).draws = d.draws := rfl
@[simp] theorem Dev.setGauge_dict (k : ChainId) (l : List Seg) : (d.setGauge k l).dict = d.dict := rfl
@[simp] theorem Dev.setGauge_benches (k : ChainId) (l : List Seg) : (d.setGauge k l).benches = d.benches := rfl
@[simp] theorem Dev.setGauge_haul (k : ChainId) (l : List Seg) : (d.setGauge k l).haul = d.haul := rfl
@[simp] theorem Dev.setGauge_haulStop (k : ChainId) (l : List Seg) : (d.setGauge k l).haulStop = d.haulStop := rfl
@[simp] theorem Dev.setGauge_tallies (k : ChainId) (l : List Seg) : (d.setGauge k l).tallies = d.tallies := rfl
@[simp] theorem Dev.setGauge_mem (k : ChainId) (l : List Seg) : (d.setGauge k l).mem = d.mem := rfl
@[simp] theorem Dev.setGauge_fabric (k : ChainId) (l : List Seg) : (d.setGauge k l).fabric = d.fabric := rfl
@[simp] theorem Dev.setGauge_training (k : ChainId) (l : List Seg) : (d.setGauge k l).training = d.training := rfl
@[simp] theorem Dev.setGauge_parts (k : ChainId) (l : List Seg) : (d.setGauge k l).parts = d.parts := rfl
@[simp] theorem Dev.setGauge_faults (k : ChainId) (l : List Seg) : (d.setGauge k l).faults = d.faults := rfl
@[simp] theorem Dev.setGauge_mgmt (k : ChainId) (l : List Seg) : (d.setGauge k l).mgmt = d.mgmt := rfl
@[simp] theorem Dev.setGauge_sec (k : ChainId) (l : List Seg) : (d.setGauge k l).sec = d.sec := rfl
@[simp] theorem Dev.setGauge_env (k : ChainId) (l : List Seg) : (d.setGauge k l).env = d.env := rfl

/-! `Dev.setChan` -/

@[simp] theorem Dev.setChan_powered (h c : Nat) (x : Chan) : (d.setChan h c x).powered = d.powered := rfl
@[simp] theorem Dev.setChan_time (h c : Nat) (x : Chan) : (d.setChan h c x).time = d.time := rfl
@[simp] theorem Dev.setChan_draws (h c : Nat) (x : Chan) : (d.setChan h c x).draws = d.draws := rfl
@[simp] theorem Dev.setChan_dict (h c : Nat) (x : Chan) : (d.setChan h c x).dict = d.dict := rfl
@[simp] theorem Dev.setChan_seqs (h c : Nat) (x : Chan) : (d.setChan h c x).seqs = d.seqs := rfl
@[simp] theorem Dev.setChan_benches (h c : Nat) (x : Chan) : (d.setChan h c x).benches = d.benches := rfl
@[simp] theorem Dev.setChan_haulStop (h c : Nat) (x : Chan) : (d.setChan h c x).haulStop = d.haulStop := rfl
@[simp] theorem Dev.setChan_tallies (h c : Nat) (x : Chan) : (d.setChan h c x).tallies = d.tallies := rfl
@[simp] theorem Dev.setChan_mem (h c : Nat) (x : Chan) : (d.setChan h c x).mem = d.mem := rfl
@[simp] theorem Dev.setChan_fabric (h c : Nat) (x : Chan) : (d.setChan h c x).fabric = d.fabric := rfl
@[simp] theorem Dev.setChan_training (h c : Nat) (x : Chan) : (d.setChan h c x).training = d.training := rfl
@[simp] theorem Dev.setChan_parts (h c : Nat) (x : Chan) : (d.setChan h c x).parts = d.parts := rfl
@[simp] theorem Dev.setChan_faults (h c : Nat) (x : Chan) : (d.setChan h c x).faults = d.faults := rfl
@[simp] theorem Dev.setChan_mgmt (h c : Nat) (x : Chan) : (d.setChan h c x).mgmt = d.mgmt := rfl
@[simp] theorem Dev.setChan_sec (h c : Nat) (x : Chan) : (d.setChan h c x).sec = d.sec := rfl
@[simp] theorem Dev.setChan_env (h c : Nat) (x : Chan) : (d.setChan h c x).env = d.env := rfl

/-! `Dev.setTally` -/

@[simp] theorem Dev.setTally_powered (t : Nat) (x : Tally) : (d.setTally t x).powered = d.powered := rfl
@[simp] theorem Dev.setTally_time (t : Nat) (x : Tally) : (d.setTally t x).time = d.time := rfl
@[simp] theorem Dev.setTally_draws (t : Nat) (x : Tally) : (d.setTally t x).draws = d.draws := rfl
@[simp] theorem Dev.setTally_dict (t : Nat) (x : Tally) : (d.setTally t x).dict = d.dict := rfl
@[simp] theorem Dev.setTally_seqs (t : Nat) (x : Tally) : (d.setTally t x).seqs = d.seqs := rfl
@[simp] theorem Dev.setTally_benches (t : Nat) (x : Tally) : (d.setTally t x).benches = d.benches := rfl
@[simp] theorem Dev.setTally_haul (t : Nat) (x : Tally) : (d.setTally t x).haul = d.haul := rfl
@[simp] theorem Dev.setTally_haulStop (t : Nat) (x : Tally) : (d.setTally t x).haulStop = d.haulStop := rfl
@[simp] theorem Dev.setTally_mem (t : Nat) (x : Tally) : (d.setTally t x).mem = d.mem := rfl
@[simp] theorem Dev.setTally_fabric (t : Nat) (x : Tally) : (d.setTally t x).fabric = d.fabric := rfl
@[simp] theorem Dev.setTally_training (t : Nat) (x : Tally) : (d.setTally t x).training = d.training := rfl
@[simp] theorem Dev.setTally_parts (t : Nat) (x : Tally) : (d.setTally t x).parts = d.parts := rfl
@[simp] theorem Dev.setTally_faults (t : Nat) (x : Tally) : (d.setTally t x).faults = d.faults := rfl
@[simp] theorem Dev.setTally_mgmt (t : Nat) (x : Tally) : (d.setTally t x).mgmt = d.mgmt := rfl
@[simp] theorem Dev.setTally_sec (t : Nat) (x : Tally) : (d.setTally t x).sec = d.sec := rfl
@[simp] theorem Dev.setTally_env (t : Nat) (x : Tally) : (d.setTally t x).env = d.env := rfl

/-! `Dev.setWait` -/

@[simp] theorem Dev.setWait_powered (i : Nat) (w : Wait) : (d.setWait i w).powered = d.powered := rfl
@[simp] theorem Dev.setWait_time (i : Nat) (w : Wait) : (d.setWait i w).time = d.time := rfl
@[simp] theorem Dev.setWait_draws (i : Nat) (w : Wait) : (d.setWait i w).draws = d.draws := rfl
@[simp] theorem Dev.setWait_dict (i : Nat) (w : Wait) : (d.setWait i w).dict = d.dict := rfl
@[simp] theorem Dev.setWait_seqs (i : Nat) (w : Wait) : (d.setWait i w).seqs = d.seqs := rfl
@[simp] theorem Dev.setWait_benches (i : Nat) (w : Wait) : (d.setWait i w).benches = d.benches := rfl
@[simp] theorem Dev.setWait_haul (i : Nat) (w : Wait) : (d.setWait i w).haul = d.haul := rfl
@[simp] theorem Dev.setWait_haulStop (i : Nat) (w : Wait) : (d.setWait i w).haulStop = d.haulStop := rfl
@[simp] theorem Dev.setWait_mem (i : Nat) (w : Wait) : (d.setWait i w).mem = d.mem := rfl
@[simp] theorem Dev.setWait_fabric (i : Nat) (w : Wait) : (d.setWait i w).fabric = d.fabric := rfl
@[simp] theorem Dev.setWait_training (i : Nat) (w : Wait) : (d.setWait i w).training = d.training := rfl
@[simp] theorem Dev.setWait_parts (i : Nat) (w : Wait) : (d.setWait i w).parts = d.parts := rfl
@[simp] theorem Dev.setWait_faults (i : Nat) (w : Wait) : (d.setWait i w).faults = d.faults := rfl
@[simp] theorem Dev.setWait_mgmt (i : Nat) (w : Wait) : (d.setWait i w).mgmt = d.mgmt := rfl
@[simp] theorem Dev.setWait_sec (i : Nat) (w : Wait) : (d.setWait i w).sec = d.sec := rfl
@[simp] theorem Dev.setWait_env (i : Nat) (w : Wait) : (d.setWait i w).env = d.env := rfl

/-! `Dev.fly` -/

@[simp] theorem Dev.fly_powered (s : Signal) : (d.fly s).powered = d.powered := rfl
@[simp] theorem Dev.fly_time (s : Signal) : (d.fly s).time = d.time := rfl
@[simp] theorem Dev.fly_draws (s : Signal) : (d.fly s).draws = d.draws := rfl
@[simp] theorem Dev.fly_dict (s : Signal) : (d.fly s).dict = d.dict := rfl
@[simp] theorem Dev.fly_seqs (s : Signal) : (d.fly s).seqs = d.seqs := rfl
@[simp] theorem Dev.fly_benches (s : Signal) : (d.fly s).benches = d.benches := rfl
@[simp] theorem Dev.fly_haul (s : Signal) : (d.fly s).haul = d.haul := rfl
@[simp] theorem Dev.fly_haulStop (s : Signal) : (d.fly s).haulStop = d.haulStop := rfl
@[simp] theorem Dev.fly_mem (s : Signal) : (d.fly s).mem = d.mem := rfl
@[simp] theorem Dev.fly_fabric (s : Signal) : (d.fly s).fabric = d.fabric := rfl
@[simp] theorem Dev.fly_training (s : Signal) : (d.fly s).training = d.training := rfl
@[simp] theorem Dev.fly_parts (s : Signal) : (d.fly s).parts = d.parts := rfl
@[simp] theorem Dev.fly_faults (s : Signal) : (d.fly s).faults = d.faults := rfl
@[simp] theorem Dev.fly_mgmt (s : Signal) : (d.fly s).mgmt = d.mgmt := rfl
@[simp] theorem Dev.fly_sec (s : Signal) : (d.fly s).sec = d.sec := rfl
@[simp] theorem Dev.fly_env (s : Signal) : (d.fly s).env = d.env := rfl

/-! `Dev.setPort` -/

@[simp] theorem Dev.setPort_powered (n : Nat) (x : Port) : (d.setPort n x).powered = d.powered := rfl
@[simp] theorem Dev.setPort_time (n : Nat) (x : Port) : (d.setPort n x).time = d.time := rfl
@[simp] theorem Dev.setPort_draws (n : Nat) (x : Port) : (d.setPort n x).draws = d.draws := rfl
@[simp] theorem Dev.setPort_dict (n : Nat) (x : Port) : (d.setPort n x).dict = d.dict := rfl
@[simp] theorem Dev.setPort_seqs (n : Nat) (x : Port) : (d.setPort n x).seqs = d.seqs := rfl
@[simp] theorem Dev.setPort_benches (n : Nat) (x : Port) : (d.setPort n x).benches = d.benches := rfl
@[simp] theorem Dev.setPort_haul (n : Nat) (x : Port) : (d.setPort n x).haul = d.haul := rfl
@[simp] theorem Dev.setPort_haulStop (n : Nat) (x : Port) : (d.setPort n x).haulStop = d.haulStop := rfl
@[simp] theorem Dev.setPort_tallies (n : Nat) (x : Port) : (d.setPort n x).tallies = d.tallies := rfl
@[simp] theorem Dev.setPort_mem (n : Nat) (x : Port) : (d.setPort n x).mem = d.mem := rfl
@[simp] theorem Dev.setPort_training (n : Nat) (x : Port) : (d.setPort n x).training = d.training := rfl
@[simp] theorem Dev.setPort_parts (n : Nat) (x : Port) : (d.setPort n x).parts = d.parts := rfl
@[simp] theorem Dev.setPort_faults (n : Nat) (x : Port) : (d.setPort n x).faults = d.faults := rfl
@[simp] theorem Dev.setPort_mgmt (n : Nat) (x : Port) : (d.setPort n x).mgmt = d.mgmt := rfl
@[simp] theorem Dev.setPort_sec (n : Nat) (x : Port) : (d.setPort n x).sec = d.sec := rfl
@[simp] theorem Dev.setPort_env (n : Nat) (x : Port) : (d.setPort n x).env = d.env := rfl

/-! `Dev.setPc` -/

@[simp] theorem Dev.setPc_powered (c : Nat) (v : PcState) : (d.setPc c v).powered = d.powered := rfl
@[simp] theorem Dev.setPc_time (c : Nat) (v : PcState) : (d.setPc c v).time = d.time := rfl
@[simp] theorem Dev.setPc_draws (c : Nat) (v : PcState) : (d.setPc c v).draws = d.draws := rfl
@[simp] theorem Dev.setPc_dict (c : Nat) (v : PcState) : (d.setPc c v).dict = d.dict := rfl
@[simp] theorem Dev.setPc_seqs (c : Nat) (v : PcState) : (d.setPc c v).seqs = d.seqs := rfl
@[simp] theorem Dev.setPc_benches (c : Nat) (v : PcState) : (d.setPc c v).benches = d.benches := rfl
@[simp] theorem Dev.setPc_haul (c : Nat) (v : PcState) : (d.setPc c v).haul = d.haul := rfl
@[simp] theorem Dev.setPc_haulStop (c : Nat) (v : PcState) : (d.setPc c v).haulStop = d.haulStop := rfl
@[simp] theorem Dev.setPc_tallies (c : Nat) (v : PcState) : (d.setPc c v).tallies = d.tallies := rfl
@[simp] theorem Dev.setPc_fabric (c : Nat) (v : PcState) : (d.setPc c v).fabric = d.fabric := rfl
@[simp] theorem Dev.setPc_training (c : Nat) (v : PcState) : (d.setPc c v).training = d.training := rfl
@[simp] theorem Dev.setPc_parts (c : Nat) (v : PcState) : (d.setPc c v).parts = d.parts := rfl
@[simp] theorem Dev.setPc_faults (c : Nat) (v : PcState) : (d.setPc c v).faults = d.faults := rfl
@[simp] theorem Dev.setPc_mgmt (c : Nat) (v : PcState) : (d.setPc c v).mgmt = d.mgmt := rfl
@[simp] theorem Dev.setPc_sec (c : Nat) (v : PcState) : (d.setPc c v).sec = d.sec := rfl
@[simp] theorem Dev.setPc_env (c : Nat) (v : PcState) : (d.setPc c v).env = d.env := rfl

/-! `Dev.setPoint` -/

@[simp] theorem Dev.setPoint_powered (n : Nat) (x : Point) : (d.setPoint n x).powered = d.powered := rfl
@[simp] theorem Dev.setPoint_time (n : Nat) (x : Point) : (d.setPoint n x).time = d.time := rfl
@[simp] theorem Dev.setPoint_draws (n : Nat) (x : Point) : (d.setPoint n x).draws = d.draws := rfl
@[simp] theorem Dev.setPoint_dict (n : Nat) (x : Point) : (d.setPoint n x).dict = d.dict := rfl
@[simp] theorem Dev.setPoint_seqs (n : Nat) (x : Point) : (d.setPoint n x).seqs = d.seqs := rfl
@[simp] theorem Dev.setPoint_benches (n : Nat) (x : Point) : (d.setPoint n x).benches = d.benches := rfl
@[simp] theorem Dev.setPoint_haul (n : Nat) (x : Point) : (d.setPoint n x).haul = d.haul := rfl
@[simp] theorem Dev.setPoint_haulStop (n : Nat) (x : Point) : (d.setPoint n x).haulStop = d.haulStop := rfl
@[simp] theorem Dev.setPoint_tallies (n : Nat) (x : Point) : (d.setPoint n x).tallies = d.tallies := rfl
@[simp] theorem Dev.setPoint_mem (n : Nat) (x : Point) : (d.setPoint n x).mem = d.mem := rfl
@[simp] theorem Dev.setPoint_fabric (n : Nat) (x : Point) : (d.setPoint n x).fabric = d.fabric := rfl
@[simp] theorem Dev.setPoint_training (n : Nat) (x : Point) : (d.setPoint n x).training = d.training := rfl
@[simp] theorem Dev.setPoint_parts (n : Nat) (x : Point) : (d.setPoint n x).parts = d.parts := rfl
@[simp] theorem Dev.setPoint_faults (n : Nat) (x : Point) : (d.setPoint n x).faults = d.faults := rfl
@[simp] theorem Dev.setPoint_mgmt (n : Nat) (x : Point) : (d.setPoint n x).mgmt = d.mgmt := rfl
@[simp] theorem Dev.setPoint_sec (n : Nat) (x : Point) : (d.setPoint n x).sec = d.sec := rfl

/-! `Dev.setMemByte` -/

@[simp] theorem Dev.setMemByte_powered (a : Nat) (v : Byte) : (d.setMemByte a v).powered = d.powered := rfl
@[simp] theorem Dev.setMemByte_time (a : Nat) (v : Byte) : (d.setMemByte a v).time = d.time := rfl
@[simp] theorem Dev.setMemByte_draws (a : Nat) (v : Byte) : (d.setMemByte a v).draws = d.draws := rfl
@[simp] theorem Dev.setMemByte_dict (a : Nat) (v : Byte) : (d.setMemByte a v).dict = d.dict := rfl
@[simp] theorem Dev.setMemByte_seqs (a : Nat) (v : Byte) : (d.setMemByte a v).seqs = d.seqs := rfl
@[simp] theorem Dev.setMemByte_benches (a : Nat) (v : Byte) : (d.setMemByte a v).benches = d.benches := rfl
@[simp] theorem Dev.setMemByte_haul (a : Nat) (v : Byte) : (d.setMemByte a v).haul = d.haul := rfl
@[simp] theorem Dev.setMemByte_haulStop (a : Nat) (v : Byte) : (d.setMemByte a v).haulStop = d.haulStop := rfl
@[simp] theorem Dev.setMemByte_tallies (a : Nat) (v : Byte) : (d.setMemByte a v).tallies = d.tallies := rfl
@[simp] theorem Dev.setMemByte_fabric (a : Nat) (v : Byte) : (d.setMemByte a v).fabric = d.fabric := rfl
@[simp] theorem Dev.setMemByte_training (a : Nat) (v : Byte) : (d.setMemByte a v).training = d.training := rfl
@[simp] theorem Dev.setMemByte_parts (a : Nat) (v : Byte) : (d.setMemByte a v).parts = d.parts := rfl
@[simp] theorem Dev.setMemByte_faults (a : Nat) (v : Byte) : (d.setMemByte a v).faults = d.faults := rfl
@[simp] theorem Dev.setMemByte_mgmt (a : Nat) (v : Byte) : (d.setMemByte a v).mgmt = d.mgmt := rfl
@[simp] theorem Dev.setMemByte_sec (a : Nat) (v : Byte) : (d.setMemByte a v).sec = d.sec := rfl
@[simp] theorem Dev.setMemByte_env (a : Nat) (v : Byte) : (d.setMemByte a v).env = d.env := rfl

/-! `Dev.setStoreByte` -/

@[simp] theorem Dev.setStoreByte_powered (pl a : Nat) (v : Byte) : (d.setStoreByte pl a v).powered = d.powered := by
  unfold Dev.setStoreByte; split <;> rfl
@[simp] theorem Dev.setStoreByte_time (pl a : Nat) (v : Byte) : (d.setStoreByte pl a v).time = d.time := by
  unfold Dev.setStoreByte; split <;> rfl
@[simp] theorem Dev.setStoreByte_draws (pl a : Nat) (v : Byte) : (d.setStoreByte pl a v).draws = d.draws := by
  unfold Dev.setStoreByte; split <;> rfl
@[simp] theorem Dev.setStoreByte_dict (pl a : Nat) (v : Byte) : (d.setStoreByte pl a v).dict = d.dict := by
  unfold Dev.setStoreByte; split <;> rfl
@[simp] theorem Dev.setStoreByte_seqs (pl a : Nat) (v : Byte) : (d.setStoreByte pl a v).seqs = d.seqs := by
  unfold Dev.setStoreByte; split <;> rfl
@[simp] theorem Dev.setStoreByte_haul (pl a : Nat) (v : Byte) : (d.setStoreByte pl a v).haul = d.haul := by
  unfold Dev.setStoreByte; split <;> rfl
@[simp] theorem Dev.setStoreByte_haulStop (pl a : Nat) (v : Byte) : (d.setStoreByte pl a v).haulStop = d.haulStop := by
  unfold Dev.setStoreByte; split <;> rfl
@[simp] theorem Dev.setStoreByte_tallies (pl a : Nat) (v : Byte) : (d.setStoreByte pl a v).tallies = d.tallies := by
  unfold Dev.setStoreByte; split <;> rfl
@[simp] theorem Dev.setStoreByte_mem (pl a : Nat) (v : Byte) (h : pl < 96) : (d.setStoreByte pl a v).mem = d.mem := by simp [Dev.setStoreByte, h]
@[simp] theorem Dev.setStoreByte_fabric (pl a : Nat) (v : Byte) : (d.setStoreByte pl a v).fabric = d.fabric := by
  unfold Dev.setStoreByte; split <;> rfl
@[simp] theorem Dev.setStoreByte_training (pl a : Nat) (v : Byte) : (d.setStoreByte pl a v).training = d.training := by
  unfold Dev.setStoreByte; split <;> rfl
@[simp] theorem Dev.setStoreByte_parts (pl a : Nat) (v : Byte) : (d.setStoreByte pl a v).parts = d.parts := by
  unfold Dev.setStoreByte; split <;> rfl
@[simp] theorem Dev.setStoreByte_faults (pl a : Nat) (v : Byte) : (d.setStoreByte pl a v).faults = d.faults := by
  unfold Dev.setStoreByte; split <;> rfl
@[simp] theorem Dev.setStoreByte_mgmt (pl a : Nat) (v : Byte) : (d.setStoreByte pl a v).mgmt = d.mgmt := by
  unfold Dev.setStoreByte; split <;> rfl
@[simp] theorem Dev.setStoreByte_sec (pl a : Nat) (v : Byte) : (d.setStoreByte pl a v).sec = d.sec := by
  unfold Dev.setStoreByte; split <;> rfl
@[simp] theorem Dev.setStoreByte_env (pl a : Nat) (v : Byte) : (d.setStoreByte pl a v).env = d.env := by
  unfold Dev.setStoreByte; split <;> rfl

/-! `Dev.markLine` -/

@[simp] theorem Dev.markLine_powered (a : Nat) (p : Bool) : (d.markLine a p).powered = d.powered := rfl
@[simp] theorem Dev.markLine_time (a : Nat) (p : Bool) : (d.markLine a p).time = d.time := rfl
@[simp] theorem Dev.markLine_draws (a : Nat) (p : Bool) : (d.markLine a p).draws = d.draws := rfl
@[simp] theorem Dev.markLine_dict (a : Nat) (p : Bool) : (d.markLine a p).dict = d.dict := rfl
@[simp] theorem Dev.markLine_seqs (a : Nat) (p : Bool) : (d.markLine a p).seqs = d.seqs := rfl
@[simp] theorem Dev.markLine_benches (a : Nat) (p : Bool) : (d.markLine a p).benches = d.benches := rfl
@[simp] theorem Dev.markLine_haul (a : Nat) (p : Bool) : (d.markLine a p).haul = d.haul := rfl
@[simp] theorem Dev.markLine_haulStop (a : Nat) (p : Bool) : (d.markLine a p).haulStop = d.haulStop := rfl
@[simp] theorem Dev.markLine_tallies (a : Nat) (p : Bool) : (d.markLine a p).tallies = d.tallies := rfl
@[simp] theorem Dev.markLine_fabric (a : Nat) (p : Bool) : (d.markLine a p).fabric = d.fabric := rfl
@[simp] theorem Dev.markLine_training (a : Nat) (p : Bool) : (d.markLine a p).training = d.training := rfl
@[simp] theorem Dev.markLine_parts (a : Nat) (p : Bool) : (d.markLine a p).parts = d.parts := rfl
@[simp] theorem Dev.markLine_faults (a : Nat) (p : Bool) : (d.markLine a p).faults = d.faults := rfl
@[simp] theorem Dev.markLine_mgmt (a : Nat) (p : Bool) : (d.markLine a p).mgmt = d.mgmt := rfl
@[simp] theorem Dev.markLine_sec (a : Nat) (p : Bool) : (d.markLine a p).sec = d.sec := rfl
@[simp] theorem Dev.markLine_env (a : Nat) (p : Bool) : (d.markLine a p).env = d.env := rfl

/-! `Dev.markStore` -/

@[simp] theorem Dev.markStore_powered (pl a : Nat) (p : Bool) : (d.markStore pl a p).powered = d.powered := by
  unfold Dev.markStore; split <;> rfl
@[simp] theorem Dev.markStore_time (pl a : Nat) (p : Bool) : (d.markStore pl a p).time = d.time := by
  unfold Dev.markStore; split <;> rfl
@[simp] theorem Dev.markStore_draws (pl a : Nat) (p : Bool) : (d.markStore pl a p).draws = d.draws := by
  unfold Dev.markStore; split <;> rfl
@[simp] theorem Dev.markStore_dict (pl a : Nat) (p : Bool) : (d.markStore pl a p).dict = d.dict := by
  unfold Dev.markStore; split <;> rfl
@[simp] theorem Dev.markStore_seqs (pl a : Nat) (p : Bool) : (d.markStore pl a p).seqs = d.seqs := by
  unfold Dev.markStore; split <;> rfl
@[simp] theorem Dev.markStore_haul (pl a : Nat) (p : Bool) : (d.markStore pl a p).haul = d.haul := by
  unfold Dev.markStore; split <;> rfl
@[simp] theorem Dev.markStore_haulStop (pl a : Nat) (p : Bool) : (d.markStore pl a p).haulStop = d.haulStop := by
  unfold Dev.markStore; split <;> rfl
@[simp] theorem Dev.markStore_tallies (pl a : Nat) (p : Bool) : (d.markStore pl a p).tallies = d.tallies := by
  unfold Dev.markStore; split <;> rfl
@[simp] theorem Dev.markStore_mem (pl a : Nat) (p : Bool) (h : pl < 96) : (d.markStore pl a p).mem = d.mem := by simp [Dev.markStore, h]
@[simp] theorem Dev.markStore_fabric (pl a : Nat) (p : Bool) : (d.markStore pl a p).fabric = d.fabric := by
  unfold Dev.markStore; split <;> rfl
@[simp] theorem Dev.markStore_training (pl a : Nat) (p : Bool) : (d.markStore pl a p).training = d.training := by
  unfold Dev.markStore; split <;> rfl
@[simp] theorem Dev.markStore_parts (pl a : Nat) (p : Bool) : (d.markStore pl a p).parts = d.parts := by
  unfold Dev.markStore; split <;> rfl
@[simp] theorem Dev.markStore_faults (pl a : Nat) (p : Bool) : (d.markStore pl a p).faults = d.faults := by
  unfold Dev.markStore; split <;> rfl
@[simp] theorem Dev.markStore_mgmt (pl a : Nat) (p : Bool) : (d.markStore pl a p).mgmt = d.mgmt := by
  unfold Dev.markStore; split <;> rfl
@[simp] theorem Dev.markStore_sec (pl a : Nat) (p : Bool) : (d.markStore pl a p).sec = d.sec := by
  unfold Dev.markStore; split <;> rfl
@[simp] theorem Dev.markStore_env (pl a : Nat) (p : Bool) : (d.markStore pl a p).env = d.env := by
  unfold Dev.markStore; split <;> rfl

/-! `Dev.markRange` -/

@[simp] theorem Dev.markRange_powered (a n : Nat) (p : Bool) : (d.markRange a n p).powered = d.powered :=
  foldl_field (fun d => d.powered) _ (by intro d l; (repeat' split) <;> rfl) _ d
@[simp] theorem Dev.markRange_time (a n : Nat) (p : Bool) : (d.markRange a n p).time = d.time :=
  foldl_field (fun d => d.time) _ (by intro d l; (repeat' split) <;> rfl) _ d
@[simp] theorem Dev.markRange_draws (a n : Nat) (p : Bool) : (d.markRange a n p).draws = d.draws :=
  foldl_field (fun d => d.draws) _ (by intro d l; (repeat' split) <;> rfl) _ d
@[simp] theorem Dev.markRange_dict (a n : Nat) (p : Bool) : (d.markRange a n p).dict = d.dict :=
  foldl_field (fun d => d.dict) _ (by intro d l; (repeat' split) <;> rfl) _ d
@[simp] theorem Dev.markRange_seqs (a n : Nat) (p : Bool) : (d.markRange a n p).seqs = d.seqs :=
  foldl_field (fun d => d.seqs) _ (by intro d l; (repeat' split) <;> rfl) _ d
@[simp] theorem Dev.markRange_benches (a n : Nat) (p : Bool) : (d.markRange a n p).benches = d.benches :=
  foldl_field (fun d => d.benches) _ (by intro d l; (repeat' split) <;> rfl) _ d
@[simp] theorem Dev.markRange_haul (a n : Nat) (p : Bool) : (d.markRange a n p).haul = d.haul :=
  foldl_field (fun d => d.haul) _ (by intro d l; (repeat' split) <;> rfl) _ d
@[simp] theorem Dev.markRange_haulStop (a n : Nat) (p : Bool) : (d.markRange a n p).haulStop = d.haulStop :=
  foldl_field (fun d => d.haulStop) _ (by intro d l; (repeat' split) <;> rfl) _ d
@[simp] theorem Dev.markRange_tallies (a n : Nat) (p : Bool) : (d.markRange a n p).tallies = d.tallies :=
  foldl_field (fun d => d.tallies) _ (by intro d l; (repeat' split) <;> rfl) _ d
@[simp] theorem Dev.markRange_fabric (a n : Nat) (p : Bool) : (d.markRange a n p).fabric = d.fabric :=
  foldl_field (fun d => d.fabric) _ (by intro d l; (repeat' split) <;> rfl) _ d
@[simp] theorem Dev.markRange_training (a n : Nat) (p : Bool) : (d.markRange a n p).training = d.training :=
  foldl_field (fun d => d.training) _ (by intro d l; (repeat' split) <;> rfl) _ d
@[simp] theorem Dev.markRange_parts (a n : Nat) (p : Bool) : (d.markRange a n p).parts = d.parts :=
  foldl_field (fun d => d.parts) _ (by intro d l; (repeat' split) <;> rfl) _ d
@[simp] theorem Dev.markRange_faults (a n : Nat) (p : Bool) : (d.markRange a n p).faults = d.faults :=
  foldl_field (fun d => d.faults) _ (by intro d l; (repeat' split) <;> rfl) _ d
@[simp] theorem Dev.markRange_mgmt (a n : Nat) (p : Bool) : (d.markRange a n p).mgmt = d.mgmt :=
  foldl_field (fun d => d.mgmt) _ (by intro d l; (repeat' split) <;> rfl) _ d
@[simp] theorem Dev.markRange_sec (a n : Nat) (p : Bool) : (d.markRange a n p).sec = d.sec :=
  foldl_field (fun d => d.sec) _ (by intro d l; (repeat' split) <;> rfl) _ d
@[simp] theorem Dev.markRange_env (a n : Nat) (p : Bool) : (d.markRange a n p).env = d.env :=
  foldl_field (fun d => d.env) _ (by intro d l; (repeat' split) <;> rfl) _ d

/-! `Dev.setBytesAt` -/

@[simp] theorem Dev.setBytesAt_powered (a : Nat) (l : List Byte) : (d.setBytesAt a l).powered = d.powered :=
  by induction l generalizing d a with
  | nil => rfl
  | cons b l ih => simp [Dev.setBytesAt, ih]
@[simp] theorem Dev.setBytesAt_time (a : Nat) (l : List Byte) : (d.setBytesAt a l).time = d.time :=
  by induction l generalizing d a with
  | nil => rfl
  | cons b l ih => simp [Dev.setBytesAt, ih]
@[simp] theorem Dev.setBytesAt_draws (a : Nat) (l : List Byte) : (d.setBytesAt a l).draws = d.draws :=
  by induction l generalizing d a with
  | nil => rfl
  | cons b l ih => simp [Dev.setBytesAt, ih]
@[simp] theorem Dev.setBytesAt_dict (a : Nat) (l : List Byte) : (d.setBytesAt a l).dict = d.dict :=
  by induction l generalizing d a with
  | nil => rfl
  | cons b l ih => simp [Dev.setBytesAt, ih]
@[simp] theorem Dev.setBytesAt_seqs (a : Nat) (l : List Byte) : (d.setBytesAt a l).seqs = d.seqs :=
  by induction l generalizing d a with
  | nil => rfl
  | cons b l ih => simp [Dev.setBytesAt, ih]
@[simp] theorem Dev.setBytesAt_benches (a : Nat) (l : List Byte) : (d.setBytesAt a l).benches = d.benches :=
  by induction l generalizing d a with
  | nil => rfl
  | cons b l ih => simp [Dev.setBytesAt, ih]
@[simp] theorem Dev.setBytesAt_haul (a : Nat) (l : List Byte) : (d.setBytesAt a l).haul = d.haul :=
  by induction l generalizing d a with
  | nil => rfl
  | cons b l ih => simp [Dev.setBytesAt, ih]
@[simp] theorem Dev.setBytesAt_haulStop (a : Nat) (l : List Byte) : (d.setBytesAt a l).haulStop = d.haulStop :=
  by induction l generalizing d a with
  | nil => rfl
  | cons b l ih => simp [Dev.setBytesAt, ih]
@[simp] theorem Dev.setBytesAt_tallies (a : Nat) (l : List Byte) : (d.setBytesAt a l).tallies = d.tallies :=
  by induction l generalizing d a with
  | nil => rfl
  | cons b l ih => simp [Dev.setBytesAt, ih]
@[simp] theorem Dev.setBytesAt_fabric (a : Nat) (l : List Byte) : (d.setBytesAt a l).fabric = d.fabric :=
  by induction l generalizing d a with
  | nil => rfl
  | cons b l ih => simp [Dev.setBytesAt, ih]
@[simp] theorem Dev.setBytesAt_training (a : Nat) (l : List Byte) : (d.setBytesAt a l).training = d.training :=
  by induction l generalizing d a with
  | nil => rfl
  | cons b l ih => simp [Dev.setBytesAt, ih]
@[simp] theorem Dev.setBytesAt_parts (a : Nat) (l : List Byte) : (d.setBytesAt a l).parts = d.parts :=
  by induction l generalizing d a with
  | nil => rfl
  | cons b l ih => simp [Dev.setBytesAt, ih]
@[simp] theorem Dev.setBytesAt_faults (a : Nat) (l : List Byte) : (d.setBytesAt a l).faults = d.faults :=
  by induction l generalizing d a with
  | nil => rfl
  | cons b l ih => simp [Dev.setBytesAt, ih]
@[simp] theorem Dev.setBytesAt_mgmt (a : Nat) (l : List Byte) : (d.setBytesAt a l).mgmt = d.mgmt :=
  by induction l generalizing d a with
  | nil => rfl
  | cons b l ih => simp [Dev.setBytesAt, ih]
@[simp] theorem Dev.setBytesAt_sec (a : Nat) (l : List Byte) : (d.setBytesAt a l).sec = d.sec :=
  by induction l generalizing d a with
  | nil => rfl
  | cons b l ih => simp [Dev.setBytesAt, ih]
@[simp] theorem Dev.setBytesAt_env (a : Nat) (l : List Byte) : (d.setBytesAt a l).env = d.env :=
  by induction l generalizing d a with
  | nil => rfl
  | cons b l ih => simp [Dev.setBytesAt, ih]

/-! `Dev.setStore` -/

@[simp] theorem Dev.setStore_powered (pl a : Nat) (l : List Byte) : (d.setStore pl a l).powered = d.powered :=
  by induction l generalizing d a with
  | nil => rfl
  | cons b l ih => simp [Dev.setStore, ih]
@[simp] theorem Dev.setStore_time (pl a : Nat) (l : List Byte) : (d.setStore pl a l).time = d.time :=
  by induction l generalizing d a with
  | nil => rfl
  | cons b l ih => simp [Dev.setStore, ih]
@[simp] theorem Dev.setStore_draws (pl a : Nat) (l : List Byte) : (d.setStore pl a l).draws = d.draws :=
  by induction l generalizing d a with
  | nil => rfl
  | cons b l ih => simp [Dev.setStore, ih]
@[simp] theorem Dev.setStore_dict (pl a : Nat) (l : List Byte) : (d.setStore pl a l).dict = d.dict :=
  by induction l generalizing d a with
  | nil => rfl
  | cons b l ih => simp [Dev.setStore, ih]
@[simp] theorem Dev.setStore_seqs (pl a : Nat) (l : List Byte) : (d.setStore pl a l).seqs = d.seqs :=
  by induction l generalizing d a with
  | nil => rfl
  | cons b l ih => simp [Dev.setStore, ih]
@[simp] theorem Dev.setStore_haul (pl a : Nat) (l : List Byte) : (d.setStore pl a l).haul = d.haul :=
  by induction l generalizing d a with
  | nil => rfl
  | cons b l ih => simp [Dev.setStore, ih]
@[simp] theorem Dev.setStore_haulStop (pl a : Nat) (l : List Byte) : (d.setStore pl a l).haulStop = d.haulStop :=
  by induction l generalizing d a with
  | nil => rfl
  | cons b l ih => simp [Dev.setStore, ih]
@[simp] theorem Dev.setStore_tallies (pl a : Nat) (l : List Byte) : (d.setStore pl a l).tallies = d.tallies :=
  by induction l generalizing d a with
  | nil => rfl
  | cons b l ih => simp [Dev.setStore, ih]
@[simp] theorem Dev.setStore_mem (pl a : Nat) (l : List Byte) (h : pl < 96) : (d.setStore pl a l).mem = d.mem :=
  by induction l generalizing d a with
  | nil => rfl
  | cons b l ih => simp [Dev.setStore, ih, h]
@[simp] theorem Dev.setStore_fabric (pl a : Nat) (l : List Byte) : (d.setStore pl a l).fabric = d.fabric :=
  by induction l generalizing d a with
  | nil => rfl
  | cons b l ih => simp [Dev.setStore, ih]
@[simp] theorem Dev.setStore_training (pl a : Nat) (l : List Byte) : (d.setStore pl a l).training = d.training :=
  by induction l generalizing d a with
  | nil => rfl
  | cons b l ih => simp [Dev.setStore, ih]
@[simp] theorem Dev.setStore_parts (pl a : Nat) (l : List Byte) : (d.setStore pl a l).parts = d.parts :=
  by induction l generalizing d a with
  | nil => rfl
  | cons b l ih => simp [Dev.setStore, ih]
@[simp] theorem Dev.setStore_faults (pl a : Nat) (l : List Byte) : (d.setStore pl a l).faults = d.faults :=
  by induction l generalizing d a with
  | nil => rfl
  | cons b l ih => simp [Dev.setStore, ih]
@[simp] theorem Dev.setStore_mgmt (pl a : Nat) (l : List Byte) : (d.setStore pl a l).mgmt = d.mgmt :=
  by induction l generalizing d a with
  | nil => rfl
  | cons b l ih => simp [Dev.setStore, ih]
@[simp] theorem Dev.setStore_sec (pl a : Nat) (l : List Byte) : (d.setStore pl a l).sec = d.sec :=
  by induction l generalizing d a with
  | nil => rfl
  | cons b l ih => simp [Dev.setStore, ih]
@[simp] theorem Dev.setStore_env (pl a : Nat) (l : List Byte) : (d.setStore pl a l).env = d.env :=
  by induction l generalizing d a with
  | nil => rfl
  | cons b l ih => simp [Dev.setStore, ih]

/-! `Dev.writeMem` -/

@[simp] theorem Dev.writeMem_powered (a : Nat) (l : List Byte) (p : Bool) : (d.writeMem a l p).powered = d.powered :=
  by simp [Dev.writeMem]
@[simp] theorem Dev.writeMem_time (a : Nat) (l : List Byte) (p : Bool) : (d.writeMem a l p).time = d.time :=
  by simp [Dev.writeMem]
@[simp] theorem Dev.writeMem_draws (a : Nat) (l : List Byte) (p : Bool) : (d.writeMem a l p).draws = d.draws :=
  by simp [Dev.writeMem]
@[simp] theorem Dev.writeMem_dict (a : Nat) (l : List Byte) (p : Bool) : (d.writeMem a l p).dict = d.dict :=
  by simp [Dev.writeMem]
@[simp] theorem Dev.writeMem_seqs (a : Nat) (l : List Byte) (p : Bool) : (d.writeMem a l p).seqs = d.seqs :=
  by simp [Dev.writeMem]
@[simp] theorem Dev.writeMem_benches (a : Nat) (l : List Byte) (p : Bool) : (d.writeMem a l p).benches = d.benches :=
  by simp [Dev.writeMem]
@[simp] theorem Dev.writeMem_haul (a : Nat) (l : List Byte) (p : Bool) : (d.writeMem a l p).haul = d.haul :=
  by simp [Dev.writeMem]
@[simp] theorem Dev.writeMem_haulStop (a : Nat) (l : List Byte) (p : Bool) : (d.writeMem a l p).haulStop = d.haulStop :=
  by simp [Dev.writeMem]
@[simp] theorem Dev.writeMem_tallies (a : Nat) (l : List Byte) (p : Bool) : (d.writeMem a l p).tallies = d.tallies :=
  by simp [Dev.writeMem]
@[simp] theorem Dev.writeMem_fabric (a : Nat) (l : List Byte) (p : Bool) : (d.writeMem a l p).fabric = d.fabric :=
  by simp [Dev.writeMem]
@[simp] theorem Dev.writeMem_training (a : Nat) (l : List Byte) (p : Bool) : (d.writeMem a l p).training = d.training :=
  by simp [Dev.writeMem]
@[simp] theorem Dev.writeMem_parts (a : Nat) (l : List Byte) (p : Bool) : (d.writeMem a l p).parts = d.parts :=
  by simp [Dev.writeMem]
@[simp] theorem Dev.writeMem_faults (a : Nat) (l : List Byte) (p : Bool) : (d.writeMem a l p).faults = d.faults :=
  by simp [Dev.writeMem]
@[simp] theorem Dev.writeMem_mgmt (a : Nat) (l : List Byte) (p : Bool) : (d.writeMem a l p).mgmt = d.mgmt :=
  by simp [Dev.writeMem]
@[simp] theorem Dev.writeMem_sec (a : Nat) (l : List Byte) (p : Bool) : (d.writeMem a l p).sec = d.sec :=
  by simp [Dev.writeMem]
@[simp] theorem Dev.writeMem_env (a : Nat) (l : List Byte) (p : Bool) : (d.writeMem a l p).env = d.env :=
  by simp [Dev.writeMem]

/-! `Dev.writeStore` -/

@[simp] theorem Dev.writeStore_powered (pl a : Nat) (l : List Byte) (p : Bool) : (d.writeStore pl a l p).powered = d.powered :=
  (foldl_field (fun d => d.powered) _ (by intro d l; (repeat' split) <;> simp) _ _).trans (by simp)
@[simp] theorem Dev.writeStore_time (pl a : Nat) (l : List Byte) (p : Bool) : (d.writeStore pl a l p).time = d.time :=
  (foldl_field (fun d => d.time) _ (by intro d l; (repeat' split) <;> simp) _ _).trans (by simp)
@[simp] theorem Dev.writeStore_draws (pl a : Nat) (l : List Byte) (p : Bool) : (d.writeStore pl a l p).draws = d.draws :=
  (foldl_field (fun d => d.draws) _ (by intro d l; (repeat' split) <;> simp) _ _).trans (by simp)
@[simp] theorem Dev.writeStore_dict (pl a : Nat) (l : List Byte) (p : Bool) : (d.writeStore pl a l p).dict = d.dict :=
  (foldl_field (fun d => d.dict) _ (by intro d l; (repeat' split) <;> simp) _ _).trans (by simp)
@[simp] theorem Dev.writeStore_seqs (pl a : Nat) (l : List Byte) (p : Bool) : (d.writeStore pl a l p).seqs = d.seqs :=
  (foldl_field (fun d => d.seqs) _ (by intro d l; (repeat' split) <;> simp) _ _).trans (by simp)
@[simp] theorem Dev.writeStore_haul (pl a : Nat) (l : List Byte) (p : Bool) : (d.writeStore pl a l p).haul = d.haul :=
  (foldl_field (fun d => d.haul) _ (by intro d l; (repeat' split) <;> simp) _ _).trans (by simp)
@[simp] theorem Dev.writeStore_haulStop (pl a : Nat) (l : List Byte) (p : Bool) : (d.writeStore pl a l p).haulStop = d.haulStop :=
  (foldl_field (fun d => d.haulStop) _ (by intro d l; (repeat' split) <;> simp) _ _).trans (by simp)
@[simp] theorem Dev.writeStore_tallies (pl a : Nat) (l : List Byte) (p : Bool) : (d.writeStore pl a l p).tallies = d.tallies :=
  (foldl_field (fun d => d.tallies) _ (by intro d l; (repeat' split) <;> simp) _ _).trans (by simp)
@[simp] theorem Dev.writeStore_mem (pl a : Nat) (l : List Byte) (p : Bool) (h : pl < 96) : (d.writeStore pl a l p).mem = d.mem :=
  (foldl_field (fun d => d.mem) _ (by intro d l; (repeat' split) <;> simp [h]) _ _).trans (by simp [h])
@[simp] theorem Dev.writeStore_fabric (pl a : Nat) (l : List Byte) (p : Bool) : (d.writeStore pl a l p).fabric = d.fabric :=
  (foldl_field (fun d => d.fabric) _ (by intro d l; (repeat' split) <;> simp) _ _).trans (by simp)
@[simp] theorem Dev.writeStore_training (pl a : Nat) (l : List Byte) (p : Bool) : (d.writeStore pl a l p).training = d.training :=
  (foldl_field (fun d => d.training) _ (by intro d l; (repeat' split) <;> simp) _ _).trans (by simp)
@[simp] theorem Dev.writeStore_parts (pl a : Nat) (l : List Byte) (p : Bool) : (d.writeStore pl a l p).parts = d.parts :=
  (foldl_field (fun d => d.parts) _ (by intro d l; (repeat' split) <;> simp) _ _).trans (by simp)
@[simp] theorem Dev.writeStore_faults (pl a : Nat) (l : List Byte) (p : Bool) : (d.writeStore pl a l p).faults = d.faults :=
  (foldl_field (fun d => d.faults) _ (by intro d l; (repeat' split) <;> simp) _ _).trans (by simp)
@[simp] theorem Dev.writeStore_mgmt (pl a : Nat) (l : List Byte) (p : Bool) : (d.writeStore pl a l p).mgmt = d.mgmt :=
  (foldl_field (fun d => d.mgmt) _ (by intro d l; (repeat' split) <;> simp) _ _).trans (by simp)
@[simp] theorem Dev.writeStore_sec (pl a : Nat) (l : List Byte) (p : Bool) : (d.writeStore pl a l p).sec = d.sec :=
  (foldl_field (fun d => d.sec) _ (by intro d l; (repeat' split) <;> simp) _ _).trans (by simp)
@[simp] theorem Dev.writeStore_env (pl a : Nat) (l : List Byte) (p : Bool) : (d.writeStore pl a l p).env = d.env :=
  (foldl_field (fun d => d.env) _ (by intro d l; (repeat' split) <;> simp) _ _).trans (by simp)

/-! `Dev.keepClient` -/

@[simp] theorem Dev.keepClient_powered (x : ClientState) : (d.keepClient x).powered = d.powered := rfl
@[simp] theorem Dev.keepClient_time (x : ClientState) : (d.keepClient x).time = d.time := rfl
@[simp] theorem Dev.keepClient_draws (x : ClientState) : (d.keepClient x).draws = d.draws := rfl
@[simp] theorem Dev.keepClient_dict (x : ClientState) : (d.keepClient x).dict = d.dict := rfl
@[simp] theorem Dev.keepClient_seqs (x : ClientState) : (d.keepClient x).seqs = d.seqs := rfl
@[simp] theorem Dev.keepClient_benches (x : ClientState) : (d.keepClient x).benches = d.benches := rfl
@[simp] theorem Dev.keepClient_haul (x : ClientState) : (d.keepClient x).haul = d.haul := rfl
@[simp] theorem Dev.keepClient_haulStop (x : ClientState) : (d.keepClient x).haulStop = d.haulStop := rfl
@[simp] theorem Dev.keepClient_tallies (x : ClientState) : (d.keepClient x).tallies = d.tallies := rfl
@[simp] theorem Dev.keepClient_mem (x : ClientState) : (d.keepClient x).mem = d.mem := rfl
@[simp] theorem Dev.keepClient_fabric (x : ClientState) : (d.keepClient x).fabric = d.fabric := rfl
@[simp] theorem Dev.keepClient_training (x : ClientState) : (d.keepClient x).training = d.training := rfl
@[simp] theorem Dev.keepClient_parts (x : ClientState) : (d.keepClient x).parts = d.parts := rfl
@[simp] theorem Dev.keepClient_faults (x : ClientState) : (d.keepClient x).faults = d.faults := rfl
@[simp] theorem Dev.keepClient_sec (x : ClientState) : (d.keepClient x).sec = d.sec := rfl
@[simp] theorem Dev.keepClient_env (x : ClientState) : (d.keepClient x).env = d.env := rfl

/-! `Dev.mbxPut` -/

@[simp] theorem Dev.mbxPut_powered (l : List Byte) : (d.mbxPut l).powered = d.powered := rfl
@[simp] theorem Dev.mbxPut_time (l : List Byte) : (d.mbxPut l).time = d.time := rfl
@[simp] theorem Dev.mbxPut_draws (l : List Byte) : (d.mbxPut l).draws = d.draws := rfl
@[simp] theorem Dev.mbxPut_dict (l : List Byte) : (d.mbxPut l).dict = d.dict := rfl
@[simp] theorem Dev.mbxPut_seqs (l : List Byte) : (d.mbxPut l).seqs = d.seqs := rfl
@[simp] theorem Dev.mbxPut_benches (l : List Byte) : (d.mbxPut l).benches = d.benches := rfl
@[simp] theorem Dev.mbxPut_haul (l : List Byte) : (d.mbxPut l).haul = d.haul := rfl
@[simp] theorem Dev.mbxPut_haulStop (l : List Byte) : (d.mbxPut l).haulStop = d.haulStop := rfl
@[simp] theorem Dev.mbxPut_tallies (l : List Byte) : (d.mbxPut l).tallies = d.tallies := rfl
@[simp] theorem Dev.mbxPut_mem (l : List Byte) : (d.mbxPut l).mem = d.mem := rfl
@[simp] theorem Dev.mbxPut_fabric (l : List Byte) : (d.mbxPut l).fabric = d.fabric := rfl
@[simp] theorem Dev.mbxPut_training (l : List Byte) : (d.mbxPut l).training = d.training := rfl
@[simp] theorem Dev.mbxPut_parts (l : List Byte) : (d.mbxPut l).parts = d.parts := rfl
@[simp] theorem Dev.mbxPut_faults (l : List Byte) : (d.mbxPut l).faults = d.faults := rfl
@[simp] theorem Dev.mbxPut_sec (l : List Byte) : (d.mbxPut l).sec = d.sec := rfl
@[simp] theorem Dev.mbxPut_env (l : List Byte) : (d.mbxPut l).env = d.env := rfl

/-! `Dev.mbxDone` -/

@[simp] theorem Dev.mbxDone_powered (r : DictReply) : (d.mbxDone r).powered = d.powered :=
  by unfold Dev.mbxDone; split <;> simp
@[simp] theorem Dev.mbxDone_time (r : DictReply) : (d.mbxDone r).time = d.time := by unfold Dev.mbxDone; split <;> simp
@[simp] theorem Dev.mbxDone_draws (r : DictReply) : (d.mbxDone r).draws = d.draws := by unfold Dev.mbxDone; split <;> simp
@[simp] theorem Dev.mbxDone_seqs (r : DictReply) : (d.mbxDone r).seqs = d.seqs := by unfold Dev.mbxDone; split <;> simp
@[simp] theorem Dev.mbxDone_benches (r : DictReply) : (d.mbxDone r).benches = d.benches :=
  by unfold Dev.mbxDone; split <;> simp
@[simp] theorem Dev.mbxDone_haul (r : DictReply) : (d.mbxDone r).haul = d.haul := by unfold Dev.mbxDone; split <;> simp
@[simp] theorem Dev.mbxDone_haulStop (r : DictReply) : (d.mbxDone r).haulStop = d.haulStop :=
  by unfold Dev.mbxDone; split <;> simp
@[simp] theorem Dev.mbxDone_tallies (r : DictReply) : (d.mbxDone r).tallies = d.tallies :=
  by unfold Dev.mbxDone; split <;> simp
@[simp] theorem Dev.mbxDone_mem (r : DictReply) : (d.mbxDone r).mem = d.mem := by unfold Dev.mbxDone; split <;> simp
@[simp] theorem Dev.mbxDone_fabric (r : DictReply) : (d.mbxDone r).fabric = d.fabric :=
  by unfold Dev.mbxDone; split <;> simp
@[simp] theorem Dev.mbxDone_training (r : DictReply) : (d.mbxDone r).training = d.training :=
  by unfold Dev.mbxDone; split <;> simp
@[simp] theorem Dev.mbxDone_parts (r : DictReply) : (d.mbxDone r).parts = d.parts := by unfold Dev.mbxDone; split <;> simp
@[simp] theorem Dev.mbxDone_faults (r : DictReply) : (d.mbxDone r).faults = d.faults :=
  by unfold Dev.mbxDone; split <;> simp
@[simp] theorem Dev.mbxDone_sec (r : DictReply) : (d.mbxDone r).sec = d.sec := by unfold Dev.mbxDone; split <;> simp
@[simp] theorem Dev.mbxDone_env (r : DictReply) : (d.mbxDone r).env = d.env := by unfold Dev.mbxDone; split <;> simp

/-! `Dev.receive` -/

@[simp] theorem Dev.receive_powered (o : Origin) (q : DictReq) : (d.receive o q).powered = d.powered :=
  by unfold Dev.receive; dsimp only; (repeat' split) <;> simp
@[simp] theorem Dev.receive_time (o : Origin) (q : DictReq) : (d.receive o q).time = d.time :=
  by unfold Dev.receive; dsimp only; (repeat' split) <;> simp
@[simp] theorem Dev.receive_draws (o : Origin) (q : DictReq) : (d.receive o q).draws = d.draws :=
  by unfold Dev.receive; dsimp only; (repeat' split) <;> simp
@[simp] theorem Dev.receive_seqs (o : Origin) (q : DictReq) : (d.receive o q).seqs = d.seqs :=
  by unfold Dev.receive; dsimp only; (repeat' split) <;> simp
@[simp] theorem Dev.receive_benches (o : Origin) (q : DictReq) : (d.receive o q).benches = d.benches :=
  by unfold Dev.receive; dsimp only; (repeat' split) <;> simp
@[simp] theorem Dev.receive_haul (o : Origin) (q : DictReq) : (d.receive o q).haul = d.haul :=
  by unfold Dev.receive; dsimp only; (repeat' split) <;> simp
@[simp] theorem Dev.receive_haulStop (o : Origin) (q : DictReq) : (d.receive o q).haulStop = d.haulStop :=
  by unfold Dev.receive; dsimp only; (repeat' split) <;> simp
@[simp] theorem Dev.receive_tallies (o : Origin) (q : DictReq) : (d.receive o q).tallies = d.tallies :=
  by unfold Dev.receive; dsimp only; (repeat' split) <;> simp
@[simp] theorem Dev.receive_mem (o : Origin) (q : DictReq) : (d.receive o q).mem = d.mem :=
  by unfold Dev.receive; dsimp only; (repeat' split) <;> simp
@[simp] theorem Dev.receive_fabric (o : Origin) (q : DictReq) : (d.receive o q).fabric = d.fabric :=
  by unfold Dev.receive; dsimp only; (repeat' split) <;> simp
@[simp] theorem Dev.receive_training (o : Origin) (q : DictReq) : (d.receive o q).training = d.training :=
  by unfold Dev.receive; dsimp only; (repeat' split) <;> simp
@[simp] theorem Dev.receive_parts (o : Origin) (q : DictReq) : (d.receive o q).parts = d.parts :=
  by unfold Dev.receive; dsimp only; (repeat' split) <;> simp
@[simp] theorem Dev.receive_faults (o : Origin) (q : DictReq) : (d.receive o q).faults = d.faults :=
  by unfold Dev.receive; dsimp only; (repeat' split) <;> simp
@[simp] theorem Dev.receive_sec (o : Origin) (q : DictReq) : (d.receive o q).sec = d.sec :=
  by unfold Dev.receive; dsimp only; (repeat' split) <;> simp
@[simp] theorem Dev.receive_env (o : Origin) (q : DictReq) : (d.receive o q).env = d.env :=
  by unfold Dev.receive; dsimp only; (repeat' split) <;> simp

/-! `Dev.sendAnswer` -/

@[simp] theorem Dev.sendAnswer_powered (c : Client) (h : Nat) (a : Answer) : (d.sendAnswer c h a).powered = d.powered :=
  by simp [Dev.sendAnswer]
@[simp] theorem Dev.sendAnswer_time (c : Client) (h : Nat) (a : Answer) : (d.sendAnswer c h a).time = d.time :=
  by simp [Dev.sendAnswer]
@[simp] theorem Dev.sendAnswer_draws (c : Client) (h : Nat) (a : Answer) : (d.sendAnswer c h a).draws = d.draws :=
  by simp [Dev.sendAnswer]
@[simp] theorem Dev.sendAnswer_dict (c : Client) (h : Nat) (a : Answer) : (d.sendAnswer c h a).dict = d.dict :=
  by simp [Dev.sendAnswer]
@[simp] theorem Dev.sendAnswer_seqs (c : Client) (h : Nat) (a : Answer) : (d.sendAnswer c h a).seqs = d.seqs :=
  by simp [Dev.sendAnswer]
@[simp] theorem Dev.sendAnswer_benches (c : Client) (h : Nat) (a : Answer) : (d.sendAnswer c h a).benches = d.benches :=
  by simp [Dev.sendAnswer]
@[simp] theorem Dev.sendAnswer_haul (c : Client) (h : Nat) (a : Answer) : (d.sendAnswer c h a).haul = d.haul :=
  by simp [Dev.sendAnswer]
@[simp] theorem Dev.sendAnswer_haulStop (c : Client) (h : Nat) (a : Answer) : (d.sendAnswer c h a).haulStop = d.haulStop :=
  by simp [Dev.sendAnswer]
@[simp] theorem Dev.sendAnswer_tallies (c : Client) (h : Nat) (a : Answer) : (d.sendAnswer c h a).tallies = d.tallies :=
  by simp [Dev.sendAnswer]
@[simp] theorem Dev.sendAnswer_mem (c : Client) (h : Nat) (a : Answer) : (d.sendAnswer c h a).mem = d.mem :=
  by simp [Dev.sendAnswer]
@[simp] theorem Dev.sendAnswer_fabric (c : Client) (h : Nat) (a : Answer) : (d.sendAnswer c h a).fabric = d.fabric :=
  by simp [Dev.sendAnswer]
@[simp] theorem Dev.sendAnswer_training (c : Client) (h : Nat) (a : Answer) : (d.sendAnswer c h a).training = d.training :=
  by simp [Dev.sendAnswer]
@[simp] theorem Dev.sendAnswer_parts (c : Client) (h : Nat) (a : Answer) : (d.sendAnswer c h a).parts = d.parts :=
  by simp [Dev.sendAnswer]
@[simp] theorem Dev.sendAnswer_faults (c : Client) (h : Nat) (a : Answer) : (d.sendAnswer c h a).faults = d.faults :=
  by simp [Dev.sendAnswer]
@[simp] theorem Dev.sendAnswer_sec (c : Client) (h : Nat) (a : Answer) : (d.sendAnswer c h a).sec = d.sec :=
  by simp [Dev.sendAnswer]
@[simp] theorem Dev.sendAnswer_env (c : Client) (h : Nat) (a : Answer) : (d.sendAnswer c h a).env = d.env :=
  by simp [Dev.sendAnswer]

/-! `Dev.answerReq` -/

@[simp] theorem Dev.answerReq_powered (o : Origin) (q : DictReq) (r : DictReply) : (d.answerReq o q r).powered = d.powered :=
  by unfold Dev.answerReq; dsimp only; (repeat' split) <;> simp
@[simp] theorem Dev.answerReq_time (o : Origin) (q : DictReq) (r : DictReply) : (d.answerReq o q r).time = d.time :=
  by unfold Dev.answerReq; dsimp only; (repeat' split) <;> simp
@[simp] theorem Dev.answerReq_draws (o : Origin) (q : DictReq) (r : DictReply) : (d.answerReq o q r).draws = d.draws :=
  by unfold Dev.answerReq; dsimp only; (repeat' split) <;> simp
@[simp] theorem Dev.answerReq_seqs (o : Origin) (q : DictReq) (r : DictReply) : (d.answerReq o q r).seqs = d.seqs :=
  by unfold Dev.answerReq; dsimp only; (repeat' split) <;> simp
@[simp] theorem Dev.answerReq_benches (o : Origin) (q : DictReq) (r : DictReply) : (d.answerReq o q r).benches = d.benches :=
  by unfold Dev.answerReq; dsimp only; (repeat' split) <;> simp
@[simp] theorem Dev.answerReq_haul (o : Origin) (q : DictReq) (r : DictReply) : (d.answerReq o q r).haul = d.haul :=
  by unfold Dev.answerReq; dsimp only; (repeat' split) <;> simp
@[simp] theorem Dev.answerReq_haulStop (o : Origin) (q : DictReq) (r : DictReply) : (d.answerReq o q r).haulStop = d.haulStop :=
  by unfold Dev.answerReq; dsimp only; (repeat' split) <;> simp
@[simp] theorem Dev.answerReq_tallies (o : Origin) (q : DictReq) (r : DictReply) : (d.answerReq o q r).tallies = d.tallies :=
  by unfold Dev.answerReq; dsimp only; (repeat' split) <;> simp
@[simp] theorem Dev.answerReq_mem (o : Origin) (q : DictReq) (r : DictReply) : (d.answerReq o q r).mem = d.mem :=
  by unfold Dev.answerReq; dsimp only; (repeat' split) <;> simp
@[simp] theorem Dev.answerReq_fabric (o : Origin) (q : DictReq) (r : DictReply) : (d.answerReq o q r).fabric = d.fabric :=
  by unfold Dev.answerReq; dsimp only; (repeat' split) <;> simp
@[simp] theorem Dev.answerReq_training (o : Origin) (q : DictReq) (r : DictReply) : (d.answerReq o q r).training = d.training :=
  by unfold Dev.answerReq; dsimp only; (repeat' split) <;> simp
@[simp] theorem Dev.answerReq_parts (o : Origin) (q : DictReq) (r : DictReply) : (d.answerReq o q r).parts = d.parts :=
  by unfold Dev.answerReq; dsimp only; (repeat' split) <;> simp
@[simp] theorem Dev.answerReq_faults (o : Origin) (q : DictReq) (r : DictReply) : (d.answerReq o q r).faults = d.faults :=
  by unfold Dev.answerReq; dsimp only; (repeat' split) <;> simp
@[simp] theorem Dev.answerReq_sec (o : Origin) (q : DictReq) (r : DictReply) : (d.answerReq o q r).sec = d.sec :=
  by unfold Dev.answerReq; dsimp only; (repeat' split) <;> simp
@[simp] theorem Dev.answerReq_env (o : Origin) (q : DictReq) (r : DictReply) : (d.answerReq o q r).env = d.env :=
  by unfold Dev.answerReq; dsimp only; (repeat' split) <;> simp

/-! `Dev.closeTransfer` -/

@[simp] theorem Dev.closeTransfer_powered (i : Nat) : (d.closeTransfer i).powered = d.powered := rfl
@[simp] theorem Dev.closeTransfer_time (i : Nat) : (d.closeTransfer i).time = d.time := rfl
@[simp] theorem Dev.closeTransfer_draws (i : Nat) : (d.closeTransfer i).draws = d.draws := rfl
@[simp] theorem Dev.closeTransfer_dict (i : Nat) : (d.closeTransfer i).dict = d.dict := rfl
@[simp] theorem Dev.closeTransfer_seqs (i : Nat) : (d.closeTransfer i).seqs = d.seqs := rfl
@[simp] theorem Dev.closeTransfer_benches (i : Nat) : (d.closeTransfer i).benches = d.benches := rfl
@[simp] theorem Dev.closeTransfer_haul (i : Nat) : (d.closeTransfer i).haul = d.haul := rfl
@[simp] theorem Dev.closeTransfer_haulStop (i : Nat) : (d.closeTransfer i).haulStop = d.haulStop := rfl
@[simp] theorem Dev.closeTransfer_tallies (i : Nat) : (d.closeTransfer i).tallies = d.tallies := rfl
@[simp] theorem Dev.closeTransfer_mem (i : Nat) : (d.closeTransfer i).mem = d.mem := rfl
@[simp] theorem Dev.closeTransfer_fabric (i : Nat) : (d.closeTransfer i).fabric = d.fabric := rfl
@[simp] theorem Dev.closeTransfer_training (i : Nat) : (d.closeTransfer i).training = d.training := rfl
@[simp] theorem Dev.closeTransfer_parts (i : Nat) : (d.closeTransfer i).parts = d.parts := rfl
@[simp] theorem Dev.closeTransfer_faults (i : Nat) : (d.closeTransfer i).faults = d.faults := rfl
@[simp] theorem Dev.closeTransfer_sec (i : Nat) : (d.closeTransfer i).sec = d.sec := rfl
@[simp] theorem Dev.closeTransfer_env (i : Nat) : (d.closeTransfer i).env = d.env := rfl

/-! `Dev.putTransfer` -/

@[simp] theorem Dev.putTransfer_powered (t : Transfer) : (d.putTransfer t).powered = d.powered := rfl
@[simp] theorem Dev.putTransfer_time (t : Transfer) : (d.putTransfer t).time = d.time := rfl
@[simp] theorem Dev.putTransfer_draws (t : Transfer) : (d.putTransfer t).draws = d.draws := rfl
@[simp] theorem Dev.putTransfer_dict (t : Transfer) : (d.putTransfer t).dict = d.dict := rfl
@[simp] theorem Dev.putTransfer_seqs (t : Transfer) : (d.putTransfer t).seqs = d.seqs := rfl
@[simp] theorem Dev.putTransfer_benches (t : Transfer) : (d.putTransfer t).benches = d.benches := rfl
@[simp] theorem Dev.putTransfer_haul (t : Transfer) : (d.putTransfer t).haul = d.haul := rfl
@[simp] theorem Dev.putTransfer_haulStop (t : Transfer) : (d.putTransfer t).haulStop = d.haulStop := rfl
@[simp] theorem Dev.putTransfer_tallies (t : Transfer) : (d.putTransfer t).tallies = d.tallies := rfl
@[simp] theorem Dev.putTransfer_mem (t : Transfer) : (d.putTransfer t).mem = d.mem := rfl
@[simp] theorem Dev.putTransfer_fabric (t : Transfer) : (d.putTransfer t).fabric = d.fabric := rfl
@[simp] theorem Dev.putTransfer_training (t : Transfer) : (d.putTransfer t).training = d.training := rfl
@[simp] theorem Dev.putTransfer_parts (t : Transfer) : (d.putTransfer t).parts = d.parts := rfl
@[simp] theorem Dev.putTransfer_faults (t : Transfer) : (d.putTransfer t).faults = d.faults := rfl
@[simp] theorem Dev.putTransfer_sec (t : Transfer) : (d.putTransfer t).sec = d.sec := rfl
@[simp] theorem Dev.putTransfer_env (t : Transfer) : (d.putTransfer t).env = d.env := rfl

end Sys2Proof.Machine
end

