-- ==== Sys2Proof/Laws/Ops.lean ====
section
/-! SUPPORT. What each shared operation writes, and how a meaning is lifted to the whole state. -/

namespace Sys2Proof.Machine

/-! Lifts. -/

theorem onDev_powered (f : Dev → Dev) {s : State} (h : s.dev.powered = true) : onDev f s = .next { s with dev := f s.dev } := by
  simp [onDev, h]

theorem onDev_off (f : Dev → Dev) {s : State} (h : s.dev.powered = false) : onDev f s = .next s := by simp [onDev, h]

theorem onFused_powered (f : Fuses → Dev → Dev) {s : State} (h : s.dev.powered = true) :
    onFused f s = .next { s with dev := f s.fuses s.dev } := by simp [onFused, h]

theorem onFused_off (f : Fuses → Dev → Dev) {s : State} (h : s.dev.powered = false) : onFused f s = .next s := by
  simp [onFused, h]

theorem onAll_powered (f : Fuses → Dev → Fuses × Dev) {s : State} (h : s.dev.powered = true) :
    onAll f s = .next { s with fuses := (f s.fuses s.dev).1, dev := (f s.fuses s.dev).2 } := by simp [onAll, h]

theorem onAll_off (f : Fuses → Dev → Fuses × Dev) {s : State} (h : s.dev.powered = false) : onAll f s = .next s := by
  simp [onAll, h]

theorem onDie_live (f : Dev → Dev) {s : State} (h : s.dev.live = true) : onDie f s = .next { s with dev := f s.dev } := by
  simp [onDie, h]

theorem onDie_dead (f : Dev → Dev) {s : State} (h : s.dev.live = false) : onDie f s = .next s := by simp [onDie, h]

theorem onDieFused_live (f : Fuses → Dev → Dev) {s : State} (h : s.dev.live = true) :
    onDieFused f s = .next { s with dev := f s.fuses s.dev } := by simp [onDieFused, h]

theorem onDieFused_dead (f : Fuses → Dev → Dev) {s : State} (h : s.dev.live = false) : onDieFused f s = .next s := by
  simp [onDieFused, h]

theorem Dev.powered_of_live {d : Dev} (h : d.live = true) : d.powered = true := by
  simp [Dev.live] at h; exact h.1.1.1

theorem Dev.not_live_of_off {d : Dev} (h : d.powered = false) : d.live = false := by simp [Dev.live, h]

/-! Dictionary entries. -/

@[simp] theorem Dev.get_put_self (d : Dev) (k v : Nat) : (d.put k v).get k = v := SMap.get_set_self _ _ k v

theorem Dev.get_put_ne (d : Dev) {k j : Nat} (v : Nat) (h : j ≠ k) : (d.put k v).get j = d.get j :=
  SMap.get_set_ne' _ _ _ v h

theorem Dev.get_congr {d e : Dev} (h : e.dict = d.dict) (k : Nat) : e.get k = d.get k := by simp [Dev.get, h]

@[simp] theorem Dev.get_bump_self (d : Dev) (k n : Nat) : (d.bump k n).get k = (d.get k + n) % 2 ^ 64 := Dev.get_put_self _ _ _

theorem Dev.get_bump_ne (d : Dev) {k j : Nat} (n : Nat) (h : j ≠ k) : (d.bump k n).get j = d.get j := Dev.get_put_ne d _ h

@[simp] theorem Dev.get_send (d : Dev) (m : OutMsg) (k : Nat) : (d.send m).get k = d.get k := rfl

@[simp] theorem Dev.get_msix (d : Dev) (v k : Nat) : (d.msix v).get k = d.get k := Dev.get_congr (Dev.msix_dict d v) k

/-! Units. -/

@[simp] theorem Dev.part_setPart (d : Dev) (p : Nat) (x : Part) : (d.setPart p x).part p = x := SMap.get_set_self _ _ p x

@[simp] theorem Dev.train_setTrain (d : Dev) (p : Nat) (x : Train) : (d.setTrain p x).train p = x := SMap.get_set_self _ _ p x

@[simp] theorem Dev.bed_setBed (d : Dev) (p : Nat) (x : Bed) : (d.setBed p x).bed p = x := SMap.get_set_self _ _ p x

@[simp] theorem Dev.bench_setBench (d : Dev) (pl : Nat) (x : Bench) : (d.setBench pl x).bench pl = x :=
  SMap.get_set_self _ _ pl x

@[simp] theorem Dev.cursor_setCursor (d : Dev) (k : ChainId) (u : Nat) (x : Cursor) : (d.setCursor k u x).cursor k u = x :=
  SMap.get_set_self _ _ (curKey k u) x

theorem Dev.cursor_setCursor_ne (d : Dev) (k : ChainId) {u v : Nat} (x : Cursor) (h : v ≠ u) :
    (d.setCursor k u x).cursor k v = d.cursor k v := SMap.get_set_ne _ _ x (by unfold curKey; omega)

@[simp] theorem Dev.gauge_setGauge (d : Dev) (k : ChainId) (l : List Seg) : (d.setGauge k l).gauge k = l :=
  SMap.get_set_self _ _ (chainIx k) l

@[simp] theorem Dev.chan_setChan (d : Dev) (h ch : Nat) (x : Chan) : (d.setChan h ch x).chan h ch = x :=
  SMap.get_set_self _ _ (8 * h + ch) x

@[simp] theorem Dev.tally_setTally (d : Dev) (t : Nat) (x : Tally) : (d.setTally t x).tally t = x := SMap.get_set_self _ _ t x

@[simp] theorem Dev.waitAt_setWait (d : Dev) (i : Nat) (w : Wait) : (d.setWait i w).waitAt i = w := SMap.get_set_self _ _ i w

@[simp] theorem Dev.vreg_setVreg (d : Dev) (pl r : Nat) (x : List Word32) : (d.setVreg pl r x).vreg pl r = x :=
  SMap.get_set_self _ _ (32 * pl + r) x

@[simp] theorem Dev.vmaskReg_setVmask (d : Dev) (pl m x : Nat) : (d.setVmask pl m x).vmaskReg pl m = x :=
  SMap.get_set_self _ _ (8 * pl + m) x

@[simp] theorem Dev.port_setPort (d : Dev) (n : Nat) (x : Port) : (d.setPort n x).port n = x := SMap.get_set_self _ _ n x

@[simp] theorem Dev.pc_setPc (d : Dev) (c : Nat) (v : PcState) : (d.setPc c v).pc c = v := SMap.get_set_self _ _ c v

/-! Memory keeps its canonical form. -/

theorem Dev.setBytesAt_hbm_wf {d : Dev} (off : Nat) (bs : List Byte) (h : Memory.wf d.mem.hbm = true) :
    Memory.wf (d.setBytesAt off bs).mem.hbm = true := by
  induction bs generalizing d off with
  | nil => exact h
  | cons b bs ih => exact ih (off + 1) (Memory.wf_setByte _ b h)

theorem Dev.setStoreByte_wf {d : Dev} (pl a : Nat) (v : Byte) (h : Memory.wf d.benches.store = true) :
    Memory.wf (d.setStoreByte pl a v).benches.store = true := by
  unfold Dev.setStoreByte
  split
  · exact Memory.wf_setByte _ v h
  · exact h

/-- Poison marks are no part of what bench store holds. -/
@[simp] theorem Dev.markStore_store (d : Dev) (pl a : Nat) (p : Bool) : (d.markStore pl a p).benches.store = d.benches.store := by
  unfold Dev.markStore; split <;> rfl

theorem Dev.setStore_wf {d : Dev} (pl a : Nat) (bs : List Byte) (h : Memory.wf d.benches.store = true) :
    Memory.wf (d.setStore pl a bs).benches.store = true := by
  induction bs generalizing d a with
  | nil => exact h
  | cons b bs ih => exact ih (a + 1) (Dev.setStoreByte_wf pl a b h)

/-- A write of working memory keeps the memory's canonical form. -/
theorem Dev.writeMem_wf {d : Dev} (off : Nat) (bs : List Byte) (p : Bool) (h : Memory.wf d.mem.hbm = true) :
    Memory.wf (d.writeMem off bs p).mem.hbm = true := by
  have e : (d.writeMem off bs p).mem.hbm = (d.setBytesAt off bs).mem.hbm :=
    foldl_field (fun d => d.mem.hbm) _ (by intro d l; (repeat' split) <;> rfl) _ _
  rw [e]; exact Dev.setBytesAt_hbm_wf off bs h

/-- A write of bench store keeps its canonical form. -/
theorem Dev.writeStore_wf {d : Dev} (pl a : Nat) (bs : List Byte) (p : Bool) (h : Memory.wf d.benches.store = true) :
    Memory.wf (d.writeStore pl a bs p).benches.store = true := by
  have e : (d.writeStore pl a bs p).benches.store = (d.setStore pl a bs).benches.store :=
    foldl_field (fun d => d.benches.store) _ (by intro d l; (repeat' split) <;> simp) _ _
  rw [e]; exact Dev.setStore_wf pl a bs h

theorem reset_memory_wf : Memory.wf State.reset.dev.mem.hbm = true ∧ Memory.wf State.reset.dev.benches.store = true := by decide

end Sys2Proof.Machine
end

