-- ==== Sys2Proof/Laws/Dictionary.lean ====
section
/-! SUPPORT. What serving a request writes: the service's counters, the mailbox, the client's state and what is sent. -/

namespace Sys2Proof.Machine

/-! Entries by key. -/

theorem key_div (i : Nat) {j : Nat} (h : j < 256) : key i j / 256 = i := by unfold key; omega

theorem key_mod (i : Nat) {j : Nat} (h : j < 256) : key i j % 256 = j := by unfold key; omega

/-! What answering and receiving leave alone. -/

@[simp] theorem Dev.units_put (d : Dev) (k v : Nat) : (d.put k v).units = d.units := rfl

@[simp] theorem Dev.units_bump (d : Dev) (k n : Nat) : (d.bump k n).units = d.units := rfl

@[simp] theorem Dev.units_send (d : Dev) (m : OutMsg) : (d.send m).units = d.units := rfl

@[simp] theorem Dev.units_msix (d : Dev) (v : Nat) : (d.msix v).units = d.units := by unfold Dev.msix; split <;> rfl

@[simp] theorem Dev.units_sendT1s (d : Dev) (c : Client) (h : Nat) (bs : List Byte) : (d.sendT1s c h bs).units = d.units := by
  unfold Dev.sendT1s; split <;> rfl

@[simp] theorem Dev.units_receive (d : Dev) (o : Origin) (rq : DictReq) : (d.receive o rq).units = d.units := by
  cases o with
  | clelliul => rfl
  | mailbox => simp only [Dev.receive]; split <;> rfl

@[simp] theorem Dev.units_answerReq (d : Dev) (o : Origin) (rq : DictReq) (r : DictReply) :
    (d.answerReq o rq r).units = d.units := by
  cases o with
  | clelliul => simp only [Dev.answerReq, Dev.sendAnswer, units_sendT1s]; split <;> rfl
  | mailbox => simp only [Dev.answerReq, Dev.mbxDone, units_msix, units_bump]; split <;> rfl

@[simp] theorem Dev.units_commit (d : Dev) : d.commit.units = d.units := rfl

@[simp] theorem Dev.units_stored (d : Dev) : d.stored.units = d.units := by unfold Dev.stored; split <;> rfl

@[simp] theorem Dev.units_putStored (d : Dev) (k v : Nat) : (d.putStored k v).units = d.units := by
  unfold Dev.putStored; split
  · rw [Dev.units_stored]; rfl
  · rfl

/-! The service's entries are those of the counters 0x9038; the CONFIG area's own are 0x1030. -/

theorem Dev.get_sendT1s (d : Dev) (c : Client) (h : Nat) (bs : List Byte) (k : Nat) : (d.sendT1s c h bs).get k = d.get k := by
  unfold Dev.sendT1s; split <;> rfl

theorem Dev.get_receive (d : Dev) (o : Origin) (rq : DictReq) {k : Nat} (h : k / 256 ≠ 0x9038) :
    (d.receive o rq).get k = d.get k := by
  have e : k ≠ kClelliulRequests := by rintro rfl; exact h (by decide)
  cases o with
  | clelliul => exact Dev.get_bump_ne _ _ e
  | mailbox => simp only [Dev.receive]; split <;> rfl

theorem Dev.get_answerReq (d : Dev) (o : Origin) (rq : DictReq) (r : DictReply) {k : Nat} (h : k / 256 ≠ 0x9038) :
    (d.answerReq o rq r).get k = d.get k := by
  have e : k ≠ kClelliulAborts := by rintro rfl; exact h (by decide)
  have e' : k ≠ kMailboxOperations := by rintro rfl; exact h (by decide)
  cases o with
  | clelliul =>
    simp only [Dev.answerReq, Dev.sendAnswer, Dev.get_sendT1s]
    split
    · exact Dev.get_bump_ne _ _ e
    · rfl
  | mailbox =>
    simp only [Dev.answerReq, Dev.mbxDone, Dev.get_msix]
    rw [Dev.get_bump_ne _ _ e']; split <;> rfl

theorem Dev.get_commit (d : Dev) {k : Nat} (h : k / 256 ≠ 0x1030) : d.commit.get k = d.get k := by
  have e1 : k ≠ kConfigCommits := by rintro rfl; exact h (by decide)
  have e2 : k ≠ kConfigSeq := by rintro rfl; exact h (by decide)
  have e3 : k ≠ kConfigState := by rintro rfl; exact h (by decide)
  simp only [Dev.commit]
  rw [Dev.get_put_ne _ _ e3, Dev.get_put_ne _ _ e2, Dev.get_put_ne _ _ e1]; rfl

theorem Dev.get_stored (d : Dev) {k : Nat} (h : k / 256 ≠ 0x1030) : d.stored.get k = d.get k := by
  have e : k ≠ kConfigState := by rintro rfl; exact h (by decide)
  unfold Dev.stored; split
  · exact Dev.get_put_ne _ _ e
  · exact Dev.get_commit _ h

/-! Served writes. -/

@[simp] theorem Dev.units_nextTransferId (d : Dev) : d.nextTransferId.2.units = d.units := rfl

theorem Dev.get_nextTransferId (d : Dev) (k : Nat) : d.nextTransferId.2.get k = d.get k := rfl

@[simp] theorem State.units_arrived (s : State) (o : Origin) (k : Nat) (bs : List Byte) :
    (s.arrived o k bs).units = s.dev.units := by
  unfold State.arrived; split <;> simp

theorem State.get_arrived (s : State) (o : Origin) (k : Nat) (bs : List Byte) {j : Nat} (h : j / 256 ≠ 0x9038) :
    (s.arrived o k bs).get j = s.dev.get j := by
  unfold State.arrived
  split
  · exact Dev.get_receive _ _ _ h
  · rw [Dev.get_nextTransferId, Dev.get_receive _ _ _ h]

/-- A write that reaches its checks is judged by them, applied or not, and answered. -/
theorem writeBytes_reaches {s : State} {o : Origin} {k : Nat} {bs : List Byte} (h : s.Reaches o k bs) :
    writeBytes o k bs s =
      (let r := Dev.workWrite s.fuses o (k / 256) (k % 256) bs (s.arrived o k bs)
       .next { s with fuses := r.2.1, dev := r.2.2.answerReq o (s.writeRequest o k bs) r.1 }) := by
  obtain ⟨hp, hs, hf, ho⟩ := h
  rw [writeBytes, onAll_powered _ hp]
  unfold State.Opens at ho
  by_cases hl : bs.length ≤ messageBytes o
  · simp only [State.arrived, State.writeRequest, if_pos hl] at hf ⊢
    simp only [writeReq] at hf
    simp [Dev.serveWrite, hl, Dev.serveReq, hs, hf, writeReq]
  · simp only [State.arrived, State.writeRequest, if_neg hl] at hf ho ⊢
    obtain ⟨h1, h2, h3⟩ := ho.resolve_left hl
    simp only [Dev.serveWrite, if_neg hl, Dev.serveReq, hs, hf, if_true, if_false, Dev.workBulk, h1, h2, h3, Bool.false_eq_true,
      Bool.true_eq_false, or_self]

/-- A write of bytes that R459 accepts is applied and answered. -/
theorem writeBytes_accepted {s : State} {o : Origin} {k : Nat} {bs : List Byte} (h : s.Accepts o k bs) :
    writeBytes o k bs s = .next { s.written o k bs ((s.arrived o k bs).applyWrite s.fuses (k / 256) (k % 256) bs).2 with
      fuses := ((s.arrived o k bs).applyWrite s.fuses (k / 256) (k % 256) bs).1 } := by
  rw [writeBytes_reaches h.1]
  simp [Dev.workWrite, Dev.write, h.2, State.written]

/-- A row that writes an entry whose effect is `eff` applies it. -/
theorem State.applies_of {s : State} {c : Instr} {o : Origin} {k : Nat} {bs : List Byte} {eff : Dev → Dev}
    (he : exec c s = writeBytes o k bs s)
    (hk : ¬ (k / 256 = 0x8010 ∧ k % 256 = 10))
    (ha : (s.arrived o k bs).applyUnit s.fuses (k / 256) (k % 256) bs = eff (s.arrived o k bs)) : s.Applies c o k bs eff := by
  intro h
  rw [he, writeBytes_accepted h, Dev.applyWrite, if_neg hk, ha]; rfl

end Sys2Proof.Machine
end

