-- ==== Sys2Proof/Laws/Dispatch.lean ====
section
/-! SUPPORT. What any command can do: its meaning is a change of the module, of the module and its fuses, a power-up, or one of
the two accesses that can fault. -/

namespace Sys2Proof.Machine

/-- The shapes of a meaning: of the dictionary's rows a write, a request that blows no fuse, or WRITE_SEG. -/
inductive Shape (c : Instr) : Prop where
  | dev (f : Dev → Dev) (h : ∀ s, exec c s = onDev f s)
  | fused (f : Fuses → Dev → Dev) (h : ∀ s, exec c s = onFused f s)
  | die (f : Dev → Dev) (h : ∀ s, exec c s = onDie f s)
  | dieFused (f : Fuses → Dev → Dev) (h : ∀ s, exec c s = onDieFused f s)
  | write (o : Origin) (k : Nat) (bs : Dev → List Byte)
      (h : ∀ s, exec c s = onAll (fun f d => d.serveWrite f o (k / 256) (k % 256) (bs d)) s)
  | request (o : Origin) (rq : DictReq) (w : Fuses → Dev → DictReply × Fuses × Dev) (hw : ∀ f d, (w f d).2.1 = f)
      (h : ∀ s, exec c s = onAll (fun f d => d.serveReq f o rq (w f)) s)
  | writeSeg (o : Origin) (x g : BitVec 16) (l : Bool) (bs : List Byte) (h : c = .writeSeg o x g l bs)
  | reset (h : c = .resetDone)
  | power (x : BitVec 4) (h : c = .powerUp x)
  | access (pos : Nat) (f : Dev → Dev)
      (h : ∀ s, exec c s = if positions ≤ pos then .fault .noSuchPosition else onDie f s)

theorem vopRow_die (vop b : Nat) (o : VOperands) (s : State) :
    vopRow vop b o s = onDie (fun d =>
      if vinstrOffences [] (vinstrFor vop o) = [] ∧ d.outOfUse b = false then
        d.vexec (d.benchWhere b) b (match d.tenantAt b with | some t => t.2 | none => 0) (vinstrFor vop o) (vinstrFor vop o).vaddr
      else d) s := rfl

theorem writeKey_all (o : Origin) (k v n : Nat) (s : State) :
    writeKey o k v n s = onAll (fun f d => d.serveWrite f o (k / 256) (k % 256) (toBytes v n)) s := rfl

theorem writeBytes_all (o : Origin) (k : Nat) (bs : List Byte) (s : State) :
    writeBytes o k bs s = onAll (fun f d => d.serveWrite f o (k / 256) (k % 256) bs) s := rfl

/-- The two rows that set or clear one bit of HAUL_PAUSE, as it stands, in a write of the register. -/
theorem haulPause_all (o : Origin) (h : Fin 16) (ch : Fin 8) (b : Bool) (s : State) :
    writeKey o (kHaulPause h) (setBitTo (s.dev.get (kHaulPause h)) ch b) 1 s =
      onAll (fun f d => d.serveWrite f o (kHaulPause h / 256) (kHaulPause h % 256)
        (toBytes (setBitTo (d.get (kHaulPause h)) ch b) 1)) s := by
  simp only [writeKey, onAll]

theorem workRead_fuses (o : Origin) (i s : Nat) (f : Fuses) (d : Dev) : (Dev.workRead f o i s d).2.1 = f := by
  unfold Dev.workRead; (repeat' split) <;> first | rfl | (dsimp only; (repeat' split) <;> rfl)

theorem workReadSeg_fuses (o : Origin) (i s : Nat) (f : Fuses) (d : Dev) : (Dev.workReadSeg f o i s d).2.1 = f := by
  unfold Dev.workReadSeg; (repeat' split) <;> first | rfl | (dsimp only; (repeat' split) <;> rfl)

theorem workInit_fuses (o : Origin) (i s l c : Nat) (f : Fuses) (d : Dev) : (Dev.workInit f o i s l c d).2.1 = f := by
  unfold Dev.workInit; dsimp only; (repeat' split) <;> rfl

theorem workEnd_fuses (o : Origin) (i : Nat) (f : Fuses) (d : Dev) : (Dev.workEnd f o i d).2.1 = f := by
  unfold Dev.workEnd; split <;> rfl

theorem workDescribe_fuses (i s : Nat) (f : Fuses) (d : Dev) : (Dev.workDescribe f i s d).2.1 = f := by
  unfold Dev.workDescribe; split <;> rfl

theorem exec_writeSeg (o : Origin) (x g : BitVec 16) (l : Bool) (bs : List Byte) (s : State) :
    exec (.writeSeg o x g l bs) s = onAll (fun f d =>
      d.serveReq f o { plainReq 5 0 0 with segment := g.toNat, transfer := x.toNat, last := l, data := bs }
        (Dev.workWriteSeg f o x.toNat g.toNat l bs)) s := by
  simp only [exec, execWriteSeg]

theorem exec_shape (c : Instr) : Shape c := by
  cases c with
  | segment x0 x1 => exact .die _ (fun s => show execSegment x0 x1 s = onDie _ s from rfl)
  | link x0 x1 => exact .die _ (fun s => show execLink x0 x1 s = onDie _ s from rfl)
  | linkPoll x0 x1 => exact .die _ (fun s => show execLinkPoll x0 x1 s = onDie _ s from rfl)
  | nop x0 x1 => exact .die _ (fun s => show execNop x0 x1 s = onDie _ s from rfl)
  | wait x0 x1 => exact .die _ (fun s => show execWait x0 x1 s = onDie _ s from rfl)
  | signal x0 x1 => exact .die _ (fun s => show execSignal x0 x1 s = onDie _ s from rfl)
  | select x0 x1 => exact .die _ (fun s => show execSelect x0 x1 s = onDie _ s from rfl)
  | matmul x0 x1 => exact .die _ (fun s => show execMatmul x0 x1 s = onDie _ s from rfl)
  | vector x0 x1 => exact .die _ (fun s => show execVector x0 x1 s = onDie _ s from rfl)
  | haul x0 x1 => exact .die _ (fun s => show execHaul x0 x1 s = onDie _ s from rfl)
  | xchgHopper x0 x1 => exact .die _ (fun s => show execXchgHopper x0 x1 s = onDie _ s from rfl)
  | xchgVote x0 x1 => exact .die _ (fun s => show execXchgVote x0 x1 s = onDie _ s from rfl)
  | bedSnapshot x0 x1 => exact .die _ (fun s => show execBedSnapshot x0 x1 s = onDie _ s from rfl)
  | bedRestore x0 x1 => exact .die _ (fun s => show execBedRestore x0 x1 s = onDie _ s from rfl)
  | bedStream x0 x1 => exact .die _ (fun s => show execBedStream x0 x1 s = onDie _ s from rfl)
  | vopNop x0 x1 => exact .die _ (fun s => vopRow_die _ _ _ s)
  | ld x0 x1 => exact .die _ (fun s => vopRow_die _ _ _ s)
  | st x0 x1 => exact .die _ (fun s => vopRow_die _ _ _ s)
  | bcast x0 x1 => exact .die _ (fun s => vopRow_die _ _ _ s)
  | add x0 x1 => exact .die _ (fun s => vopRow_die _ _ _ s)
  | sub x0 x1 => exact .die _ (fun s => vopRow_die _ _ _ s)
  | mul x0 x1 => exact .die _ (fun s => vopRow_die _ _ _ s)
  | fma x0 x1 => exact .die _ (fun s => vopRow_die _ _ _ s)
  | div x0 x1 => exact .die _ (fun s => vopRow_die _ _ _ s)
  | sqrt x0 x1 => exact .die _ (fun s => vopRow_die _ _ _ s)
  | min x0 x1 => exact .die _ (fun s => vopRow_die _ _ _ s)
  | max x0 x1 => exact .die _ (fun s => vopRow_die _ _ _ s)
  | exp2 x0 x1 => exact .die _ (fun s => vopRow_die _ _ _ s)
  | log2 x0 x1 => exact .die _ (fun s => vopRow_die _ _ _ s)
  | rsqrt x0 x1 => exact .die _ (fun s => vopRow_die _ _ _ s)
  | cvt x0 x1 => exact .die _ (fun s => vopRow_die _ _ _ s)
  | merge x0 x1 => exact .die _ (fun s => vopRow_die _ _ _ s)
  | join x0 x1 => exact .die _ (fun s => vopRow_die _ _ _ s)
  | split x0 x1 => exact .die _ (fun s => vopRow_die _ _ _ s)
  | cmpLt x0 x1 => exact .die _ (fun s => vopRow_die _ _ _ s)
  | cmpEq x0 x1 => exact .die _ (fun s => vopRow_die _ _ _ s)
  | nonfinite x0 x1 => exact .die _ (fun s => vopRow_die _ _ _ s)
  | redAdd x0 x1 => exact .die _ (fun s => vopRow_die _ _ _ s)
  | tileDrained x0 x1 => exact .die _ (fun s => show execTileDrained x0 x1 s = onDie _ s from rfl)
  | graderReport x0 x1 => exact .die _ (fun s => show execGraderReport x0 x1 s = onDie _ s from rfl)
  | conveyorSegment x0 => exact .die _ (fun s => show execConveyorSegment x0 s = onDie _ s from rfl)
  | conveyorCredit x0 x1 => exact .die _ (fun s => show execConveyorCredit x0 x1 s = onDie _ s from rfl)
  | rampDown x0 x1 => exact .die _ (fun s => show execRampDown x0 x1 s = onDie _ s from rfl)
  | rampStep x0 x1 => exact .die _ (fun s => show execRampStep x0 x1 s = onDie _ s from rfl)
  | haulComplete x0 x1 => exact .die _ (fun s => show execHaulComplete x0 x1 s = onDie _ s from rfl)
  | bedComplete x0 => exact .die _ (fun s => show execBedComplete x0 s = onDie _ s from rfl)
  | proofBlock x0 x1 => exact .dieFused _ (fun s => show execProofBlock x0 x1 s = onDieFused _ s from rfl)
  | tallySignal x0 => exact .die _ (fun s => show execTallySignal x0 s = onDie _ s from rfl)
  | waitPost x0 => exact .die _ (fun s => show execWaitPost x0 s = onDie _ s from rfl)
  | waitRelease x0 => exact .die _ (fun s => show execWaitRelease x0 s = onDie _ s from rfl)
  | tallyTimeout x0 => exact .die _ (fun s => show execTallyTimeout x0 s = onDie _ s from rfl)
  | arrive x0 x1 => exact .die _ (fun s => show execArrive x0 x1 s = onDie _ s from rfl)
  | release x0 x1 => exact .die _ (fun s => show execRelease x0 x1 s = onDie _ s from rfl)
  | vote x0 => exact .die _ (fun s => show execVote x0 s = onDie _ s from rfl)
  | exchange x0 x1 => exact .die _ (fun s => show execExchange x0 x1 s = onDie _ s from rfl)
  | exchangeRetry x0 => exact .die _ (fun s => show execExchangeRetry x0 s = onDie _ s from rfl)
  | exchangeAck x0 x1 => exact .die _ (fun s => show execExchangeAck x0 x1 s = onDie _ s from rfl)
  | write x0 x1 => exact .die _ (fun s => show execWrite x0 x1 s = onDie _ s from rfl)
  | writeAck x0 x1 => exact .die _ (fun s => show execWriteAck x0 x1 s = onDie _ s from rfl)
  | readReq x0 x1 => exact .die _ (fun s => show execReadReq x0 x1 s = onDie _ s from rfl)
  | readResp x0 x1 => exact .die _ (fun s => show execReadResp x0 x1 s = onDie _ s from rfl)
  | remoteSignal x0 x1 => exact .die _ (fun s => show execRemoteSignal x0 x1 s = onDie _ s from rfl)
  | signalAck x0 x1 => exact .die _ (fun s => show execSignalAck x0 x1 s = onDie _ s from rfl)
  | responseTimeout x0 => exact .die _ (fun s => show execResponseTimeout x0 s = onDie _ s from rfl)
  | packetTransmit x0 => exact .die _ (fun s => show execPacketTransmit x0 s = onDie _ s from rfl)
  | creditReturn x0 x1 x2 x3 => exact .die _ (fun s => show execCreditReturn x0 x1 x2 x3 s = onDie _ s from rfl)
  | frameNak x0 x1 => exact .die _ (fun s => show execFrameNak x0 x1 s = onDie _ s from rfl)
  | laneFailed x0 x1 => exact .die _ (fun s => show execLaneFailed x0 x1 s = onDie _ s from rfl)
  | laneSpared x0 x1 x2 x3 => exact .die _ (fun s => show execLaneSpared x0 x1 x2 x3 s = onDie _ s from rfl)
  | fibreSpared x0 x1 x2 => exact .die _ (fun s => show execFibreSpared x0 x1 x2 s = onDie _ s from rfl)
  | linkRetrain x0 x1 => exact .die _ (fun s => show execLinkRetrain x0 x1 s = onDie _ s from rfl)
  | linkTrained x0 => exact .die _ (fun s => show execLinkTrained x0 s = onDie _ s from rfl)
  | trainingRetry x0 => exact .die _ (fun s => show execTrainingRetry x0 s = onDie _ s from rfl)
  | probe x0 x1 => exact .die _ (fun s => show execProbe x0 x1 s = onDie _ s from rfl)
  | probeRetry x0 => exact .die _ (fun s => show execProbeRetry x0 s = onDie _ s from rfl)
  | identHoldoff x0 => exact .dieFused _ (fun s => show execIdentHoldoff x0 s = onDieFused _ s from rfl)
  | ident x0 x1 => exact .die _ (fun s => show execIdent x0 x1 s = onDie _ s from rfl)
  | discoveryTimeout x0 => exact .die _ (fun s => show execDiscoveryTimeout x0 s = onDie _ s from rfl)
  | timeTick x0 => exact .die _ (fun s => show execTimeTick x0 s = onDie _ s from rfl)
  | time x0 x1 => exact .die _ (fun s => show execTime x0 x1 s = onDie _ s from rfl)
  | memoryAccess x0 x1 => exact .access _ _ (fun _ => rfl)
  | scrub x0 x1 => exact .access _ _ (fun _ => rfl)
  | rowRemapped x0 x1 x2 x3 => exact .die _ (fun s => show execRowRemapped x0 x1 x2 x3 s = onDie _ s from rfl)
  | channelRetrain x0 x1 => exact .die _ (fun s => show execChannelRetrain x0 x1 s = onDie _ s from rfl)
  | channelLost x0 x1 => exact .die _ (fun s => show execChannelLost x0 x1 s = onDie _ s from rfl)
  | reliefSwitch x0 => exact .die _ (fun s => show execReliefSwitch x0 s = onDie _ s from rfl)
  | channelRelieved x0 => exact .die _ (fun s => show execChannelRelieved x0 s = onDie _ s from rfl)
  | tgRunEnd x0 x1 => exact .die _ (fun s => show execTgRunEnd x0 x1 s = onDie _ s from rfl)
  | deadlineMiss x0 => exact .die _ (fun s => show execDeadlineMiss x0 s = onDie _ s from rfl)
  | segmentHung x0 => exact .die _ (fun s => show execSegmentHung x0 s = onDie _ s from rfl)
  | teardownCutoff x0 => exact .dev _ (fun s => show execTeardownCutoff x0 s = onDev _ s from rfl)
  | tornDown x0 => exact .dev _ (fun s => show execTornDown x0 s = onDev _ s from rfl)
  | tenantSwitch x0 x1 => exact .die _ (fun s => show execTenantSwitch x0 x1 s = onDie _ s from rfl)
  | resetDone => exact .reset rfl
  | resetEscalation => exact .dev _ (fun s => show execResetEscalation s = onDev _ s from rfl)
  | mgmtCoreRestart x0 x1 => exact .dev _ (fun s => show execMgmtCoreRestart x0 x1 s = onDev _ s from rfl)
  | chainStart x0 x1 => exact .write _ _ _ (fun s => writeKey_all _ _ _ _ s)
  | chainHalt x0 x1 => exact .write _ _ _ (fun s => writeKey_all _ _ _ _ s)
  | haulPause x0 x1 x2 => exact .write _ _ _ (fun s => haulPause_all _ _ _ _ s)
  | haulUnpause x0 x1 x2 => exact .write _ _ _ (fun s => haulPause_all _ _ _ _ s)
  | haulCqHead x0 x1 x2 x3 => exact .write _ _ _ (fun s => writeKey_all _ _ _ _ s)
  | tallyMap x0 x1 x2 => exact .write _ _ _ (fun s => writeBytes_all _ _ _ s)
  | coordCommit x0 x1 => exact .write _ _ _ (fun s => writeKey_all _ _ _ _ s)
  | partJoin x0 x1 x2 => exact .write _ _ _ (fun s => writeKey_all _ _ _ _ s)
  | partRebind x0 x1 x2 => exact .write _ _ _ (fun s => writeKey_all _ _ _ _ s)
  | portDisable x0 x1 x2 => exact .write _ _ _ (fun s => writeKey_all _ _ _ _ s)
  | stepAbandon x0 x1 x2 => exact .write _ _ _ (fun s => writeKey_all _ _ _ _ s)
  | recutRequest x0 x1 x2 => exact .write _ _ _ (fun s => writeKey_all _ _ _ _ s)
  | ckptRequest x0 x1 x2 => exact .write _ _ _ (fun s => writeKey_all _ _ _ _ s)
  | stepBlockInit x0 x1 x2 => exact .write _ _ _ (fun s => writeKey_all _ _ _ _ s)
  | suspend x0 x1 x2 x3 => exact .write _ _ _ (fun s => writeKey_all _ _ _ _ s)
  | reshape x0 x1 x2 x3 x4 => exact .write _ _ _ (fun s => writeKey_all _ _ _ _ s)
  | endShift x0 x1 x2 x3 => exact .write _ _ _ (fun s => writeKey_all _ _ _ _ s)
  | resume x0 x1 x2 x3 => exact .write _ _ _ (fun s => writeKey_all _ _ _ _ s)
  | shiftConfirm x0 x1 => exact .write _ _ _ (fun s => writeKey_all _ _ _ _ s)
  | load x0 x1 => exact .write _ _ _ (fun s => writeKey_all _ _ _ _ s)
  | partAdmit x0 x1 => exact .write _ _ _ (fun s => writeKey_all _ _ _ _ s)
  | commandReset x0 x1 => exact .write _ _ _ (fun s => writeKey_all _ _ _ _ s)
  | engineReset x0 x1 x2 x3 => exact .write _ _ _ (fun s => writeKey_all _ _ _ _ s)
  | partitionReset x0 x1 => exact .write _ _ _ (fun s => writeKey_all _ _ _ _ s)
  | moduleReset x0 => exact .write _ _ _ (fun s => writeKey_all _ _ _ _ s)
  | benchUnfence x0 x1 => exact .write _ _ _ (fun s => writeKey_all _ _ _ _ s)
  | retrainRequest x0 x1 x2 => exact .write _ _ _ (fun s => writeKey_all _ _ _ _ s)
  | reliefClear x0 x1 x2 => exact .write _ _ _ (fun s => writeKey_all _ _ _ _ s)
  | tgStart x0 x1 => exact .write _ _ _ (fun s => writeKey_all _ _ _ _ s)
  | tgStop x0 x1 => exact .write _ _ _ (fun s => writeKey_all _ _ _ _ s)
  | faultLogClear x0 x1 => exact .write _ _ _ (fun s => writeKey_all _ _ _ _ s)
  | captureRequest x0 x1 => exact .write _ _ _ (fun s => writeKey_all _ _ _ _ s)
  | retainedAdopt x0 x1 x2 => exact .write _ _ _ (fun s => writeKey_all _ _ _ _ s)
  | fwStageData x0 x1 => exact .write _ _ _ (fun s => writeBytes_all _ _ _ s)
  | fwStageFrom x0 x1 => exact .write _ _ _ (fun s => writeKey_all _ _ _ _ s)
  | fwInstall x0 x1 => exact .write _ _ _ (fun s => writeKey_all _ _ _ _ s)
  | fwConfirm x0 x1 => exact .write _ _ _ (fun s => writeKey_all _ _ _ _ s)
  | attestNonce x0 x1 => exact .write _ _ _ (fun s => writeKey_all _ _ _ _ s)
  | refuseToken x0 x1 => exact .write _ _ _ (fun s => writeBytes_all _ _ _ s)
  | debugToken x0 x1 => exact .write _ _ _ (fun s => writeBytes_all _ _ _ s)
  | configHold x0 x1 => exact .write _ _ _ (fun s => writeKey_all _ _ _ _ s)
  | configDefaults x0 x1 => exact .write _ _ _ (fun s => writeKey_all _ _ _ _ s)
  | entryWrite x0 x1 x2 x3 => exact .write _ _ _ (fun s => writeBytes_all _ _ _ s)
  | read x0 x1 x2 => exact .request _ _ _ (workRead_fuses _ _ _) (fun s => show execRead x0 x1 x2 s = onAll _ s from rfl)
  | readSeg x0 x1 x2 => exact .request _ _ _ (workReadSeg_fuses _ _ _) (fun s => show execReadSeg x0 x1 x2 s = onAll _ s from rfl)
  | writeSegInit x0 x1 x2 x3 x4 => exact .request _ _ _ (workInit_fuses _ _ _ _ _) (fun s => show execWriteSegInit x0 x1 x2 x3 x4 s = onAll _ s from rfl)
  | writeSeg x0 x1 x2 x3 x4 => exact .writeSeg _ _ _ _ _ rfl
  | transferEnd x0 x1 => exact .request _ _ _ (workEnd_fuses _ _) (fun s => show execTransferEnd x0 x1 s = onAll _ s from rfl)
  | describe x0 x1 x2 => exact .request _ _ _ (workDescribe_fuses _ _) (fun s => show execDescribe x0 x1 x2 s = onAll _ s from rfl)
  | next x0 x1 x2 => exact .request _ _ _ (fun _ _ => rfl) (fun s => show execNext x0 x1 x2 s = onAll _ s from rfl)
  | identify x0 => exact .request _ _ _ (fun _ _ => rfl) (fun s => show execIdentify x0 s = onAll _ s from rfl)
  | notice x0 x1 => exact .dev _ (fun s => show execNotice x0 x1 s = onDev _ s from rfl)
  | noticeRetry x0 => exact .dev _ (fun s => show execNoticeRetry x0 s = onDev _ s from rfl)
  | transferTimeout x0 => exact .dev _ (fun s => show execTransferTimeout x0 s = onDev _ s from rfl)
  | clientExpiry x0 => exact .dev _ (fun s => show execClientExpiry x0 s = onDev _ s from rfl)
  | beaconLoss => exact .dev _ (fun s => show execBeaconLoss s = onDev _ s from rfl)
  | neighborSolicitation x0 x1 => exact .fused _ (fun s => show execNeighborSolicitation x0 x1 s = onFused _ s from rfl)
  | echoRequest x0 x1 x2 => exact .fused _ (fun s => show execEchoRequest x0 x1 x2 s = onFused _ s from rfl)
  | functionLevelReset => exact .dev _ (fun s => show execFunctionLevelReset s = onDev _ s from rfl)
  | pciePerstN => exact .dev _ (fun s => show execPciePerstN s = onDev _ s from rfl)
  | perstRelease => exact .dev _ (fun s => show execPerstRelease s = onDev _ s from rfl)
  | bar2Access x0 x1 => exact .dev _ (fun s => show execBar2Access x0 x1 s = onDev _ s from rfl)
  | doeAttest x0 => exact .fused _ (fun s => show execDoeAttest x0 s = onFused _ s from rfl)
  | doeAbort => exact .dev _ (fun s => show execDoeAbort s = onDev _ s from rfl)
  | trayResetN x0 x1 => exact .dev _ (fun s => show execTrayResetN x0 x1 s = onDev _ s from rfl)
  | powerUp x0 => exact .power _ rfl
  | bootStageEnd => exact .fused _ (fun s => show execBootStageEnd s = onFused _ s from rfl)
  | stageOverrun => exact .dev _ (fun s => show execStageOverrun s = onDev _ s from rfl)
  | measurementEvaluation x0 x1 x2 => exact .dev _ (fun s => show execMeasurementEvaluation x0 x1 x2 s = onDev _ s from rfl)
  | trip x0 x1 x2 => exact .dev _ (fun s => show execTrip x0 x1 x2 s = onDev _ s from rfl)
  | beacon => exact .dev _ (fun s => show execBeacon s = onDev _ s from rfl)
  | clientAbort x0 x1 => exact .dev _ (fun s => show execClientAbort x0 x1 s = onDev _ s from rfl)
  | trainingFailed x0 => exact .die _ (fun s => show execTrainingFailed x0 s = onDie _ s from rfl)
  | phaseFault x0 => exact .dev _ (fun s => show execPhaseFault x0 s = onDev _ s from rfl)

end Sys2Proof.Machine
end

