-- ==== Sys2Proof/Machine/Bar0.lean ====
section
/-! DEFINITION. BAR0 as the host reads and writes it (R475 to R478): the mailbox's registers and buffer, the status mirror, and the
MSI-X table. The table of commands has no row for such an access: the operations of the mailbox have rows of their own (log 88). -/

namespace Sys2Proof.Machine

/-! Reads. -/

/-- *Status mirror* (R478): offset, index and subindex of each entry that is copied. -/
def mirrorFields : List (Nat × Nat × Nat) :=
  [(0x1000, 0x1000, 1), (0x1010, 0x1000, 2), (0x1014, 0x1000, 3), (0x1018, 0x1000, 5), (0x101C, 0x1000, 4), (0x1020, 0x1000, 6),
   (0x1028, 0x2000, 1), (0x1030, 0x2000, 2)] ++
  (List.range 4).map (fun p => (0x1040 + p, 0x6010 + p, 1)) ++
  [(0x1044, 0x2010, 2), (0x1048, 0x2020, 2), (0x104C, 0xA000, 1), (0x1050, 0x5000, 9)] ++
  (List.range 16).map (fun n => (0x1060 + n, 0x5010 + n, 1)) ++
  (List.range 4).map (fun p => (0x1080 + p, 0x7000 + p, 7)) ++
  (List.range 4).map (fun p => (0x1084 + 4 * p, 0x7000 + p, 8)) ++
  (List.range 4).flatMap (fun p => (List.range 34).flatMap (fun e => (List.range 4).flatMap (fun c =>
    [(0x2000 + 0x100 * p + 4 * e + c, 0x6400 + 0x100 * p + e, 13 + c),
     (0x4000 + 0x400 * p + 16 * e + 4 * c, 0x6400 + 0x100 * p + e, 17 + c)])))

/-- A byte of the mirror: that of the entry copied there, as the entry stands (the 10 µs of R478 are timing, log 149). -/
def Dev.mirrorByte (d : Dev) (f : Fuses) (a : Nat) : Byte :=
  (mirrorFields.findSome? (fun x => if x.1 ≤ a then (d.valueOf f x.2.1 x.2.2)[a - x.1]? else none)).getD 0#8

/-- The byte at an offset (*BAR0 map*); zero off the map. -/
def Dev.bar0Byte (d : Dev) (f : Fuses) (a : Nat) : Byte :=
  let of_ := fun (w base : Nat) => BitVec.ofNat 8 (w >>> (8 * (a - base)))
  let m := d.mgmt
  if a < 4 then of_ 0x49464B01 0
  else if 0x08 ≤ a ∧ a < 0x10 then of_ m.mbxCtrl 0x08
  else if 0x10 ≤ a ∧ a < 0x18 then of_ m.mbxStatus 0x10
  else if 0x18 ≤ a ∧ a < 0x20 then of_ m.mbxXfer 0x18
  else if 0x1000 ≤ a ∧ a < 0x5000 then d.mirrorByte f a
  else if 0x10000 ≤ a ∧ a < 0x20000 then m.mbxData.getD (a - 0x10000) 0#8
  else if 0x3F000 ≤ a ∧ a < 0x3F400 then of_ (SMap.get msixDefault m.msixTable ((a - 0x3F000) / 16)) (a - a % 16)
  else if 0x3F800 ≤ a ∧ a < 0x3F808 then of_ (m.msixPending.foldl (fun w i => setBitTo w i true) 0) 0x3F800
  else 0#8

/-- BAR0 accepts 4 and 8 bytes, naturally aligned. -/
def bar0Takes (a n : Nat) : Bool := (decide (n = 4) || decide (n = 8)) && decide (a % n = 0)

def Dev.bar0Read (d : Dev) (f : Fuses) (a n : Nat) : List Byte := (List.range n).map (fun i => d.bar0Byte f (a + i))

/-! Writes. -/

/-- A register of 8 bytes with some of them replaced. -/
def spliced (old base a : Nat) (data : List Byte) : Nat :=
  ofBytes ((List.range 8).map (fun i => if base + i < a then BitVec.ofNat 8 (old >>> (8 * i))
    else data.getD (base + i - a) (BitVec.ofNat 8 (old >>> (8 * i)))))

/-- The operation that MBX_CTRL asks for (R476, R477); the transfer of a segment is the mailbox's one. -/
def Dev.mailboxGo (d : Dev) (f : Fuses) : Fuses × Dev :=
  let w := d.mgmt.mbxCtrl
  let service := fld w 55 48
  let index := fld w 47 32
  let sub := fld w 31 24
  let segment := fld w 23 17
  let id := ((d.mgmt.transfers.find? (fun t => t.owner.isNone)).map Transfer.id).getD 0
  let counted := decide (service = 2) || decide (service = 5)
  let data := if counted then (List.range (fld w 15 0 + 1)).map (fun i => d.mgmt.mbxData.getD i 0#8) else []
  let rq : DictReq := { service := service, index := index, sub := sub, segment := segment, transfer := id, last := bit w 16, data := data }
  let crc := fld d.mgmt.mbxXfer 63 32
  let length := fld d.mgmt.mbxXfer 31 0
  let work : Dev → DictReply × Fuses × Dev :=
    if service = 1 then Dev.workRead f .mailbox index sub
    else if service = 2 then Dev.workWrite f .mailbox index sub data
    else if service = 3 then Dev.workReadSeg f .mailbox id segment
    else if service = 4 then Dev.workInit f .mailbox index sub length crc
    else if service = 5 then Dev.workWriteSeg f .mailbox id segment (bit w 16) data
    else if service = 6 then Dev.workEnd f .mailbox id
    else if service = 7 then Dev.workDescribe f index sub
    else fun d => (replyAbort abUnknown, f, d)
  d.serveReq f .mailbox rq work

/-- MBX_CTRL is written: its fields, and with GO in one 8-byte write the operation; while STATE is BUSY that GO is ignored and sets
OVERRUN. -/
def Dev.writeMbxCtrl (d : Dev) (f : Fuses) (a : Nat) (data : List Byte) : Fuses × Dev :=
  let w := spliced d.mgmt.mbxCtrl 0x08 a data
  let go := bit w 63 && decide (data.length = 8)
  if go ∧ fld d.mgmt.mbxStatus 1 0 = 1 then
    (f, { d with mgmt := { d.mgmt with mbxStatus := setBitTo d.mgmt.mbxStatus 2 true } })
  else
    let d := { d with mgmt := { d.mgmt with mbxCtrl := fld w 55 0 } }
    if go then d.mailboxGo f else (f, d)

/-- MBX_STATUS is RO but for OVERRUN, which a 1 clears (R19). -/
def Dev.writeMbxStatus (d : Dev) (a : Nat) (data : List Byte) : Dev :=
  if bit (spliced 0 0x10 a data) 2 then { d with mgmt := { d.mgmt with mbxStatus := setBitTo d.mgmt.mbxStatus 2 false } } else d

/-- A vector of the table is written; one that is no longer masked and is pending is sent (PRESUMED, log 8). -/
def Dev.writeMsix (d : Dev) (a : Nat) (data : List Byte) : Dev :=
  let v := (a - 0x3F000) / 16
  let old := SMap.get msixDefault d.mgmt.msixTable v
  let low := spliced (fld old 63 0) (a - a % 16) a data
  let high := spliced (fld old 127 64) (a - a % 16 + 8) a data
  let w := if a % 16 < 8 then setFld old 63 0 low else setFld old 127 64 high
  let d := { d with mgmt := { d.mgmt with msixTable := SMap.set msixDefault d.mgmt.msixTable v w } }
  if bit w 96 = false ∧ d.mgmt.busMaster = true ∧ NSet.mem d.mgmt.msixPending v = true then
    Dev.send { d with mgmt := { d.mgmt with msixPending := NSet.del d.mgmt.msixPending v } } (.msix v)
  else d

/-- A configuration write of the host sets Bus Master Enable and the power state (R516, R517); vectors that waited for it are sent. -/
def Dev.configure (d : Dev) (busMaster d3hot : Bool) : Dev :=
  let d := { d with mgmt := { d.mgmt with busMaster := busMaster, d3hot := d3hot } }
  let due := d.mgmt.msixPending.filter (fun v => busMaster && !bit (SMap.get msixDefault d.mgmt.msixTable v) 96)
  due.foldl (fun d v => Dev.send { d with mgmt := { d.mgmt with msixPending := NSet.del d.mgmt.msixPending v } } (.msix v)) d

/-- A host write of BAR0: of another size or alignment, off the map, and to what is RO or CONST it is ignored (R19, R475, R478). -/
def Dev.bar0Write (d : Dev) (f : Fuses) (a : Nat) (data : List Byte) : Fuses × Dev :=
  let at_ := a - 0x10000
  if bar0Takes a data.length = false ∨ d.decodes = false then (f, d)
  else if 0x08 ≤ a ∧ a < 0x10 then d.writeMbxCtrl f a data
  else if 0x10 ≤ a ∧ a < 0x18 then (f, d.writeMbxStatus a data)
  else if 0x18 ≤ a ∧ a < 0x20 then (f, { d with mgmt := { d.mgmt with mbxXfer := spliced d.mgmt.mbxXfer 0x18 a data } })
  else if 0x10000 ≤ a ∧ a < 0x20000 then
    let old := d.mgmt.mbxData
    let pre := (List.range at_).map (fun i => old.getD i 0#8)
    (f, { d with mgmt := { d.mgmt with mbxData := pre ++ (data ++ old.drop (at_ + data.length)) } })
  else if 0x3F000 ≤ a ∧ a < 0x3F400 then (f, d.writeMsix a data)
  else (f, d)

end Sys2Proof.Machine
end

