-- ==== Sys2Proof/Tests/Slice0.lean ====
section
/-! SUPPORT. Tests: a smoke test of each check of well-formedness, the spec's worked examples, and for every statement with
hypotheses a state and operands that meet them. -/

namespace Sys2Proof.Tests

set_option Elab.async false

open Machine

/-! Well-formedness: a term that each check refuses. -/

def chain0 : ChainId := { p := 0, e := 0x20, c := 0 }

def client0 : Client := { addr := 1, port := 1 }

/-- A well-formed Clelliul request with sequence number 7. -/
def viaNet : Origin := .clelliul client0 0xC1 1 0 7 false

theorem test_wf_unit : Instr.wf (.nop chain0 1) = false := by decide

theorem test_wf_unit_ok : Instr.wf (.nop chain0 0) = true := by decide

theorem test_wf_waiter : Instr.wf (.waitPost { kind := 6, unit := 1, sub := 0, p := 0 }) = false := by decide

/-- A packet that comes in whole as frame 1. -/
def incoming (pkt : Packet) : Incoming := { pkt := pkt, seq := 1, state := .good, corrected := 0 }

theorem test_wf_packet : Instr.wf (.write 0 (incoming { hdr := 0, payload := List.replicate 4097 0 })) = false := by decide +kernel

theorem test_wf_line : Instr.wf (.scrub { s := 0, k := 0, pos := 3145728, acc := 0 } .clean) = false := by decide

theorem test_wf_access : Instr.wf (.memoryAccess { target := .working 32, req := .host, wr := none } .clean) = false := by decide

theorem test_wf_tg : Instr.wf (.tgRunEnd 0
    [{ k := 1, errors := 0, failPos := 0, failAcc := 0, failPins := 0, accesses := 0, retries := 0, elapsed := 0 },
     { k := 1, errors := 0, failPos := 0, failAcc := 0, failPins := 0, accesses := 0, retries := 0, elapsed := 0 }]) = false := by
  decide

theorem test_wf_credit : Instr.wf (.creditReturn 0 0 8193 0) = false := by decide

theorem test_wf_bar2 : Instr.wf (.bar2Access 0 (.read 0)) = false := by decide

theorem test_wf_value : Instr.wf (.fwStageData .mailbox []) = false := by decide

theorem test_wf_transfer : Instr.wf (.readSeg .mailbox 5 0) = false := by decide

theorem test_wf_segment : Instr.wf (.writeSeg viaNet 1 0 false (List.replicate 1025 0)) = false := by decide +kernel

theorem test_wf_path : Instr.wf (.identify .mailbox) = false := by decide

theorem test_wf_transfer_id : Instr.wf (.clientAbort client0 0) = false := by decide

/-! States to start from. -/

abbrev dev0 : Dev := State.reset.dev

def on (d : Dev) : State := State.reset.withDev d

/-- The reset module with entries set. -/
def puts (l : List (Nat × Nat)) : Dev := l.foldl (fun d x => d.put x.1 x.2) dev0

/-- Partition 0 in a state, with one bench. -/
def part0 (st : Nat) : Dev := puts [(kPartState 0, st), (kPartLogicalBenches 0, 1), (kPartBenchMask 0, 1)]

def torn0 : Teardown :=
  { endState := psEmpty, confirm := true, startedAt := 0, drain := false, cutoff := false, torn := true, tenancy := 0 }

/-! Steps, the queue, power and fuses. -/

theorem wit_idle :
    (State.reset.pending = [] ∧ State.reset.dev.powered = true ∧ State.reset.dev.fabric.slew = 0) ∧
    (0 < (on { dev0 with fabric := { dev0.fabric with slew := 5 } }).dev.fabric.slew) ∧
    ((on { dev0 with fabric := { dev0.fabric with slew := -5 } }).dev.fabric.slew < 0) ∧
    (on { dev0 with powered := false }).dev.powered = false := by decide

/-- A command answers a next state of which `f` holds. -/
def nextIs (c : Instr) (s : State) (f : State → Bool) : Bool := match exec c s with | .next t => f t | _ => false

/-- QueueUntouched and the invariants: a command and a step that answer a next state, in a state with the invariant. -/
theorem wit_next : exec .beacon State.reset = .next (on (dev0.put kT1sState 2)) ∧
    step State.reset = .next (on { dev0 with time := 1 }) ∧ State.reset.Inv :=
  ⟨rfl, rfl, by unfold State.Inv Fuses.Legal; decide⟩

theorem wit_unpowered : (on { dev0 with powered := false }).dev.powered = false ∧ ∀ x, Instr.beacon ≠ .powerUp x :=
  ⟨by decide, fun _ => by simp⟩

/-- A confirmation that raises the floor from 0 to 5. -/
def confirming : State :=
  on { puts [(kFwState, fwTrial)] with sec := { dev0.sec with runningDesc := 5 * 2 ^ 416 } }

theorem wit_fuse_blown : nextIs (.fwConfirm viaNet 1) confirming (fun t => decide (t.fuses ≠ confirming.fuses)) = true := by
  decide +kernel

theorem wit_confirm : confirming.Accepts viaNet kFwConfirm (toBytes 1 1) := by
  unfold State.Accepts State.Reaches State.Opens; decide +kernel

/-! Words and memory. -/

/-- Every field of every word at its greatest value. -/
def ones : Nat := 2 ^ 512 - 1

theorem wit_words : headerFits (headerOf ones) ∧ segmentFits (segmentOf ones) ∧ linkFits (linkOf ones) ∧ waitFits (waitOf ones) ∧
    signalFits (signalOf ones) ∧ selectFits (selectOf ones) ∧ matmulFits (matmulOf ones) ∧ vectorFits (vectorOf ones) ∧
    haulFits (haulOf ones) ∧ hopperFits (hopperOf ones) ∧ voteFits (voteOf ones) ∧ bedFits (bedOf ones) ∧
    vinstrFits (vinstrOf ones) ∧ packetFits (packetOf ones) := by
  refine ⟨?_, ?_, ?_, ?_, ?_, ?_, ?_, ?_, ?_, ?_, ?_, ?_, ?_, ?_⟩
  · unfold headerFits; decide +kernel
  · unfold segmentFits; decide +kernel
  · unfold linkFits; decide +kernel
  · unfold waitFits; decide +kernel
  · unfold signalFits; decide +kernel
  · unfold selectFits; decide +kernel
  · unfold matmulFits; decide +kernel
  · unfold vectorFits; decide +kernel
  · unfold haulFits; decide +kernel
  · unfold hopperFits; decide +kernel
  · unfold voteFits; decide +kernel
  · unfold bedFits; decide +kernel
  · unfold vinstrFits; decide +kernel
  · unfold packetFits; decide +kernel

/-- The worked example of R235: offset 0x12_3456_7800 lies on S10.pc14, position 397,682. -/
theorem test_home : dev0.home 0x1234567800 = (10, 14, 397682) := by decide +kernel

theorem wit_home : 0x1234567800 < dev0.workingBytes ∧ dev0.get (kRelievedPc 10) ≠ 14 ∧
    (puts [(kRelievedPc 10, 14)]).get (kRelievedPc 10) = 14 ∧ 397682 < dev0.qw + dev0.qb := by decide +kernel

/-- R264: the same granule once its pseudo-channel is relieved. -/
theorem test_home_relieved : ((puts [(kRelievedPc 10, 14)]).home 0x1234567800).2.1 = 397682 % 63 + 0 ∨
    ((puts [(kRelievedPc 10, 14)]).home 0x1234567800).2.1 = 397682 % 63 + 1 := by decide +kernel

theorem wit_working : 1 ≤ dev0.mem.bedGib ∧ dev0.mem.bedGib ≤ 24 ∧ 255 + 2 ≤ dev0.workingBytes ∧
    dev0.home 0 = dev0.home 255 := by decide +kernel

/-! Entries. -/

/-- Partition 0 with its coordinates committed and machine partition 1 allowed. -/
def joinable : Dev :=
  { puts [(kCoordState, 1)] with fabric := { dev0.fabric with coords := { dev0.fabric.coords with mparts := 1 } } }

def haltable : Dev := (part0 psLoading).setCursor chain0 0 { Cursor.idle with state := .running }

theorem wit_control_writes :
    (on (part0 psLoading)).Accepts viaNet (kChainCtrl 0 0x20 0) [1#8] ∧ (on haltable).Accepts viaNet (kChainCtrl 0 0x20 0) [2#8] ∧
    (on (puts [(kHaulOwner 0, 0)])).Accepts viaNet (kHaulPause 0) [1#8] ∧ State.reset.Accepts viaNet (kHaulPause 0) [0#8] ∧
    State.reset.Accepts viaNet (kHaulCqHead 0 0) (toBytes 0 4) := by
  unfold State.Accepts State.Reaches State.Opens; decide +kernel

theorem wit_tally_map : State.reset.Accepts .mailbox (kTallyMap 0) (List.replicate 8192 0#8) ∧
    State.reset.Accepts viaNet (kTallyMap 0) (List.replicate 8192 0#8) := by
  unfold State.Accepts State.Reaches State.Opens; decide +kernel

theorem wit_fabric_writes :
    (on (puts [(kChipNumber, 0)])).Accepts viaNet kCoordCommit [1#8] ∧
    (on joinable).Accepts viaNet (kPartJoin 0) (toBytes (pack [(64, 0), (32, 1), (16, 1), (8, 1), (8, 0)]) 16) ∧
    (on (puts [(kPartState 0, psAdmitted), (kPartJoinStatus 0, 1), (kPartMpart 0, 1)])).Accepts viaNet (kPartRebind 0)
      (toBytes 1 4) ∧
    State.reset.Accepts viaNet (kPortDisable 0) [1#8] := by
  unfold State.Accepts State.Reaches State.Opens; decide +kernel

theorem wit_training_writes :
    (on (puts [(kPartState 0, psAdmitted), (kStepBlockAddr 0, 64)])).Accepts viaNet (kStepAbandon 0) (toBytes 0 4) ∧
    State.reset.Accepts viaNet (kRecutRequest 0) (toBytes 1 4) ∧ State.reset.Accepts viaNet (kCkptRequest 0) [1#8] ∧
    (on (puts [(kStepBlockAddr 0, 64)])).Accepts viaNet (kStepBlockInit 0) [1#8] := by
  unfold State.Accepts State.Reaches State.Opens; decide +kernel

/-- A shift request for partition 0. -/
def shiftBytes (action mode tenancy : Nat) : List Byte :=
  toBytes (shiftReqBits { tenancy := tenancy, confirm := false, mode := mode, action := action, p := 0 }) 4

theorem wit_shift_requests :
    (on (part0 psAdmitted)).Accepts viaNet kShiftRequest (shiftBytes 1 3 0) ∧
    (on ((part0 psAdmitted).takeBenches 0 [0])).Accepts viaNet kShiftRequest (shiftBytes 2 3 1) ∧
    (on (part0 psAdmitted)).Accepts viaNet kShiftRequest (shiftBytes 3 1 0) ∧
    (on (part0 psSuspended)).Accepts viaNet kShiftRequest (shiftBytes 4 0 0) := by
  unfold State.Accepts State.Reaches State.Opens; decide +kernel

/-- Loading, joined, with enough ports and every bench proven. -/
def admissible : Dev :=
  { puts [(kPartState 0, psLoading), (kPartJoinStatus 0, 1), (kShadowRequired, 0)] with
    fabric := { dev0.fabric with coords := { dev0.fabric.coords with minPorts := 0 } } }

theorem wit_shift_states :
    (on ((part0 psQuiescing).setPart 0 { Part.start with teardown := some torn0 })).Accepts viaNet kShiftConfirm [0#8] ∧
    (on (part0 psEmpty)).Accepts viaNet (kPartCtrl 0) [1#8] ∧ (on admissible).Accepts viaNet (kPartCtrl 0) [2#8] := by
  unfold State.Accepts State.Reaches State.Opens; decide +kernel

/-- A reset request for partition 0. -/
def resetBytes (domain engine : Nat) : List Byte :=
  toBytes (resetReqBits { domain := domain, engine := engine, clear := false, chain := 0, p := 0 }) 4

theorem wit_reset_requests :
    (on ((part0 psLoading).setCursor chain0 0 { Cursor.idle with state := .polling })).Accepts viaNet kResetRequest
      (resetBytes 1 0x20) ∧
    (on (part0 psAdmitted)).Accepts viaNet kResetRequest (resetBytes 2 0x20) ∧
    (on (part0 psAdmitted)).Accepts viaNet kResetRequest (resetBytes 3 0) ∧
    State.reset.Accepts viaNet kResetRequest (resetBytes 4 0) := by
  unfold State.Accepts State.Reaches State.Opens; decide +kernel

theorem wit_repair_writes :
    State.reset.Accepts viaNet kBenchUnfence [0#8] ∧ State.reset.Accepts viaNet (kRetrainRequest 0) [0#8] ∧
    (on { puts [(kRelievedPc 0, 5)] with mem := { dev0.mem with tgPassed := [5] } }).Accepts viaNet (kReliefClear 0) [1#8] ∧
    State.reset.Accepts viaNet (kTgCtrl 0) [1#8] ∧ State.reset.Accepts viaNet (kTgCtrl 0) [2#8] := by
  unfold State.Accepts State.Reaches State.Opens; decide +kernel

theorem wit_fault_writes :
    State.reset.Accepts viaNet kFaultLogClear [1#8] ∧ State.reset.Accepts viaNet kCaptureRequest [1#8] ∧
    (on (puts [(kPartState 0, psLoading), (kRetainedBed 0, 1)])).Accepts viaNet (kRetainedAdopt 0) [1#8] := by
  unfold State.Accepts State.Reaches State.Opens; decide +kernel

/-- Working memory begins with the descriptor of an image of one payload byte. -/
def imaged : Dev := dev0.writeMem 0 (toBytes (2 ^ 480) 128) false

theorem wit_firmware_writes :
    State.reset.Accepts viaNet kFwStageData [1#8] ∧ (on imaged).Accepts viaNet kFwStageFrom (toBytes 0 8) ∧
    (on { dev0 with sec := { dev0.sec with staged := true } }).Accepts viaNet kFwInstall [1#8] ∧
    State.reset.Accepts viaNet kAttestNonce (toBytes 5 32) := by
  unfold State.Accepts State.Reaches State.Opens; decide +kernel

/-- A token of a kind for serial number 1 and challenge 0, signed by the key of 1,793 zeros. -/
def token (kind : Nat) : List Byte :=
  toBytes (pack [(512, 0), (64, 1), (32, 0), (8, kind), (4, 0), (2, 0), (338, 0), (32, 1), (32, 0x544B4649)]) 0xD00

theorem wit_config :
    State.reset.Accepts viaNet kConfigHold [1#8] ∧ (on (puts [(kConfigState, 1)])).Accepts viaNet kConfigHold [0#8] ∧
    (puts [(kConfigState, 1)]).get kConfigState = 1 ∧ State.reset.Accepts viaNet kConfigDefaults [1#8] := by
  unfold State.Accepts State.Reaches State.Opens; decide +kernel

/-- EntryWriteIsWhole and PlainEntryTakesItsValue: an accepted write, a refused one, and one in segments. -/
theorem wit_entries :
    plainEntry 0x2040 = true ∧ State.reset.Accepts .mailbox (key 0x2040 1) (toBytes (2 ^ 32) 8) ∧
    State.reset.Reaches viaNet (key 0x2040 1) [1#8] ∧
    (State.reset.arrived viaNet (key 0x2040 1) [1#8]).writeRefused State.reset.fuses false 0x2040 1 [1#8] ≠ none := by
  unfold State.Accepts State.Reaches State.Opens; decide +kernel

/-! Tokens. -/

/-- Fuses that trust the block's key. -/
def keyed (kind : Nat) : State := { State.reset with fuses := { Fuses.made with keyDigests := shake256 (blockKey (token kind)) } }

theorem token_verifies (k : Nat) (hk : k = 1 ∨ k = 2) (h : blockSigned (token k) = true) :
    (keyed k).fuses.tokenVerifies (token k) = true := by
  have e : (tokenOf (ofBytes ((token k).take 128))).keySlot = 0 := by obtain rfl | rfl := hk <;> decide +kernel
  have l : (token k).length = 0xD00 := by simp [token]
  have n : (shake256 (blockKey (token k))).length = 64 := by obtain rfl | rfl := hk <;> decide +kernel
  simp only [Fuses.tokenVerifies, e, h, l, Fuses.trusts, blockBytes, keyed]
  simp [List.take_of_length_le (le_of_eq n), Fuses.made]; decide

/-- The token rows, as far as the signature, which the model leaves opaque (log 6), verifies. -/
theorem wit_refuse_token (h : blockSigned (token 1) = true) : (keyed 1).Accepts viaNet kRefuseToken (token 1) := by
  refine ⟨⟨by decide, by decide, by decide +kernel, by unfold State.Opens; decide +kernel⟩, ?_⟩
  have v := token_verifies 1 (.inl rfl) h
  have r : ((keyed 1).arrived viaNet kRefuseToken (token 1)).unitRules (keyed 1).fuses (kRefuseToken / 256) (kRefuseToken % 256)
      (some (token 1)) = [] := by
    simp only [Dev.unitRules, Dev.moduleRules, Dev.tokenRefused, v]
    decide +kernel
  simp only [Dev.writeRefused, Dev.stateRefused, r]
  decide +kernel

theorem wit_debug_token (h : blockSigned (token 2) = true) : (keyed 2).Accepts viaNet kDebugToken (token 2) := by
  refine ⟨⟨by decide, by decide, by decide +kernel, by unfold State.Opens; decide +kernel⟩, ?_⟩
  have v := token_verifies 2 (.inr rfl) h
  have r : ((keyed 2).arrived viaNet kDebugToken (token 2)).unitRules (keyed 2).fuses (kDebugToken / 256) (kDebugToken % 256)
      (some (token 2)) = [] := by
    simp only [Dev.unitRules, Dev.moduleRules, Dev.tokenRefused, v]
    decide +kernel
  simp only [Dev.writeRefused, Dev.stateRefused, r]
  decide +kernel

/-! Services. -/

def executed (d : Dev) (rq : DictReq) : Bool := d.powered && d.served && d.fresh viaNet rq

/-- A read transfer of client 0 with three bytes. -/
def reading0 : Transfer :=
  { id := 5, owner := some client0, write := false, index := 0x1000, subindex := 1, data := [1, 2, 3], segs := [], got := []
    lastSeg := none, length := 3, crc := crc32 [1, 2, 3], heard := 0 }

def writing0 : Transfer := { reading0 with write := true, index := 0x2040, data := [], length := 8, crc := crc32 (toBytes 0 8) }

def withTransfers (l : List Transfer) : Dev := { dev0 with mgmt := { dev0.mgmt with transfers := l } }

theorem wit_read :
    executed dev0 (plainReq 1 0x1234 1) = true ∧ (dev0.receive viaNet (plainReq 1 0x1234 1)).readRefused 0x1234 1 ≠ none ∧
    (dev0.receive viaNet (plainReq 1 0x2000 1)).readRefused 0x2000 1 = none ∧
    (dev0.valueOf State.reset.fuses 0x2000 1).length ≤ messageBytes viaNet := by decide +kernel

theorem wit_read_long :
    (dev0.receive viaNet (plainReq 1 0x6300 1)).readRefused 0x6300 1 = none ∧
    messageBytes viaNet < (dev0.valueOf State.reset.fuses 0x6300 1).length ∧ dev0.buffersFull (some client0) = false ∧
    (withTransfers (List.replicate 7 reading0)).buffersFull (some client0) = true := by decide +kernel

theorem wit_segments :
    reading0.length = reading0.data.length ∧
    executed (withTransfers [reading0]) { plainReq 3 0 0 with segment := 0, transfer := 5 } = true ∧
    ((withTransfers [reading0]).receive viaNet { plainReq 3 0 0 with segment := 0, transfer := 5 }).transferOf (some client0) 5 =
      some reading0 ∧ 0 < segCount viaNet false 3 := by decide +kernel

/-- The last segment of an eight-byte value, and one that leaves it incomplete. -/
theorem wit_write_segments :
    (dev0.receive viaNet (plainReq 4 0x6300 1)).openRefused State.reset.fuses false 0x6300 1 8192 = none ∧
    (withTransfers [writing0]).transferOf (some client0) 5 = some writing0 ∧ 0 < segCount viaNet true 8 ∧
    ({ writing0 with segs := [(0, toBytes 0 8)], got := [0], lastSeg := some 0 } : Transfer).whole = some (toBytes 0 8) ∧
    ({ writing0 with segs := [(0, toBytes 0 8)], got := [0] } : Transfer).whole = none ∧
    crc32 (toBytes 0 8) = writing0.crc ∧
    (withTransfers [writing0]).writeRefused State.reset.fuses false 0x2040 1 (toBytes 0 8) = none := by decide +kernel

theorem wit_descriptions :
    executed dev0 (plainReq 7 0x2000 1) = true ∧ dev0.missing 0x2000 1 = none ∧ dev0.bootRefused 0x2000 = none ∧
    executed dev0 (plainReq 8 0 0) = true ∧ executed dev0 (plainReq 9 0 0) = true := by decide +kernel

theorem wit_notices :
    targetOf (dev0.get kNoticeTarget) = targetOf 0 ∧ dev0.get kNoticeRetryMs = 100 ∧ dev0.get kT1sNodeId ≠ 0 ∧
    (puts [(kT1sNodeId, 0)]).get kT1sNodeId = 0 ∧ (puts [(kT1sState, 2)]).get kT1sState = 2 ∧ dev0.get kT1sState ≠ 2 ∧
    State.reset.fuses.linkLocal < 2 ^ 128 ∧
    [((3 : Nat), (9 : Nat), (2 : Nat), (0 : Nat))].find? (fun x => decide (x.1 = 3)) = some (3, 9, 2, 0) ∧
    (withTransfers [reading0]).mgmt.transfers.find? (fun x => decide (x.id = 5)) = some reading0 := by decide +kernel

/-! Power, boot and the surroundings. -/

theorem wit_boot :
    dev0.env.shutAt = none ∧ (puts [(kBootStage, 4)]).get kBootStage = 4 ∧ (puts [(kBootStage, 4)]).outside = false ∧
    ({ dev0 with env := { dev0.env with points := [(1, { Point.start with value := 0, valid := true })] } } : Dev).outside = true ∧
    (∀ k : Fin 33, dev0.railState k ≠ 3) := by decide +kernel

theorem wit_overrun : (puts [(kBootStage, 1)]).stageLimit = some 40000000 ∧ (puts [(kBootStage, 5)]).stageLimit = some 200000000 ∧
    dev0.sec.bootFailed = none := by decide +kernel

theorem wit_bar2 : dev0.mgmt.pcieLink = true ∧ dev0.bar2Open = true ∧ dev0.get kBar2Base + 4 + 4096 ≤ dev0.workingBytes ∧
    dev0.lostIn 4 4096 = none ∧ dev0.blocked 4 4096 = false ∧ dev0.mem.carried = [] ∧
    (dev0.setPc (dev0.channelOf 0) .retraining).blocked 4 4 = true ∧ (dev0.setPc (dev0.channelOf 0) .lost).blocked 4 4 = false ∧
    ((dev0.setPc (dev0.channelOf 0) .lost).lostIn 4 4).isSome = true ∧ ((dev0.writeMem 0 [1#8] true).poisonIn 4 4).isSome = true ∧
    (puts [(kBar2Base, 2 ^ 40)]).workingBytes < 2 ^ 40 + 1 ∧ dev0.doeServed = true := by decide +kernel

/-- Point 1 is V_IN; 100 V is beyond its trip. -/
theorem wit_measured : isPoint 1 = true ∧ dev0.notEvaluated 1 = false ∧ railOf 1 = none ∧ 3 ≤ dev0.get kBootStage ∧
    ((dev0.pointLimits 1).find? (fun y => y.broken y.trip 0x42C80000)).isSome = true ∧ dev0.railState 4 ≠ 0 ∧
    0 < dev0.phases 1 ∧ dev0.railState 1 ≠ 0 ∧ phasesMin 1 < dev0.phases 1 := by decide +kernel

/-! Deadlines, resets, teardown and proofs. -/

/-- A segment of chain 0 whose deadline is past. -/
def seg0 : Seg :=
  { seq0 := 7, endSeq := none, deadline := 0, extended := 0, missed := false, hung := false, kind := 0, step := 0, segId := 0
    rerunAllow := 0, rerunCap := 0, reruns := 0, selected := [], doneBy := [], heldAt := none, recutExtended := false }

def late : Dev := { (dev0.setGauge chain0 [seg0]) with time := 10 ^ 12 }

theorem wit_missed :
    (late.gauge chain0).find? (fun y => !y.missed && y.heldAt.isNone && decide (y.deadline ≤ late.time)) = some seg0 ∧
    (late.gauge chain0).find? (fun y => !y.hung && y.heldAt.isNone && decide (y.deadline + late.get (kHangAfter 0) ≤ late.time)) =
      some seg0 ∧ (late.put (kHangAction 0) 0).get (kHangAction 0) = 0 ∧ late.live = true ∧ late.memHolds = false ∧
    (late.setPc 0 .retraining).memHolds = true := by decide +kernel

def run0 (domain : Nat) (refuse : Bool) : ResetRun :=
  { domain := domain, cause := 1, clear := false, refuse := refuse, discarded := false, parts := [(0, 1)], engine := 0x20, chain := 0, startedAt := 0 }

def resetting (domain : Nat) (refuse : Bool) : Dev :=
  { dev0 with time := 10 ^ 10, faults := { dev0.faults with run := some (run0 domain refuse) } }

theorem wit_reset : (∀ n ∈ [1, 2, 3, 4], (resetting n false).resetReady (run0 n false) = true) ∧
    (resetting 4 true).resetReady (run0 4 true) = true ∧
    ((run0 4 false).domain = 4 ∧ dev0.faults.next = none ∧ dev0.sec.token = none) ∧
    ∀ n ∈ [1, 2, 3, 4], (run0 n false).startedAt + (resetting n false).resetLimit (run0 n false) ≤ (resetting n false).time := by
  decide +kernel

theorem wit_lines : dev0.get kModuleState ≠ 0 ∧ dev0.get kModuleState ≠ 4 ∧ dev0.faults.run = none ∧
    (∀ p : Fin 4, dev0.resettable p = false) ∧ (part0 psAdmitted).resettable 0 = true ∧ (part0 psAdmitted).faults.run = none ∧
    ((resetting 4 false).faults.run = some (run0 4 false) ∧ (run0 4 false).domain = 4) := by decide +kernel

def tearing0 (confirm : Bool) : Dev :=
  let x := { Part.start with teardown := some { torn0 with torn := false, confirm := confirm } }
  { (part0 psQuiescing).setPart 0 x with time := 10 ^ 9 }

/-- Nothing runs, and work that still does: a proof block of partition 0. -/
theorem wit_teardown : ((tearing0 true).drainWork 0).workDone 0 = true ∧ ((tearing0 false).drainWork 0).workDone 0 = true ∧
    torn0.startedAt + 20000000 ≤ (tearing0 true).time ∧
    (let x := (tearing0 true).setPart 0 { Part.start with teardown := some { torn0 with torn := false }, hosts := [0] }
     ((x.setBench 0 { Bench.idle with proof := some (chain0, 3) }).drainWork 0).workDone 0 = false) := by decide +kernel

/-! Chains and units. -/

/-- Partition 0 ADMITTED with 96 MiB, lift 0 on bench 0, channel 0 of haul 0 and virtual tally 0. -/
def admitted : Dev :=
  ((puts [(kPartState 0, psAdmitted), (kPartLogicalBenches 0, 1), (kPartBenchMask 0, 1), (kPartMemBytes 0, 100663296),
      (kLiftMap 0 0, 256), (kHaulOwner 0, 0xFFFFFFF0)]).setPart 0 { Part.start with hosts := [0] }).writeTallyMap 0
    [0#8, 0x80#8, 0#8, 0#8]

def chainOn (e : Fin 34) : ChainId := { p := 0, e := e, c := 0 }

/-- A word with CMD_SEQ 7 for every unit of its chain. -/
def wordFor (e : Fin 34) (op body : Nat) : Nat :=
  wordBits { headerOf 0 with cmdSeq := 7, opcode := op, benchSel := if e.val < 16 then 0x7F else 0 } body

def cursor0 (op : Nat) : Cursor := { Cursor.idle with state := .running, expSeq := 7, atStart := decide (op = opSegment) }

/-- A chain that runs and has the word before it. -/
def running (e : Fin 34) (op body : Nat) : Dev :=
  (admitted.setCursor (chainOn e) 0 (cursor0 op)).writeMem 0 (toBytes (wordFor e op body) 64) false

def cmdOn (e : Fin 34) (op body : Nat) : Cmd := cmdAt (chainOn e) 0 (cursor0 op) (wordFor e op body)

/-- The chain is live, its word is taken, and it may issue at once. -/
def fetches (e : Fin 34) (op body : Nat) : Bool :=
  let d := running e op body
  let c := cmdOn e op body
  d.live && d.mayRead (chainOn e) 0 && decide (d.fetch (chainOn e) 0 op = .word c) && d.orderOk c &&
  decide ((headerOf c.word).waitKind = 0 ∧ (headerOf c.word).opcode = op)

def select0 (rerun : Nat) : Nat := selectBits { dev := 0, rerun := rerun, count := 1, decisionAddr := 0 }

theorem wit_control_words :
    fetches 0x20 opSegment (segmentBits { segmentOf 0 with segKind := 1, deadline := 5 }) = true ∧
    fetches 0x20 opLink (linkBits { nextValid := 1, halt := 0, nextAddr := 1 }) = true ∧ fetches 0x20 opNop 0 = true ∧
    fetches 0x20 opWait (waitBits { timeoutNs := 5, kind := 2, tally := 0, thresh := 1 }) = true ∧
    fetches 0x20 opSignal (signalBits { chip := 0, remote := 0, tally := 0, count := 1 }) = true ∧
    fetches 0 opSelect (select0 0) = true ∧ fetches 0 opSelect (select0 1) = true := by decide +kernel

/-- The clauses of WordsAreCheckedFirst: outside the allocation, and out of sequence. -/
theorem wit_bad_words :
    ((running 0x20 opNop 0).put (kPartMemBytes 0) 0).inAlloc 0 0 64 = false ∧
    ((running 0x20 opNop 0).put (kPartMemBytes 0) 0).mayRead chain0 0 = true ∧
    (running 0x20 opNop 0).inAlloc 0 0 64 = true ∧ (running 0x20 opNop 0).heldIn 0 64 = false ∧
    (running 0x20 opNop 0).lostIn 0 64 = none ∧ (running 0x20 opNop 0).linePoisoned 0 = false ∧
    (headerOf ((running 0x20 opNop 0).readNum 0 64)).cmdSeq ≠ 8 := by decide +kernel

/-- Chain 1 waits its turn while chain 0 has a command to issue; a step segment waits for ADMITTED, another does not. -/
theorem wit_turns :
    let step0 := segmentBits { segmentOf 0 with segKind := 1, deadline := 5 }
    (running 0x20 opNop 0).mayRead chain0 0 = true ∧ (running 0x20 opNop 0).turn chain0 0 = true ∧
    (running 0x20 opNop 0).turn { chain0 with c := 1 } 0 = false ∧
    ((running 0x20 opSegment step0).put (kPartState 0) psLoading).kindHeld 0 (wordFor 0x20 opSegment step0) = true ∧
    (headerOf (wordFor 0x20 opSegment step0)).cmdSeq = ((running 0x20 opSegment step0).cursor chain0 0).expSeq ∧
    (running 0x20 opSegment step0).kindHeld 0 (wordFor 0x20 opSegment step0) = false := by decide +kernel

/-- A header wait on tally 0 holds its command. -/
theorem wit_header_wait :
    (headerOf (wordBits { headerOf 0 with cmdSeq := 7, opcode := opNop, waitKind := 2, waitThresh := 1 } 0)).waitKind ≠ 0 := by
  decide

theorem wit_poll :
    let d := { (admitted.setCursor chain0 0 { cursor0 0 with state := .polling, atLink := true }) with time := 10 ^ 9 }
    (d.cursor chain0 0).state = .polling ∧ d.unitLive chain0 0 = true ∧ d.tearing 0 = false ∧ d.heldIn 0 64 = false ∧
    d.lostIn 0 64 = none ∧ d.linePoisoned 0 = false ∧ (d.cursor chain0 0).polledAt + (d.takenOf chain0).1 ≤ d.time ∧
    (d.cursor chain0 0).haltReq = false := by decide +kernel

/-- The decision word of SELECT: 0, and 1 once it is written. -/
theorem wit_select :
    (issued (running 0 opSelect (select0 1)) (cmdOn 0 opSelect (select0 1))).storeNum 0 0 4 = 0 ∧
    (issued ((running 0 opSelect (select0 1)).writeStore 0 0 [1#8] false) (cmdOn 0 opSelect (select0 1))).storeNum 0 0 4 ≠ 0 ∧
    (selectOf (cmdOn 0 opSelect (select0 1)).word).dev ≠ 1 ∧
    (issued (running 0 opSelect (select0 1)) (cmdOn 0 opSelect (select0 1))).storePoisoned 0 0 = false := by decide +kernel

/-- A SELECT whose decision word lies at byte 4096 of device memory: 0, 1, and while its pseudo-channel retrains. -/
theorem wit_select_memory :
    let w := selectBits { dev := 1, rerun := 0, count := 1, decisionAddr := 4096 }
    let d := running 0 opSelect w
    let c := cmdOn 0 opSelect w
    let held := d.setPc (d.channelOf 4096) .retraining
    fetches 0 opSelect w = true ∧ d.heldIn 4096 4 = false ∧ (issued d c).inAlloc 0 4096 4 = true ∧ (issued d c).lostIn 4096 4 = none ∧
    (issued d c).linePoisoned 4096 = false ∧ (issued d c).readNum 4096 4 = 0 ∧
    (issued (d.writeMem 4096 [1#8] false) c).readNum 4096 4 = 1 ∧ held.heldIn 4096 4 = true ∧
    held.fetch (chainOn 0) 0 opSelect = .word c ∧ held.orderOk c = true := by decide +kernel

def matmul0 : Nat := matmulBits { matmulOf 0 with faceMask := 1, afmt := 1 }

def hopper0 : Nat := hopperBits { hopperOf 0 with hopperBytes := 4194304, stagingAddr := 16777216 }

theorem wit_unit_words :
    fetches 0 opMatmul matmul0 = true ∧ fetches 0 opVector (vectorBits { vectorOf 0 with progLen := 1 }) = true ∧
    fetches 0x10 opHaul (haulBits (haulOf 0)) = true ∧ fetches 0x20 opVote (voteBits (voteOf 0)) = true ∧
    fetches 0x21 opSnapshot (bedBits { bedOf 0 with regionCount := 1 }) = true ∧
    fetches 0x21 opRestore (bedBits { bedOf 0 with regionCount := 1 }) = true ∧
    fetches 0x21 opStream (bedBits { bedOf 0 with regionCount := 1 }) = true := by decide +kernel

theorem wit_unit_room :
    (admitted.bench 0).matQ.length < 4 ∧ (admitted.bench 0).vecQ.length < 4 ∧ (admitted.chan 0 0).queued = none ∧
    admitted.sideViolation 0 (haulOf 0).src = none ∧ admitted.sideViolation 0 (haulOf 0).dst = none ∧
    (admitted.train 0).xq.length < 2 ∧ admitted.exchangeViolation 0 (cmdOn 0x20 opVote 0) = none ∧
    (admitted.bed 0).q.length < 2 ∧ admitted.inAlloc 0 0 16 = true := by decide +kernel

/-- A hopper over a collective of this chip alone. -/
theorem wit_hopper :
    let d := running 0x20 opHopper hopper0
    let d := { d with training := { d.training with collectives := [(0, [0])] } }
    d.fetch chain0 0 opHopper = .word (cmdOn 0x20 opHopper hopper0) ∧
    d.exchangeViolation 0 (cmdOn 0x20 opHopper hopper0) = none := by decide +kernel

/-! Benches and transfers at work. -/

def conv0 (pos : Nat) : Cmd := cmdOn 0 opMatmul (matmulBits { matmulOf 0 with faceMask := 1, afmt := 1, convPos := pos })

def draining (pos credits : Nat) : Dev :=
  let d := admitted.setSlot 0 0 { Slot.empty with state := .drain, cmd := some (conv0 pos) }
  if credits = 0 then { d with benches := { d.benches with credits := (List.range 4).map (fun i => (i, 0)) } } else d

theorem wit_drain :
    (draining 0 2).isOldest 0 0 = true ∧ (draining 1 0).canSend (conv0 1) = false ∧ (draining 1 0).isOldest 0 0 = true ∧
    ((draining 0 2).slot 0 0).state = .drain ∧ ((draining 0 2).slot 0 0).cmd = some (conv0 0) ∧
    (matmulOf (conv0 0).word).convPos = 0 ∧ (matmulOf (conv0 1).word).convPos = 1 ∧
    (draining 1 2).canSend (conv0 1) = true := by decide +kernel

/-- A HELD tile with its sum in the inbox, and a later tile behind it. -/
theorem wit_held_tile :
    let d := admitted.setSlot 0 0 { Slot.empty with state := .held, cmd := some (conv0 2) }
    let d := d.setSlot 0 1 { Slot.empty with state := .drain, cmd := some (conv0 0), ord := 1 }
    let d := d.setBench 0 { d.bench 0 with inbox := [{ face := 0, chain := 0, seq := 0, src := 1, rows := 64, vals := [], flags := 0
                                                       poison := false }] }
    d.isOldest 0 0 = true ∧ d.sumArrived 0 (matmulOf (conv0 2).word) = true ∧ d.strayTile 0 0 (matmulOf (conv0 2).word) = none ∧
    (d.slot 0 1).cmd = some (conv0 0) ∧ d.isOldest 0 1 = false := by decide +kernel

theorem wit_conveyor :
    let x : ConvSeg := { dst := 0, hdr := 0, vals := [] }
    let d := { admitted with benches := { admitted.benches with convFlight := [x], creditFlight := [(0, 1)] } }
    d.benches.convFlight.find? (fun y => d.hosts 0 y.dst) = some x ∧
    d.benches.creditFlight.find? (fun y => d.hosts 0 y.1 && decide (y.2 = 1)) = some (0, 1) := by decide +kernel

theorem wit_ramp :
    let d := dev0.setAct 0 .faces { state := .fill, level := 8 }
    d.live = true ∧ (d.act 0 .faces).state = .fill ∧ d.headed 0 .faces = false ∧ (d.bench 0).matQ = [] ∧ (d.bench 0).vecQ = [] ∧
    (∀ x ∈ [(Activity.rampDown, 5), (.rampDown, 1), (.rampUp, 3), (.rampUp, 7)],
      (d.setAct 0 .faces { state := x.1, level := x.2 }).act 0 .faces = { state := x.1, level := x.2 }) := by decide +kernel

/-- A report for grader 0, enabled with one tile to a decision, with two, and not enabled. -/
theorem wit_grader :
    let r : Report := { p := 0, g := 0, clip := 1, uflow := 0, amax := 5, flags := 0, elements := 4096 }
    let d := { dev0 with training := { dev0.training with reports := [r] } }
    d.training.reports.find? (fun y => decide (y.p = 0) && decide (y.g = 0)) = some r ∧
    ((d.put (kGrader 0 0) (2 ^ 255 + 2 * 2 ^ 191)).graderEntry 0 0).expect = 2 ∧
    ((d.put (kGrader 0 0) (2 ^ 255 + 2 * 2 ^ 191)).graderEntry 0 0).enable = true ∧
    ((d.put (kGrader 0 0) (2 ^ 255 + 2 ^ 191)).graderEntry 0 0).expect = 1 ∧ (d.graderEntry 0 0).enable = false := by decide +kernel

def closing0 : Dev :=
  admitted.setChan 0 0
    { Chan.idle with state := .closing, cur := some (cmdOn 0x10 opHaul 0), lastAcked := true, readback := some (stOk, false) }

theorem wit_haul : (closing0.chan 0 0).cur = some (cmdOn 0x10 opHaul 0) ∧ (closing0.chan 0 0).state = .closing ∧
    (closing0.chan 0 0).lastAcked = true ∧ (closing0.chan 0 0).ended = false ∧
    (closing0.chan 0 0).readback = some (stOk, false) ∧ stTimeout ≠ stOk ∧
    (haulOf (cmdOn 0x10 opHaul 0).word).dst.space ≠ 2 ∧ closing0.localBack 0 (haulOf (cmdOn 0x10 opHaul 0).word) = some (stOk, false) ∧
    ((closing0.setChan 0 0 { closing0.chan 0 0 with readback := none }).chan 0 0).readback = none := by decide +kernel

def bedAt (op : Nat) : Dev :=
  admitted.setBed 0 { Bed.start with run := some { cmd := cmdOn 0x21 op (bedBits (bedOf 0)), regions := [], bad := [], sent := 0
                                                   record := true, acked := true } }

theorem wit_bed : ∀ op ∈ [opStream, opSnapshot, opRestore],
    (headerOf (cmdOn 0x21 op (bedBits (bedOf 0))).word).opcode = op ∧ ((bedAt op).bed 0).run.isSome = true ∧
    (bedAt op).bedHeld [] = false ∧ (bedAt op).bedLost [] = none := by decide +kernel

/-- Bench 0 runs a proof block of chain 0 of lift 0 in step 3. -/
theorem wit_proof :
    let d := admitted.setBench 0 { Bench.idle with proof := some (chainOn 0, 3) }
    (d.bench 0).proof = some (chainOn 0, 3) ∧ d.tenantAt 0 = some (0, 0) ∧ d.subBlock (chainOn 0) (1#8).toNat = true ∧
    d.subBlock (chainOn 0) (11#8).toNat = false := by decide +kernel

/-- The image of 2 MiB is clean in a memory without poison. -/
theorem wit_image (d : Dev) (p : Nat) (h : d.mem.poison = []) : d.proofPoison p = none := by
  unfold Dev.proofPoison Dev.poisonIn
  rw [List.find?_eq_none]
  intro l _
  simp [Dev.linePoisoned, h, NSet.mem]

/-- With the line at its base poisoned that line is found first. -/
theorem wit_bad_image : ∃ a, ((dev0.put (kProofImageBase 0) 0).writeMem 0 [1#8] true).proofPoison 0 = some a := by
  refine Option.isSome_iff_exists.mp ?_
  unfold Dev.proofPoison Dev.poisonIn
  rw [List.find?_isSome]
  have e : ((dev0.put (kProofImageBase 0) 0).writeMem 0 [1#8] true).get (kProofImageBase 0) = 0 := by decide +kernel
  exact ⟨0, by rw [e]; simp [linesOf], by decide +kernel⟩

/-- Two tenants of one host, the resident one blocked with nothing queued. -/
theorem wit_tenants :
    let d := (((admitted.put (kPartTenancy 0) 2).put (kPartLogicalBenches 0) 2).put (kLiftMap 0 0) 512).setBench (imagePlace 0 1)
      { Bench.idle with matQ := [cmdOn 0 opMatmul matmul0] }
    1 < min (0 * d.tenancy 0 + d.tenancy 0) (d.get (kPartLogicalBenches 0)) - 0 ∧ 0 < (d.part 0).hosts.length ∧
    d.tallies.waits.any (fun x => d.benchWait 0 (d.residentOf 0 0) x.1 && x.2.latch) = false ∧
    d.tenantBlocked 0 (d.residentOf 0 0) = true := by decide +kernel

/-! The vector unit. -/

def vops : VOperands :=
  { vd := 1, va := 2, vb := 3, vc := 0, vmask := 0, maskEn := false, vfmt := 0, vscale := 0, pd := 0, ps := 0, vstride := 0
    vaddr := 0 }

/-- Operands that every operation takes, and some that none does. -/
theorem wit_vector : (∀ x ∈ vectorRows, vinstrOffences [] (vinstrFor x.1 vops) = []) ∧
    ∀ x ∈ vectorRows, vinstrOffences [] (vinstrFor x.1 { vops with pd := 3, ps := 3, vfmt := 7 }) ≠ [] := by decide +kernel

/-- A bench out of use, and one in use. -/
theorem wit_out_of_use : (puts [(kBenchFenceMask, 1)]).outOfUse 0 = true ∧ dev0.outOfUse 0 = false ∧
    dev0.poisonedOf 0 [] = [] := by decide +kernel

theorem wit_views : ([5#32, 6#32] : List Word32).length = [7#32, 8#32].length ∧ 1 < [5#32, 6#32].length := by decide

/-! Tallies and barriers. -/

def sig0 (v : Nat) : Signal :=
  { p := 0, vt := v, count := 1, payload := 0, epoch := 0, chip := none, guard := false, cmd := none, completes := false }

/-- Physical tally 0, which virtual tally 0 of `admitted` names, at a count. -/
def counted (n : Nat) (full : Bool) : Dev := admitted.setTally 0 { Tally.zero with count := n, overflowed := full }

theorem wit_signal :
    ({ admitted with tallies := { admitted.tallies with flight := [sig0 0] } }).tallies.flight[0]? = some (sig0 0) ∧
    (sig0 0).cmd = none ∧ ({ sig0 0 with cmd := some (cmdOn 0x20 opSignal 0), completes := true }).completes = true ∧
    admitted.phys 0 0 = some 0 ∧ 0xFFFFFFFF < ((counted 0xFFFFFFFF false).tally 0).count + (sig0 0).count ∧
    ((counted 5 true).tally 0).count + (sig0 0).count ≤ 0xFFFFFFFF ∧ ((counted 5 true).tally 0).overflowed = true ∧
    admitted.phys 0 1 = none ∧ (sig0 0).epoch = admitted.get (kPartEpoch 0) ∧
    ({ sig0 0 with epoch := 1 }).epoch ≠ admitted.get (kPartEpoch 0) ∧ admitted.tallies.waits = [] ∧
    (admitted.tally 0).count + (sig0 0).count ≤ 0xFFFFFFFF ∧ admitted.ownTakers 0 = [] := by decide +kernel

theorem wit_no_wait : NoWaitEnded admitted := by unfold NoWaitEnded; decide +kernel

/-- The exchange engine's point of partition 0. -/
def voter : Waiter := { kind := 6, unit := 0, sub := 0, p := 0 }

/-- A vote that waits for count 1 on virtual tally `v`. -/
def waiting (v : Nat) : Cmd :=
  cmdAt (chainOn 0x20) 0 (cursor0 opVote) (wordBits { headerOf 0 with cmdSeq := 7, opcode := opVote, waitKind := 1, waitTally := v
                                                                      waitThresh := 1 } 0)

def atPoint (v : Nat) (w : Wait) : Dev := (admitted.setTrain 0 { Train.start with xq := [waiting v] }).setWait (pointId voter) w

def wait0 : Wait :=
  { vt := 0, pt := 0, kind := 1, thresh := 1, timeout := 5, postedAt := 0, latch := false, ended := false }

theorem wit_point :
    (atPoint 0 Wait.none).pointCmd voter = some (waiting 0) ∧ (atPoint 0 Wait.none).posted (pointId voter) = false ∧
    (atPoint 0 Wait.none).tearing 0 = false ∧ (∃ x, (atPoint 0 Wait.none).waitSpec (waiting 0) = some x ∧ x.vt = 0) ∧
    (atPoint 0 Wait.none).phys 0 0 = some 0 ∧
    (atPoint 0 { wait0 with latch := true }).ctlHeld (waiting 0) = false ∧
    (∃ x, (atPoint 1 Wait.none).waitSpec (waiting 1) = some x ∧ x.vt = 1) ∧
    (atPoint 1 Wait.none).phys 0 1 = none ∧ voter.sub.val ≠ 1 ∧
    ((atPoint 0 { wait0 with latch := true }).waitAt (pointId voter)).latch = true := by
  refine ⟨?_, ?_, ?_, ⟨_, rfl, ?_⟩, ?_, ?_, ⟨_, rfl, ?_⟩, ?_, ?_, ?_⟩ <;> decide +kernel

/-- A wait that ended on an overflowed tally, and one past its time. -/
theorem wit_timeout :
    (atPoint 0 wait0).ctlHeld (waiting 0) = false ∧
    (atPoint 0 wait0).posted (pointId voter) = true ∧ ((atPoint 0 wait0).waitAt (pointId voter)).latch = false ∧
    ((atPoint 0 { wait0 with ended := true }).waitAt (pointId voter)).ended = true ∧
    ((atPoint 0 wait0).waitAt (pointId voter)).postedAt + ((atPoint 0 wait0).waitAt (pointId voter)).timeout ≤
      ({ atPoint 0 wait0 with time := 5 }).time := by decide +kernel

theorem wit_table : 1 < (halves [0#8, 0x80#8, 1#8, 0x80#8]).length ∧
    (admitted.writeTallyMap 1 [0#8, 0x80#8, 1#8, 0x80#8]).phys 1 1 = some 1 := by decide +kernel

/-- Slot 0 of partition 0, granted with payload 9, in a tree. -/
def grantedOn (tree : Nat) : Dev :=
  let d := admitted.put (kBarrier 0 0) (pack [(1, 1), (12, 0), (12, 0), (16, 1), (4, 2), (16, tree), (3, 0)])
  let d := d.put (kPortState 2) 4
  { d with tallies := { d.tallies with granted := [(0, some 9)] } }

theorem wit_barrier :
    SMap.get none (grantedOn 3).tallies.granted (64 * 0 + 0) = some 9 ∧ ((grantedOn 0xFFFF).barrier 0 0).tree = 0xFFFF ∧
    ((grantedOn 3).barrier 0 0).tree ≠ 0xFFFF ∧ (grantedOn 3).anyReq (fun r => isExchange 0 r.what) = false ∧
    (grantedOn 3).portAdmitted ((grantedOn 3).barrier 0 0).plane = true ∧ (grantedOn 0xFFFF).tallies.waits = [] ∧
    (grantedOn 3).tallies.waits = [] ∧ ((grantedOn 0xFFFF).train 0).voteSent = none ∧
    (grantedOn 0xFFFF).phys 0 ((grantedOn 0xFFFF).barrier 0 0).release = some 0 ∧
    ((grantedOn 0xFFFF).tally 0).count + 1 ≤ 0xFFFFFFFF := by decide +kernel

/-- The vote of a running XCHG_VOTE, to fail; of an OBSERVER; of one that waits for its causes; and one already sent. -/
theorem wit_vote :
    let v : VoteRun := { cmd := cmdOn 0x20 opVote 0, step := 0, forceFail := true, sent := false }
    let d := admitted.setTrain 0 { Train.start with vote := some v }
    d.live = true ∧ ((d.inboxCheck 0).train 0).vote = some v ∧ ((d.inboxCheck 0).train 0).shadowWait = false ∧
    ((admitted.inboxCheck 0).train 0).vote = none ∧ (d.inboxCheck 0).isMember 0 = true ∧
    (d.inboxCheck 0).failCause 0 v.step v.forceFail = true ∧ ({ v with sent := true }).sent = true ∧
    (d.inboxCheck 0).get (kVoteSlot 0) < 64 ∧ ((d.put (kRole 0) 1).inboxCheck 0).isMember 0 = false ∧
    (d.inboxCheck 0).causesKnown 0 0 = true ∧ ((d.put (kRecutState 0) 1).inboxCheck 0).causesKnown 0 0 = false ∧
    (let e := d.put (kRecutState 0) 1
     (({ e with fabric := { e.fabric with coords := { e.fabric.coords with minPorts := 0 } } }).inboxCheck 0).failCause 0 0 false =
       false) := by decide +kernel

/-! The fabric. -/

/-- Port 0 in a state, machine partition 5 allowed and bound to partition 0 in epoch 1. -/
def fabricAt (st : Nat) : Dev :=
  let d := ((admitted.put (kPortState 0) st).put (kPartMpart 0) 5).put (kPartEpoch 0) 1
  { d with fabric := { d.fabric with coords := { d.fabric.coords with chip := 1, mparts := 5 + 6 * 2 ^ 16 } } }

def headFor (t vl : Nat) : PacketHeader :=
  { noHeader with dstChip := 1, srcChip := 2, mpart := 5, epoch := 1, ptype := t, vl := vl, tag := 3 }

/-- Port 0 after a packet has come in whole. -/
def accepted (d : Dev) (pkt : Packet) : Dev := (d.accept 0 (incoming pkt)).1

/-- A packet is accepted and taken at port 0, by a module that satisfies `f`. -/
def takesAt (d : Dev) (pkt : Packet) (f : Dev → PacketHeader → Bool) : Bool :=
  let h := packetHeader pkt
  (d.accept 0 (incoming pkt)).2.isSome && decide ((accepted d pkt).arrival 0 h.ptype pkt = .take 0 h) && f (accepted d pkt) h

def takes (t vl : Nat) (f : PacketHeader → PacketHeader) (payload : List Byte) : Bool :=
  takesAt (fabricAt 4) (packetFrom (f (headFor t vl)) payload) (fun _ h => decide (h.ptype = t))

def line (v : Nat) : List Byte := lineOf v

/-- Packets that are taken, and one of each kind that is not. -/
theorem wit_arrivals :
    takes ptWrite vlData id (line 1) = true ∧ takes ptReadReq vlData id [] = true ∧
    takes ptSignal vlData (fun h => { h with guard := 1 }) (line 1) = true ∧
    takes ptExchange vlCollective id (line 0) = true ∧ takes ptBarrier vlCollective id (line (2 * 2 ^ 120)) = true ∧
    takes ptWriteAck vlData id [] = true ∧ takes ptReadResp vlData id (line 0) = true ∧ takes ptSignalAck vlData id [] = true ∧
    takes ptExchangeAck vlCollective id [] = true := by decide +kernel

/-- Frames at port 0: a bad one, one seen before, and a new one that takes a credit of its lane's reserve. -/
theorem wit_accept :
    let x := incoming (packetFrom (headFor ptReadReq vlData) [])
    let d := (fabricAt 4).setPort 0 { Port.fresh with granted := [(vlData, 5)], grantedPool := 7 }
    d.linked 0 = true ∧ ({ x with state := .crc }).state = .crc ∧ ({ x with state := .codeword 0 1 }).state = .codeword 0 1 ∧
    x.state = .good ∧ NSet.mem (d.port 0).rxSeen x.seq.toNat = false ∧ (d.accept 0 x).2 = some (1, 0) ∧
    NSet.mem ((d.accept 0 x).1.port 0).rxSeen x.seq.toNat = true ∧ x.pkt.payload.length ≤ 4096 ∧
    ((fabricAt 4).accept 0 x).2 = some (0, 0) := by decide +kernel

/-- Partition 0 opens its first mebibyte for reading and writing. -/
def opened : Dev := (fabricAt 4).put (kRemoteWindow 0 0) (2 ^ 16 + 7)

/-- The same while the pseudo-channel of its first line retrains. -/
def openedHeld : Dev := opened.setPc (opened.channelOf 0) .retraining

/-- A write and a read of line 0 wait for it, or are served. -/
theorem wit_held_requests : ∀ x ∈ [(ptWrite, line 1), (ptReadReq, ([] : List Byte))],
    let pkt := packetFrom { headFor x.1 vlData with byteEnOrLinePoison := if x.1 = ptWrite then 255 else 0 } x.2
    takesAt openedHeld pkt (fun d h => d.mustHold 0 h) = true ∧ takesAt opened pkt (fun d h => !d.mustHold 0 h) = true := by
  decide +kernel

/-- An EXCHANGE of rank 0 for the shard of rank 1, its slot free and held. -/
theorem wit_held_exchange :
    let w : Nat := hopperBits { hopperOf 0 with hopperBytes := 128, finesAddr := 4096 }
    let h : Hopper := { cmd := cmdOn 0x20 opHopper w, rank := 1, chips := [2, 1], contrib := [], sums := [], summed := false
                        sumsDone := [], toSend := [], read := true }
    let first := shardLo (hopperOf h.cmd.word).elems 2 1
    let x : XDesc := { xdescOf 0 with shard := 1, first := first, count := 0 }
    let d := opened.setTrain 0 { Train.start with hopper := some h }
    let pkt := packetFrom (headFor ptExchange vlCollective) (line (xdescBits x))
    takesAt d pkt (fun d ph => (d.exchangeHeld 0 ph pkt.payload).isNone) = true ∧
    takesAt (d.setPc (d.channelOf (h.slot 0).1) .retraining) pkt (fun d ph => decide (d.exchangeHeld 0 ph pkt.payload = some (h.slot 0))) =
      true := by decide +kernel

theorem wit_judged :
    (fabricAt 3).linked 0 = true ∧ (fabricAt 3).portAdmitted 0 = false ∧ (fabricAt 4).portAdmitted 0 = true ∧
    (fabricAt 4).mpartAllowed 7 = false ∧ (fabricAt 4).mpartAllowed 5 = true ∧
    malformedPacket (packetFrom (headFor ptWrite vlData) []) = true ∧
    malformedPacket (packetFrom (headFor ptReadReq vlData) []) = false ∧
    (fabricAt 4).mpartAllowed 6 = true ∧ (fabricAt 4).boundTo 6 = none ∧ (fabricAt 4).boundTo 5 = some 0 ∧
    (fabricAt 4).get (kPartEpoch 0) = 1 := by decide +kernel

theorem wit_release_kind : fld (ofBytes (line (2 * 2 ^ 120))) 127 120 = 2 := by decide +kernel

theorem wit_exchange_served :
    let pkt := fun w => packetFrom (headFor ptExchange vlCollective) (line w)
    takesAt (fabricAt 4) (pkt 0) (fun d h => (d.exchangeHeld 0 h (line 0)).isNone &&
      decide ((d.exchangeServe 0 h (line 0)).2.status ≠ stMalformed)) = true ∧
    takesAt (fabricAt 4) (pkt 1) (fun d h => (d.exchangeHeld 0 h (line 1)).isNone &&
      decide ((d.exchangeServe 0 h (line 1)).2.status = stMalformed)) = true ∧
    (fabricAt 4).mem.carried = [] ∧ (opened.serve false 0 (packetHeader (packetFrom (headFor ptReadReq vlData) [])) []).2.status = stOk := by
  decide +kernel

/-- A request of partition 0 under tag 3. -/
def asked (t vl : Nat) (again : Option Nat) : Req :=
  { what := .bedWrite 0, p := 0, pkt := packetFrom (headFor t vl) [], sentAt := 0, port := 0, notReadyAt := again }

def asking (t vl : Nat) (again : Option Nat) : Dev := (fabricAt 4).setReq 3 (some (asked t vl again))

theorem wit_answered :
    (∀ x ∈ [(ptWrite, vlData), (ptReadReq, vlData), (ptSignal, vlData), (ptExchange, vlCollective)],
      let pkt := packetFrom (headFor (ackType x.1) x.2) (if x.1 = ptReadReq then line 0 else [])
      takesAt (asking x.1 x.2 none) pkt
        (fun d h => decide (d.answered 0 h = some (asked x.1 x.2 none)) && !unlikeRequest (asked x.1 x.2 none) h) = true ∧
      takesAt (asking x.1 vlReplay none) pkt
        (fun d h => decide (d.answered 0 h = some (asked x.1 vlReplay none)) && unlikeRequest (asked x.1 vlReplay none) h) = true) ∧
    (packetHeader (packetFrom { headFor ptExchangeAck vlCollective with status := stNotReady } [])).status = stNotReady ∧
    (packetHeader (packetFrom (headFor ptExchangeAck vlCollective) [])).status ≠ stNotReady := by decide +kernel

theorem wit_resend :
    (asking ptWrite vlData none).req (3#16).toNat = some (asked ptWrite vlData none) ∧
    (asked ptWrite vlData none).notReadyAt = none ∧
    (asked ptWrite vlData none).sentAt + (asking ptWrite vlData none).get kFabricRespTimeout ≤ 10 ^ 12 ∧
    (asked ptExchange vlCollective (some 0)).notReadyAt = some 0 ∧
    (({ asking ptExchange vlCollective (some 0) with time := 2000 }).pickPort (rotationOf 0 (.bedWrite 0)) 1).isSome = true ∧
    (((asking ptExchange vlCollective (some 0)).put (kPortState 0) 0).pickPort (rotationOf 0 (.bedWrite 0)) 1).isNone = true ∧
    (asked ptWrite vlData none).port ≠ ownPort := by
  decide +kernel

/-- Port 0 with one packet of the DATA lane and `pool` credits. -/
def loaded (pool : Nat) : Port :=
  { Port.fresh with txq := [(vlData, [packetFrom (headFor ptReadReq vlData) []])], pool := pool
                    retry := [(0, packetFrom noHeader [])] }

theorem wit_transmit :
    (fabricAt 4).linked 0 = true ∧ (loaded 1).retraining = false ∧ (loaded 1).wanted = [] ∧ (loaded 1).nextLane = some vlData ∧
    (loaded 0).nextLane = none ∧ (loaded 1).retry.dropWhile (fun y => decide (y.1 ≠ (0#12).toNat)) ≠ [] ∧
    SMap.get 0 ((loaded 1).replayed (loaded 1).retry) (0#12).toNat < 8 ∧ ({ loaded 1 with retraining := true }).retraining = true ∧
    SMap.get [] (loaded 1).txq vlData = packetFrom (headFor ptReadReq vlData) [] :: [] ∧ (loaded 1).stallAt = none ∧
    ({ loaded 1 with stallAt := some 3 }).stallAt = some 3 ∧ creditCost (packetFrom (headFor ptReadReq vlData) []) = 1 ∧
    8 ≤ SMap.get 0 (({ loaded 1 with replays := [(0, 7)] }).replayed (loaded 1).retry) (0#12).toNat ∧ (loaded 1).retrains = [] ∧
    (loaded 1).creditsFor vlData (packetFrom (headFor ptReadReq vlData) []) = true := by decide +kernel

/-- Lane 1 of fibre 0, its spare unused and used; and substitutions asked for. -/
theorem wit_lanes :
    let d := fabricAt 4
    let v := laneField true (d.get (kPortLanes 0))
    let used := d.put (kPortLanes 0) (setLaneField true (d.get (kPortLanes 0)) (setLambdaSub v 0 6))
    let u := laneField true (used.get (kPortLanes 0))
    fibreActive u (faultFibre (.lane 0 1)) = true ∧ spareLeft u (used.faultSeen 0 (.lane 0 1)) = false ∧
    spareLeft u (.lane 0 1) = false ∧ spareLeft v (.lane 0 1) = true ∧ spareLeft v (.fibre 1) = true ∧ lambdaSub u 0 ≠ 0 ∧
    fibreActive v 0 = true ∧ (d.port 0).rxFails = [] ∧ lambdaSub v 0 = 0 ∧ (d.port 0).wanted.contains (.lane 0 1) = false ∧
    ((d.setPort 0 { d.port 0 with wanted := [.lane 0 1, .fibre 0] }).port 0).wanted.contains (.lane 0 1) = true ∧
    ((d.setPort 0 { d.port 0 with wanted := [.lane 0 1, .fibre 0] }).port 0).wanted.contains (.fibre 0) = true ∧
    fibreSub v = 0 ∧ fibreSub (laneField true ((d.put (kPortLanes 0) (setLaneField true 0 (setFld 0 10 9 1))).get (kPortLanes 0))) ≠ 0 ∧
    fibreActive (laneField true ((d.put (kPortLanes 0) (setLaneField true 0 (setFld 0 10 9 1))).get (kPortLanes 0))) 1 = true := by
  decide +kernel

theorem wit_discovery :
    (fabricAt poTraining).portState 0 = poTraining ∧ (fabricAt poDown).portState 0 = poDown ∧
    (fabricAt poDown).get (kPortDisable 0) = 0 ∧
    ((fabricAt poDown).port 0).downAt + 1000000000 ≤ 10 ^ 9 ∧ ((fabricAt poQuiet).port 0).ident = none ∧
    ((fabricAt poQuiet).port 0).lastProbe + 256000000 ≤ 256000000 ∧
    (((fabricAt poQuiet).setPort 0 { Port.fresh with identDue := some 0 }).port 0).identDue = some 0 ∧
    (let d := (fabricAt poQuiet).put kCoordState 1
     { d with fabric := { d.fabric with coords := { d.fabric.coords with planeMask := 1 } } }.planned 0) = true ∧
    ((fabricAt 4).port 0).timeSent = none ∧
    malformedPacket (packetFrom { headFor ptProbe vlManagement with tag := 0 } []) = false ∧
    (∀ x ∈ [(ptProbe, []), (ptIdent, line (2 ^ 136)), (ptTime, line 5)],
      ((fabricAt 4).accept 0 (incoming (packetFrom (headFor x.1 vlManagement) x.2))).2 = some (0, 0)) ∧
    dev0.creditSplit.sum = 8192 ∧ (dev0.put kCreditShared 0).creditSplit.sum ≠ 8192 ∧
    ((fabricAt 4).port 0).waitFrom + (fabricAt 4).get kDiscoveryWait * 1000000 ≤ 10 ^ 12 ∧
    malformedPacket (packetFrom (headFor ptIdent vlManagement) (line (2 ^ 136))) = false ∧
    malformedPacket (packetFrom (headFor ptTime vlManagement) (line 5)) = false := by decide +kernel

/-! Memory. -/

theorem wit_line : (0#22).toNat < positions ∧ dev0.rowMoves 0 0 0 = false ∧ dev0.pc (12 * 0 + 0) = .online ∧
    positions ≤ (3145728#22).toNat ∧ Memory.wf dev0.mem.hbm = true ∧
    (let g := dev0.targetOf (.working 70)
     dev0.pc (12 * g.2.1 + g.1) = .online ∧ 70 < dev0.workingBytes ∧ dev0.blocked (70 / 64 * 64) 64 = false) ∧
    (let g := dev0.targetOf (.place { s := 0, k := 0, pos := 0, acc := 0 })
     dev0.pc (12 * g.2.1 + g.1) = .online ∧ SMap.get none dev0.mem.heldWrites 0 = none) := by decide +kernel

/-- R246: one symbol, two of one pin, two of different pins, and a symbol of the check bytes beside another. -/
theorem test_correctable : correctable [5] = true ∧ correctable [4, 5] = true ∧ correctable [5, 6] = false ∧
    correctable [64, 65] = false := by decide +kernel

theorem wit_channels :
    SMap.get none ({ dev0.mem with remapping := [(rowKey 0 0 0 0, some (0, 1))] }).remapping (rowKey 0 0 0 0) = some (0, 1) ∧
    (dev0.setPc 0 .retraining).pc 0 = .retraining ∧ dev0.time ≤ SMap.get 0 dev0.mem.retrainAt 0 + 40000 ∧
    SMap.get 0 dev0.mem.retrainAt 0 + 40000 ≤ ({ dev0 with time := 40000 }).time ∧ dev0.reliefTaken 0 = false ∧
    (dev0.put (kRelievedPc 0) 5).reliefTaken 0 = true ∧
    SMap.get none ({ dev0.mem with remapping := [(rowKey 0 0 7 12287, some (0, 1))] }).remapping (rowKey 0 0 7 12287) = some (0, 1) ∧
    SMap.get none ({ dev0.mem with reliefWanted := [(0, some 5)] }).reliefWanted 0 = some 5 ∧
    (∀ p : Fin 4, dev0.commitPoint p = true) ∧
    NSet.mem ({ dev0.mem with populating := NSet.add [] 0 }).populating 0 = true ∧
    (dev0.put (kRelievedPc 0) 5).get (kRelievedPc 0) = 5 := by
  decide +kernel

/-- A run of stack 0 over pseudo-channel 2, which ends with its result. -/
theorem wit_tg :
    let d := { dev0.put (kTgChannelMask 0) 4 with mem := { dev0.mem with tgRunning := NSet.add [] 0 } }
    let r : TgResult :=
      { k := 2, errors := 0, failPos := 0, failAcc := 0, failPins := 0, accesses := 9, retries := 0, elapsed := 5 }
    d.tgRuns 0 = true ∧ d.tgChannels 0 = [2] ∧ (∀ k ∈ d.tgChannels 0, ∃ x ∈ [r], x.k.val = k) ∧
    [r].find? (fun x => decide (x.k.val = 2)) = some r := by
  refine ⟨?_, ?_, ?_, ?_⟩
  · decide +kernel
  · decide +kernel
  · have h : ((dev0.put (kTgChannelMask 0) 4).tgChannels 0) = [2] := by decide +kernel
    intro k hk
    refine ⟨_, List.mem_singleton.mpr rfl, ?_⟩
    have : k ∈ [2] := h ▸ hk
    simp only [List.mem_singleton] at this
    subst this
    rfl
  · decide +kernel

/-! The spec's worked examples. -/

/-- Chapter 2, *One value in every format*: 1.0, −2.75, 500.0 and 2^-10. -/
theorem test_formats :
    [Val.fin false 1 0, .fin true 11 (-2), .fin false 500 0, .fin false 1 (-10)].map
      (fun v => [Fmt.fp32, .bf16, .binary16, .e4m3, .e5m2].map (fun f => convert f v)) =
    [[0x3F800000, 0x3F80, 0x3C00, 0x38, 0x3C], [0xC0300000, 0xC030, 0xC180, 0xC3, 0xC2],
     [0x43FA0000, 0x43FA, 0x5FD0, 0x7E, 0x60], [0x3A800000, 0x3A80, 0x1400, 0x00, 0x14]] := by decide +kernel

/-- *A gradient element as a pair*. -/
theorem test_pair : toPair 0x3F808123 = 0x3F81BB7E ∧ pairToFp32 0x3F81BB7E = 0x3F808100 := by decide +kernel

/-- *One pass with three nonzero products*: the lane and the promoted value. -/
theorem test_pass :
    let ps := [(0x3FC0, 0x3FA0), (0x3D80, 0x4040), (0x3A81, 0x3F80)].map
      (fun x => Val.mul (decodeScalar .bf16 x.1) (decodeScalar .bf16 x.2))
    let l := (lanePass Lane.start ps).1
    l.acc = 0x08410 ∧ l.eref = 0 ∧ (promote l { bits := 0, sat := false, ovf := false }).2.bits = 0x40041000 := by decide +kernel

/-- *Promoting a saturated tile*, with N = 2 and with N = 1. -/
theorem test_saturated :
    let p := fun (a : Nat) => List.replicate 64 (Val.mul (decodeScalar .bf16 a) (decodeScalar .bf16 0x3FA0))
    let b0 : Buf := { bits := 0, sat := false, ovf := false }
    (laneRun 2 Lane.start b0 0 [p 0x3FA0, p 0x3F40]).2 = { bits := 0x42FFFFF8, sat := true, ovf := false } ∧
    (laneRun 1 Lane.start b0 0 [p 0x3FA0, p 0x3F40]).2 = { bits := 0x43200000, sat := false, ovf := false } := by decide +kernel

/-- *Scaled conversion to E4M3*: the elements and the tile status word. -/
theorem test_scaled :
    let b := { matmulOf 0 with ofmt := 3, scaleExp := 0xFE, expLo := 0x100, expHi := 255 }
    let es := [0x42200000, 0x447A0000, 0x44FA0000, 0x3B400000, 0x3F800000].map (fun x => drainElem b 0 0 x false)
    es.map Drained.bits = [0x52, 0x78, 0x7E, 0x00, 0x28] ∧
    tswOf es false false false = 0x44FA000000010001 * 2 ^ 64 := by decide +kernel

/-- Chapter 4, *One forward tile*: the eight words of its MATMUL, most significant first. -/
def forwardTile : Nat :=
  pack [(64, 0x07F6000000000000), (64, 0x2800000000300000), (64, 0x3000000008800000), (64, 0x38000), (64, 0x2000000000002000),
        (64, 0x007FFFFFF1110000), (64, 0x0000004100000000), (64, 0x1060200240004020)]

theorem test_matmul_word :
    let h := headerOf forwardTile
    let b := matmulOf forwardTile
    h.opcode = 0x10 ∧ h.cmdSeq = 0x41 ∧ h.waitKind = 1 ∧ h.waitTally = 0x010 ∧ h.waitThresh = 2 ∧ h.sigEn = 1 ∧ h.sigTally = 0x012 ∧
    h.sigCount = 1 ∧ b.kM1 = 0x7FF ∧ b.rowsM1 = 63 ∧ b.colsM1 = 63 ∧ b.faceMask = 15 ∧ b.wfmt = 1 ∧ b.afmt = 1 ∧ b.ofmt = 1 ∧
    b.accSlot = 0 ∧ b.promoteN = 0 ∧ b.wAddr = 0x100000 ∧ b.aAddr = 0 ∧ b.aFstride = 0x1000 ∧ b.preEn = 0 ∧ b.tswAddr = 0x38000 ∧
    b.outAddr = 0x180000 ∧ b.outStride = 8 ∧ b.outOrder = 1 ∧ b.scaleExp = 0 ∧ b.epiAddr = 0x140000 ∧ b.epiStride = 0 ∧ b.epiOp = 1 ∧
    b.epiShape = 2 ∧ b.epiFmt = 0 ∧ b.expHi = 15 ∧ b.expLo = 0x1D8 := by decide +kernel

/-- Chapter 8, *The last packet of a guarded remote write*. -/
theorem test_packet_header :
    packetBits { noHeader with
      dstChip := 0x02B7, srcChip := 0x01A4, mpart := 0x0031, epoch := 0x102, ptype := 1, vl := 0, plane := 6, tag := 0x0A3C
      linesM1 := 63, guard := 1, guardTally := 0x010, guardCount := 1, offset := 0x08000000 } =
    pack [(64, 0x02B701A400310000), (64, 0x01020460A3CFD010), (64, 0x0100000008000000), (64, 0)] := by decide +kernel

/-- Chapter 8: such a packet costs 65 credits. -/
theorem test_credits : creditCost { hdr := 0, payload := List.replicate 4096 0 } = 65 := by decide +kernel

/-- Chapter 9, *Screening eight elements in TOPK_SIGN*: the values e, the elements kept and those sent. -/
theorem test_screen :
    let gs := [0x3F00, 0xBD80, 0x3FC0, 0x3E40, 0xC000, 0, 0x3EC0, 0xBE80].map (fun h => h * 2 ^ 16)
    let fs := [0x3E000000, 0, 0xBF000000, 0x3D800000, 0x3E800000, 0xBD000000, 0x3EC00000, 0]
    let es := (gs.zip fs).map (fun x => screenSum x.1 x.2)
    es = [0x3F200000, 0xBD800000, 0x3F800000, 0x3E800000, 0xBFE00000, 0xBD000000, 0x3F400000, 0xBE800000] ∧
    (keptOf 0x4000 (es.zipIdx.map (fun x => (x.2, x.1)))).map Prod.fst = [4, 2] ∧
    es.zipIdx.map (fun x => sentValue 3 0x3E800000 x.1 ([2, 4].contains x.2)) =
      [0x3E800000, 0xBE800000, 0x3F800000, 0x3E800000, 0xBFE00000, 0xBE800000, 0x3E800000, 0xBE800000] := by decide +kernel

/-- Chapter 9, *The loss scale over four outcomes*. -/
theorem test_loss_scale : lossScale 16 = 0x47800000 ∧ lossScale 15 = 0x47000000 := by decide +kernel

/-- Chapter 13, *A segmented read of a tally map*: nine segments, the last of them with 4 bytes. -/
theorem test_segments :
    segCount viaNet false 8192 = 9 ∧
    ([0, 1, 8].map (fun k => (segPart viaNet { reading0 with data := List.replicate 8192 0, length := 8192 } k).length)) =
      [1024, 1024, 4] := by
  decide +kernel

/-- Chapter 13, *A refused shift request*: the ABORT that the controller gets, and the header of the answer had it been taken. -/
theorem test_refused_shift :
    nextIs (.suspend (.clelliul client0 0xC1 1 0 0x0133 false) 0 2 true) (on ((part0 psQuiescing).put kT1sState 2))
      (fun t => decide (t.dev.mgmt.out =
        [.t1s client0 (0xC112020133201001 * 2 ^ 64 + 0x0004000000000000) [0x03, 0x00, 0x02, 0x04]])) = true ∧
    clHeader 1 2 0x0133 0x2010 1 0 0 0 false false = 0xC111020133201001 * 2 ^ 64 := by decide +kernel

end Sys2Proof.Tests
end

section
/-! SUPPORT. Idling, and what a step can do to the fuses: the fuses after it are those before it, or those before it with more of
them blown. -/

namespace Sys2Proof.Machine

/-! Module time (R18, R315). -/

theorem step_idle {s : State} (h : s.pending = []) : step s = .next s.tick := by
  unfold step; rw [h]

theorem step_front {s : State} {c : Instr} {rest : List Instr} (h : s.pending = c :: rest) :
    step s = exec c { s with pending := rest } := by
  unfold step; rw [h]

theorem State.tick_powered {s : State} (h : s.dev.powered = true) :
    s.tick = { s with dev := { s.dev with
      time := (s.dev.time + slewStep s.dev.fabric.slew) % 2 ^ 64
      fabric := { s.dev.fabric with slew := slewLeft s.dev.fabric.slew } } } := by
  unfold State.tick; rw [if_pos h]

theorem State.tick_off {s : State} (h : s.dev.powered = false) : s.tick = s := by simp [State.tick, h]

@[simp] theorem State.tick_fuses (s : State) : s.tick.fuses = s.fuses := by
  unfold State.tick; split <;> rfl

theorem slew_zero : slewStep 0 = 1 ∧ slewLeft 0 = 0 := ⟨rfl, rfl⟩

theorem slew_ahead {i : Int} (h : 0 < i) : slewStep i = 2 ∧ slewLeft i = i - 1 := by simp [slewStep, slewLeft, h]

theorem slew_behind {i : Int} (h : i < 0) : slewStep i = 0 ∧ slewLeft i = i + 1 := by
  simp [slewStep, slewLeft, h, Int.not_lt.mpr h.le]

/-! Bits that are blown. -/

theorem BitsKept.refl (a : Nat) : BitsKept a a := fun _ h => h

theorem BitsKept.trans {a b c : Nat} (h : BitsKept a b) (h' : BitsKept b c) : BitsKept a c := fun i hi => h' i (h i hi)

/-- Blowing more bits of a word keeps those that are blown. -/
theorem BitsKept.or (a b : Nat) : BitsKept a (a ||| b) := fun i h => by simp [Nat.testBit_or, h]

theorem Fuses.Onward.refl (f : Fuses) : f.Onward f :=
  ⟨le_rfl, .refl _, .refl _, le_rfl, rfl, rfl, rfl, rfl⟩

theorem Fuses.Onward.trans {f g h : Fuses} (hg : f.Onward g) (hh : g.Onward h) : f.Onward h := by
  obtain ⟨floor, keys, levels, refuses, serial, hw, seed, digests⟩ := hg
  obtain ⟨floor', keys', levels', refuses', serial', hw', seed', digests'⟩ := hh
  exact ⟨floor.trans floor', keys.trans keys', levels.trans levels', refuses.trans refuses', serial.trans serial',
    hw.trans hw', seed.trans seed', digests.trans digests'⟩

/-- Fuses in their ranges may become `g`: nothing goes back and every range is kept. The ranges are needed for the first: the
count of re-fuses stops at 255 (R514), so it would fall from anywhere above. -/
def Fuses.MayBecome (f g : Fuses) : Prop := f.Legal → f.Onward g ∧ g.Legal

theorem Fuses.MayBecome.refl (f : Fuses) : f.MayBecome f := fun h => ⟨.refl f, h⟩

theorem Fuses.MayBecome.of_eq {f g : Fuses} (h : g = f) : f.MayBecome g := h ▸ .refl f

theorem Fuses.MayBecome.trans {f g h : Fuses} (hg : f.MayBecome g) (hh : g.MayBecome h) : f.MayBecome h := fun hf =>
  have ⟨onward, legal⟩ := hg hf
  have ⟨onward', legal'⟩ := hh legal
  ⟨onward.trans onward', legal'⟩

/-! What blows fuses: FW_CONFIRM, and the armed token at the end of a module reset. -/

theorem imageDescOf_revoke_lt (w : Nat) : (imageDescOf w).revoke < 2 ^ 4 := fld_lt_two_pow w 351 348

theorem tokenOf_levelsAdd_lt (w : Nat) : (tokenOf w).levelsAdd < 2 ^ 32 := fld_lt_two_pow w 447 416

/-- A confirmation raises the floor to 128 at most (log 68) and revokes keys of the four slots (R504, R508). -/
theorem Dev.confirm_fuses (d : Dev) (f : Fuses) : f.MayBecome (d.confirm f).1 := by
  rintro ⟨floor, keys, levels, refuses, faces⟩
  have keys' : f.keysRevoked ||| (imageDescOf d.sec.runningDesc).revoke < 2 ^ 4 :=
    Nat.or_lt_two_pow keys (imageDescOf_revoke_lt _)
  exact ⟨⟨le_max_left _ _, .or _ _, .refl _, le_rfl, rfl, rfl, rfl, rfl⟩,
    max_le floor (min_le_right _ _), keys', levels, refuses, faces⟩

/-- A repair blows bits of its face's entry alone. -/
theorem Fuses.repair_mayBecome (f : Fuses) (x : Repair) : f.MayBecome (f.repair x) := by
  unfold Fuses.repair
  split
  · exact .refl f
  · rintro ⟨floor, keys, levels, refuses, faces⟩
    exact ⟨⟨le_rfl, .refl _, .refl _, le_rfl, rfl, rfl, rfl, rfl⟩, floor, keys, levels, refuses, SMap.wf_set _ _ faces⟩

theorem Fuses.foldl_repair_mayBecome (xs : List Repair) (f : Fuses) : f.MayBecome (xs.foldl Fuses.repair f) := by
  induction xs generalizing f with
  | nil => exact .refl f
  | cons x xs ih => exact (f.repair_mayBecome x).trans (ih _)

/-- Level bits are added and the re-fuse is counted (R514). -/
theorem Fuses.count_refuse_mayBecome (f : Fuses) {levelsAdd : Nat} (h : levelsAdd < 2 ^ 32) :
    f.MayBecome { f with levels := f.levels ||| levelsAdd, refuses := min (f.refuses + 1) 255 } := by
  rintro ⟨floor, keys, levels, refuses, faces⟩
  exact ⟨⟨le_rfl, .refl _, .or _ _, le_min (Nat.le_succ _) refuses, rfl, rfl, rfl, rfl⟩,
    floor, keys, Nat.or_lt_two_pow levels h, min_le_right _ _, faces⟩

theorem Dev.applyToken_fuses (d : Dev) (f : Fuses) : f.MayBecome (d.applyToken f).1 := by
  unfold Dev.applyToken
  split
  · exact .refl f
  · next w _ => exact (Fuses.foldl_repair_mayBecome _ f).trans (Fuses.count_refuse_mayBecome _ (tokenOf_levelsAdd_lt w))

theorem Dev.resetDone_fuses (f : Fuses) (d : Dev) : f.MayBecome (Dev.resetDone f d).1 := by
  unfold Dev.resetDone
  split
  · exact .refl f
  · split
    · exact .refl f
    · dsimp only
      split
      · exact Dev.applyToken_fuses _ f
      · exact .refl f

/-! Writes: of what the dictionary serves, an accepted write alone can blow fuses. -/

theorem Dev.applyWrite_fuses (d : Dev) (f : Fuses) (i s : Nat) (bs : List Byte) : f.MayBecome (d.applyWrite f i s bs).1 := by
  unfold Dev.applyWrite
  split
  · exact d.confirm_fuses f
  · exact .refl f

theorem Dev.write_fuses (d : Dev) (f : Fuses) (host : Bool) (i s : Nat) (bs : List Byte) :
    f.MayBecome (d.write f host i s bs).2.1 := by
  unfold Dev.write
  split
  · exact .refl f
  · exact d.applyWrite_fuses f i s bs

theorem Dev.workWrite_fuses (f : Fuses) (o : Origin) (i s : Nat) (bs : List Byte) (d : Dev) :
    f.MayBecome (Dev.workWrite f o i s bs d).2.1 := by
  unfold Dev.workWrite
  dsimp only
  split <;> exact d.write_fuses f _ i s bs

theorem Dev.workBulk_fuses (f : Fuses) (o : Origin) (i s : Nat) (bs : List Byte) (d : Dev) :
    f.MayBecome (Dev.workBulk f o i s bs d).2.1 := by
  unfold Dev.workBulk
  split
  · exact .refl f
  · split
    · exact .refl f
    · exact Dev.workWrite_fuses f o i s bs _

theorem Dev.finishWrite_fuses (d : Dev) (f : Fuses) (o : Origin) (t : Transfer) (v : List Byte) :
    f.MayBecome (d.finishWrite f o t v).2.1 := by
  unfold Dev.finishWrite
  split
  · exact .refl f
  · split
    · exact .refl f
    · dsimp only
      split <;> exact d.write_fuses f _ _ _ v

theorem Dev.workWriteSeg_fuses (f : Fuses) (o : Origin) (id segment : Nat) (last : Bool) (bs : List Byte) (d : Dev) :
    f.MayBecome (Dev.workWriteSeg f o id segment last bs d).2.1 := by
  unfold Dev.workWriteSeg
  split
  · exact .refl f
  · dsimp only
    split
    · exact .refl f
    · split
      · exact .refl f
      · split
        · exact .refl f
        · exact Dev.finishWrite_fuses _ f o _ _

/-- A served request does to the fuses what its work does, and nothing where it is not worked on. -/
theorem Dev.serveReq_fuses (d : Dev) (f : Fuses) (o : Origin) (rq : DictReq) (work : Dev → DictReply × Fuses × Dev)
    (hw : ∀ e, f.MayBecome (work e).2.1) : f.MayBecome (d.serveReq f o rq work).1 := by
  unfold Dev.serveReq
  split
  · exact .refl f
  · split
    · exact hw _
    · exact .refl f

theorem Dev.serveWrite_fuses (d : Dev) (f : Fuses) (o : Origin) (i s : Nat) (bs : List Byte) :
    f.MayBecome (d.serveWrite f o i s bs).1 := by
  unfold Dev.serveWrite
  dsimp only
  split
  · exact d.serveReq_fuses f o _ _ (Dev.workWrite_fuses f o i s bs)
  · exact d.serveReq_fuses f o _ _ (Dev.workBulk_fuses f o i s bs)

/-! Lifts. -/

theorem onFused_fuses {f : Fuses → Dev → Dev} {s t : State} (h : onFused f s = .next t) : t.fuses = s.fuses := by
  unfold onFused at h; cases h; split <;> rfl

theorem onDev_fuses {f : Dev → Dev} {s t : State} (h : onDev f s = .next t) : t.fuses = s.fuses :=
  onFused_fuses (f := fun _ => f) h

theorem onDieFused_fuses {f : Fuses → Dev → Dev} {s t : State} (h : onDieFused f s = .next t) : t.fuses = s.fuses := by
  unfold onDieFused at h; cases h; split <;> rfl

theorem onDie_fuses {f : Dev → Dev} {s t : State} (h : onDie f s = .next t) : t.fuses = s.fuses :=
  onDieFused_fuses (f := fun _ => f) h

theorem onAll_fuses {F : Fuses → Dev → Fuses × Dev} {s t : State} (hF : ∀ f d, Fuses.MayBecome f (F f d).1)
    (h : onAll F s = .next t) : s.fuses.MayBecome t.fuses := by
  unfold onAll at h
  cases h
  split
  · exact hF _ _
  · exact .refl _

/-- Whatever a command does, no fuse goes back and none leaves its range. -/
theorem exec_fuses (c : Instr) {s t : State} (h : exec c s = .next t) : s.fuses.MayBecome t.fuses := by
  cases exec_shape c with
  | dev f hc => exact .of_eq (onDev_fuses ((hc s).symm.trans h))
  | fused f hc => exact .of_eq (onFused_fuses ((hc s).symm.trans h))
  | die f hc => exact .of_eq (onDie_fuses ((hc s).symm.trans h))
  | dieFused f hc => exact .of_eq (onDieFused_fuses ((hc s).symm.trans h))
  | write o k bs hc => exact onAll_fuses (fun f d => d.serveWrite_fuses f o _ _ (bs d)) ((hc s).symm.trans h)
  | request o rq w hw hc =>
    exact onAll_fuses (fun f d => d.serveReq_fuses f o rq (w f) fun e => .of_eq (hw f e)) ((hc s).symm.trans h)
  | writeSeg o x g l bs hc =>
    subst hc
    rw [exec_writeSeg] at h
    exact onAll_fuses (fun f d => d.serveReq_fuses f o _ _ (Dev.workWriteSeg_fuses f o _ _ l bs)) h
  | reset hc => subst hc; exact onAll_fuses Dev.resetDone_fuses h
  | power x hc => subst hc; cases h; exact .refl _
  | access pos f hc =>
    rw [hc] at h
    split at h
    · cases h
    · exact .of_eq (onDie_fuses h)

/-- Whatever step the block takes, no fuse goes back and none leaves its range. -/
theorem step_fuses {s t : State} (h : step s = .next t) : s.fuses.MayBecome t.fuses := by
  cases hq : s.pending with
  | nil =>
    rw [step_idle hq] at h
    cases h
    exact .of_eq s.tick_fuses
  | cons c rest =>
    rw [step_front hq] at h
    exact exec_fuses (s := { s with pending := rest }) c h

end Sys2Proof.Machine

open Sys2Proof Sys2Proof.Machine

/-- Settles O5: the fuses after a step are those before it with more of them blown. -/
theorem fusesNeverGoBack : Obligations.FusesNeverGoBack := fun _ _ inv h => (step_fuses h inv).1

/-- Settles O6: what blows fuses keeps them in their ranges, and every other step leaves them alone. -/
theorem stepKeepsInv : Obligations.StepKeepsInv := fun _ _ inv h => (step_fuses h inv).2

/-- Settles O2: an idle step is the tick, case by case over the correction that is being slewed in. -/
theorem stepIdles : Obligations.StepIdles := by
  unfold Obligations.StepIdles
  refine ⟨fun s hq hp hs => ?_, fun s hq hp hs => ?_, fun s hq hp hs => ?_, fun s hq hp => ?_⟩
  · obtain ⟨hstep, hleft⟩ := slew_zero
    rw [step_idle hq, State.tick_powered hp, hs, hstep, hleft, ← hs]
  · obtain ⟨hstep, hleft⟩ := slew_ahead hs
    rw [step_idle hq, State.tick_powered hp, hstep, hleft]
  · obtain ⟨hstep, hleft⟩ := slew_behind hs
    rw [step_idle hq, State.tick_powered hp, hstep, hleft, Nat.add_zero]
  · rw [step_idle hq, State.tick_off hp]
end

section
/-! SUPPORT. One instruction of the vector unit: what each operation on registers leaves of the module, and when a row of
*Vector operations* has it executed. -/

namespace Sys2Proof.Machine

/-! The operations on registers (R70 to R73, R154, R555). -/

section
variable (d : Dev) (w : Option Where) (pl unit addr : Nat) {x : VectorInstr}

theorem Dev.vexec_arithmetic (h : vopAdd ≤ x.vop ∧ x.vop ≤ vopRsqrt) : d.vexec w pl unit x addr =
    d.setVreg pl x.vd (mergeLanes (laneOn x.maskEn (d.vmaskReg pl x.vmask)) (d.vreg pl x.vd)
      (vArith ((Fmt.ofCode x.vfmt).getD .fp32) x.vop (d.vreg pl x.va) (d.vreg pl x.vb) (d.vreg pl x.vc))) := by
  have hne : ∀ n, n < vopAdd ∨ vopRsqrt < n → x.vop ≠ n := by omega
  simp [Dev.vexec, hne, vopAdd, vopRsqrt, vopNopCode, vopLd, vopSt, vopBcast, vopCvt, vopMerge, vopJoin, vopSplit, vopCmpLt,
    vopCmpEq, vopNonfinite, vopRedAdd]

theorem Dev.vexec_cvt (h : x.vop = vopCvt) : d.vexec w pl unit x addr =
    d.setVreg pl x.vd (putPart ((Fmt.ofCode x.vfmt).getD .fp32).bits x.pd (laneOn x.maskEn (d.vmaskReg pl x.vmask))
      (d.vreg pl x.vd) ((getPart ((Fmt.ofCode x.vb).getD .fp32).bits x.ps (d.vreg pl x.va)).map
        (cvtElem ((Fmt.ofCode x.vb).getD .fp32) ((Fmt.ofCode x.vfmt).getD .fp32) (signed 8 x.vscale)))) := by
  rw [Dev.vexec, h]; rfl

theorem Dev.vexec_merge (h : x.vop = vopMerge) : d.vexec w pl unit x addr =
    d.setVreg pl x.vd (mergeLanes (bit (d.vmaskReg pl x.vmask)) (d.vreg pl x.vb) (d.vreg pl x.va)) := by
  rw [Dev.vexec, h]; rfl

theorem Dev.vexec_join (h : x.vop = vopJoin) : d.vexec w pl unit x addr =
    d.setVreg pl x.vd (mergeLanes (laneOn x.maskEn (d.vmaskReg pl x.vmask)) (d.vreg pl x.vd)
      ((List.zip (getPart 16 x.ps (d.vreg pl x.va)) (getPart 16 x.ps (d.vreg pl x.vb))).map
        (fun e => BitVec.ofNat 32 (e.1 * 2 ^ 16 + e.2)))) := by
  rw [Dev.vexec, h]; rfl

/-- The low halves are put into VC as the write of VD left it. -/
theorem Dev.vexec_split (h : x.vop = vopSplit) : d.vexec w pl unit x addr =
    let on := laneOn x.maskEn (d.vmaskReg pl x.vmask)
    let a := d.vreg pl x.va
    let e := d.setVreg pl x.vd (putPart 16 x.pd on (d.vreg pl x.vd) (a.map (fun w => w.toNat / 2 ^ 16)))
    e.setVreg pl x.vc (putPart 16 x.pd on (e.vreg pl x.vc) (a.map (fun w => w.toNat % 2 ^ 16))) := by
  rw [Dev.vexec, h]; rfl

theorem Dev.vexec_cmpLt (h : x.vop = vopCmpLt) : d.vexec w pl unit x addr =
    let f := (Fmt.ofCode x.vfmt).getD .fp32
    d.setVmask pl x.vd (mergeMask (laneOn x.maskEn (d.vmaskReg pl x.vmask)) (d.vmaskReg pl x.vd)
      (laneTest f (fun p q => Val.lt (decodeScalar f p) (decodeScalar f q)) (d.vreg pl x.va) (d.vreg pl x.vb))) := by
  rw [Dev.vexec, h]; rfl

theorem Dev.vexec_cmpEq (h : x.vop = vopCmpEq) : d.vexec w pl unit x addr =
    let f := (Fmt.ofCode x.vfmt).getD .fp32
    d.setVmask pl x.vd (mergeMask (laneOn x.maskEn (d.vmaskReg pl x.vmask)) (d.vmaskReg pl x.vd)
      (laneTest f (fun p q => Val.eq (decodeScalar f p) (decodeScalar f q)) (d.vreg pl x.va) (d.vreg pl x.vb))) := by
  rw [Dev.vexec, h]; rfl

theorem Dev.vexec_nonfinite (h : x.vop = vopNonfinite) : d.vexec w pl unit x addr =
    let f := (Fmt.ofCode x.vfmt).getD .fp32
    d.setVmask pl x.vd (mergeMask (laneOn x.maskEn (d.vmaskReg pl x.vmask)) (d.vmaskReg pl x.vd)
      (laneTest f (fun p _ => !(decodeScalar f p).isFinite) (d.vreg pl x.va) (d.vreg pl x.va))) := by
  rw [Dev.vexec, h]; rfl

theorem Dev.vexec_redAdd (h : x.vop = vopRedAdd) : d.vexec w pl unit x addr =
    d.setVreg pl x.vd (BitVec.ofNat 32 (redAdd ((Fmt.ofCode x.vfmt).getD .fp32) (laneOn x.maskEn (d.vmaskReg pl x.vmask))
      (d.vreg pl x.va)) :: List.replicate (lanes - 1) 0#32) := by
  rw [Dev.vexec, h]; rfl

end

/-! The rows. -/

section
variable {s : State} {vop : Nat} {b : Fin 96} {o : VOperands}

/-- A malformed instruction, and one on a bench out of use, is not executed (R116, log 84). -/
theorem vopRow_skipped (hl : s.dev.live = true) (h : vinstrOffences [] (vinstrFor vop o) ≠ [] ∨ s.dev.outOfUse b = true) :
    vopRow vop b o s = .next s := by
  have hno : ¬ (vinstrOffences [] (vinstrFor vop o) = [] ∧ s.dev.outOfUse b = false) := by
    rintro ⟨hw, hu⟩
    exact h.elim (· hw) (by simp [hu])
  rw [vopRow_die, onDie_live _ hl, if_neg hno]

/-- A well-formed instruction on a bench in use is executed; this is the form for one whose effect `e` does not turn on the
tenant that a consumption of poison would be charged to. -/
theorem vopRow_runs (hl : s.dev.live = true) (hu : s.dev.outOfUse b = false) (hw : vinstrOffences [] (vinstrFor vop o) = [])
    {e : Dev} (he : ∀ w unit, s.dev.vexec w b unit (vinstrFor vop o) (vinstrFor vop o).vaddr = e) :
    vopRow vop b o s = .next (s.withDev e) := by
  rw [vopRow_die, onDie_live _ hl, if_pos ⟨hw, hu⟩, he]
  rfl

end

/-- Every row of R154 is the instruction of its code. -/
theorem exec_vectorRow {x : Nat × (Fin 96 → VOperands → Instr)} (hx : x ∈ vectorRows) (b : Fin 96) (o : VOperands) (s : State) :
    exec (x.2 b o) s = vopRow x.1 b o s := by
  simp only [vectorRows, arithmeticRows, List.cons_append, List.nil_append] at hx
  fin_cases hx <;> rfl

/-- The element-wise rows are those from ADD to RSQRT. -/
theorem arithmeticRows_codes : ∀ x ∈ arithmeticRows, vopAdd ≤ x.1 ∧ x.1 ≤ vopRsqrt := by decide

end Sys2Proof.Machine

open Sys2Proof Sys2Proof.Machine

/-- Settles O46: every row is the instruction of its code, and the codes from ADD to RSQRT are the element-wise ones. -/
theorem vectorArithmetic : Obligations.VectorArithmetic := by
  unfold Obligations.VectorArithmetic
  refine ⟨fun x hx s b o hl h => ?_, fun x hx s b o hl hu hw => ?_⟩
  · rw [exec_vectorRow hx, vopRow_skipped hl h]
  · rw [exec_vectorRow (List.mem_append_left _ hx)]
    exact vopRow_runs hl hu hw fun w unit => s.dev.vexec_arithmetic w b unit _ (arithmeticRows_codes x hx)

/-- Settles O49: code by code, a well-formed instruction on a bench in use is executed, and has the effect of its operation. -/
theorem vectorMovesAndTests : Obligations.VectorMovesAndTests := by
  unfold Obligations.VectorMovesAndTests
  refine ⟨fun s b o hl hu => ⟨fun hw => ?cvt, fun hw => ?merge, fun hw => ?join, fun hw => ?split⟩,
    fun s b o hl hu => ⟨fun hw => ?cmpLt, fun hw => ?cmpEq, fun hw => ?nonfinite, fun hw => ?redAdd⟩⟩
  case cvt => exact vopRow_runs hl hu hw fun w unit => s.dev.vexec_cvt w b unit _ rfl
  case merge => exact vopRow_runs hl hu hw fun w unit => s.dev.vexec_merge w b unit _ rfl
  case join => exact vopRow_runs hl hu hw fun w unit => s.dev.vexec_join w b unit _ rfl
  case split => exact vopRow_runs hl hu hw fun w unit => s.dev.vexec_split w b unit _ rfl
  case cmpLt => exact vopRow_runs hl hu hw fun w unit => s.dev.vexec_cmpLt w b unit _ rfl
  case cmpEq => exact vopRow_runs hl hu hw fun w unit => s.dev.vexec_cmpEq w b unit _ rfl
  case nonfinite => exact vopRow_runs hl hu hw fun w unit => s.dev.vexec_nonfinite w b unit _ rfl
  case redAdd => exact vopRow_runs hl hu hw fun w unit => s.dev.vexec_redAdd w b unit _ rfl
end

section
/-! SUPPORT. Benches, conveyors and ramps: what a tile about to drain does in each of its states, what a returned credit writes,
and what a unit's activity is after it is set. -/

namespace Sys2Proof.Machine

/-! Tiles (R88, R97 to R107). -/

section
variable {d : Dev} {pl i : Nat} {c : Cmd}

theorem Dev.tileDrained_notOldest (h : d.isOldest pl i = false) : d.tileDrained pl i = d := by
  cases hc : (d.slot pl i).cmd with
  | none => simp [Dev.tileDrained, hc]
  | some c => simp [Dev.tileDrained, hc, h]

theorem Dev.tileDrained_drain (hc : (d.slot pl i).cmd = some c) (ho : d.isOldest pl i = true)
    (hs : (d.slot pl i).state = .drain) : d.tileDrained pl i = d.drainSlot pl i c := by
  simp [Dev.tileDrained, hc, ho, hs]

theorem Dev.tileDrained_held (hc : (d.slot pl i).cmd = some c) (ho : d.isOldest pl i = true)
    (hs : (d.slot pl i).state = .held) (ha : d.sumArrived pl (matmulOf c.word) = true)
    (hn : d.strayTile pl i (matmulOf c.word) = none) :
    d.tileDrained pl i = (d.takeSum pl i c).drainSlot pl i c := by
  simp [Dev.tileDrained, hc, ho, hs, ha, hn]

theorem Dev.drainSlot_written (h1 : (matmulOf c.word).convPos ≠ 1) (h2 : (matmulOf c.word).convPos ≠ 2) :
    d.drainSlot pl i c = (d.drainTile pl (d.slot pl i) c).tileEnd pl c := if_neg (by simp [h1, h2])

theorem Dev.drainSlot_sent (h : (matmulOf c.word).convPos = 1 ∨ (matmulOf c.word).convPos = 2) (hs : d.canSend c = true) :
    d.drainSlot pl i c = (d.sendTile pl (d.slot pl i) c).tileEnd pl c := (if_pos h).trans (if_pos hs)

theorem Dev.drainSlot_waits (h : (matmulOf c.word).convPos = 1 ∨ (matmulOf c.word).convPos = 2) (hs : d.canSend c = false) :
    d.drainSlot pl i c = d := (if_pos h).trans (if_neg (by simp [hs]))

end

/-! Conveyors (R102 to R104). -/

@[simp] theorem Dev.convCredits_setConvCredits (d : Dev) (p l f v : Nat) : (d.setConvCredits p l f v).convCredits p l f = v :=
  SMap.get_set_self _ _ (4 * logicalKey p l + f) v

theorem Dev.conveyorSegment_found {d : Dev} {b : Nat} {x : ConvSeg}
    (h : d.benches.convFlight.find? (fun y => d.hosts b y.dst) = some x) : d.conveyorSegment b =
      Dev.segmentArrives { d with benches := { d.benches with convFlight := d.benches.convFlight.erase x } } x := by
  unfold Dev.conveyorSegment
  rw [h]

/-- The credit leaves the flight and is counted; counting it reads no flight. -/
theorem Dev.conveyorCredit_found {d : Dev} {b f : Nat} {x : Nat × Nat}
    (h : d.benches.creditFlight.find? (fun y => d.hosts b y.1 && decide (y.2 = f)) = some x) : d.conveyorCredit b f =
      Dev.setConvCredits { d with benches := { d.benches with creditFlight := d.benches.creditFlight.erase x } }
        (x.1 / 96) (x.1 % 96) f (min 2 (d.convCredits (x.1 / 96) (x.1 % 96) f + 1)) := by
  unfold Dev.conveyorCredit
  rw [h]
  rfl

/-! The activity of a bench's units (R91 to R96). -/

section
variable (d : Dev) (pl : Nat) (w : ActUnit) (a : Act)

theorem Dev.bench_setBench_ne {pl j : Nat} (x : Bench) (h : j ≠ pl) : (d.setBench pl x).bench j = d.bench j :=
  SMap.get_set_ne _ _ x h

@[simp] theorem Dev.act_setAct : (d.setAct pl w a).act pl w = a := by
  cases w <;> simp [Dev.act, Dev.setAct]

/-- The other units of the bench and the units of other benches are as they were. -/
theorem Dev.act_setAct_ne {pl j : Nat} {w v : ActUnit} (h : (j, v) ≠ (pl, w)) : (d.setAct pl w a).act j v = d.act j v := by
  by_cases hj : j = pl
  · subst hj
    have hv : v ≠ w := fun e => h (by rw [e])
    cases w <;> cases v <;> simp [Dev.act, Dev.setAct] at hv ⊢
  · cases w <;> cases v <;> simp only [Dev.act, Dev.setAct, d.bench_setBench_ne _ hj]

@[simp] theorem Dev.matQ_setAct : ((d.setAct pl w a).bench pl).matQ = (d.bench pl).matQ := by cases w <;> simp [Dev.setAct]
@[simp] theorem Dev.vecQ_setAct : ((d.setAct pl w a).bench pl).vecQ = (d.bench pl).vecQ := by cases w <;> simp [Dev.setAct]
@[simp] theorem Dev.setAct_slots : (d.setAct pl w a).benches.slots = d.benches.slots := by cases w <;> rfl
@[simp] theorem Dev.setAct_store : (d.setAct pl w a).benches.store = d.benches.store := by cases w <;> rfl

/-- Nothing but the benches is written. -/
theorem Dev.setAct_frame : { d.setAct pl w a with benches := d.benches } = d := by cases w <;> rfl

@[simp] theorem Dev.setAct_dict : (d.setAct pl w a).dict = d.dict := by cases w <;> rfl
@[simp] theorem Dev.setAct_mem : (d.setAct pl w a).mem = d.mem := by cases w <;> rfl
@[simp] theorem Dev.setAct_seqs : (d.setAct pl w a).seqs = d.seqs := by cases w <;> rfl
@[simp] theorem Dev.setAct_tallies : (d.setAct pl w a).tallies = d.tallies := by cases w <;> rfl
@[simp] theorem Dev.setAct_haul : (d.setAct pl w a).haul = d.haul := by cases w <;> rfl
@[simp] theorem Dev.setAct_fabric : (d.setAct pl w a).fabric = d.fabric := by cases w <;> rfl

@[simp] theorem Dev.get_setAct (k : Nat) : (d.setAct pl w a).get k = d.get k := Dev.get_congr (d.setAct_dict pl w a) k

@[simp] theorem Dev.act_bump (k n : Nat) : (d.bump k n).act pl w = d.act pl w := by cases w <;> rfl

end

/-! A bench with no command at the head of its queues. -/

section
variable {d : Dev} {pl : Nat}

theorem Dev.wake_of_not_headed {w : ActUnit} (h : d.headed pl w = false) : d.wake pl w = d := by simp [Dev.wake, h]

theorem Dev.kickMatrix_of_empty (n : Nat) (h : (d.bench pl).matQ = []) : Dev.kickMatrix n d pl = d := by
  cases n with
  | zero => rfl
  | succ n =>
    have hw : d.wake pl .faces = d := Dev.wake_of_not_headed (by simp [Dev.headed, h])
    have hr : d.matrixReady pl = none := by simp [Dev.matrixReady, h]
    simp only [Dev.kickMatrix, hw, hr]

theorem Dev.kickVector_of_empty (n : Nat) (h : (d.bench pl).vecQ = []) : Dev.kickVector n d pl = d := by
  cases n with
  | zero => rfl
  | succ n =>
    have hw : d.wake pl .vector = d := Dev.wake_of_not_headed (by simp [Dev.headed, h])
    have hr : d.vectorReady pl = none := by simp [Dev.vectorReady, h]
    simp only [Dev.kickVector, hw, hr]

theorem Dev.kickBench_of_empty (hm : (d.bench pl).matQ = []) (hv : (d.bench pl).vecQ = []) : d.kickBench pl = d := by
  rw [Dev.kickBench, Dev.kickMatrix_of_empty 5 hm, Dev.kickVector_of_empty 5 hv]

end

/-! Ramps (R93, R94). -/

theorem Dev.rampDown_fill {d : Dev} {pl : Nat} {w : ActUnit} (hf : (d.act pl w).state = .fill) (hh : d.headed pl w = false) :
    d.rampDown pl w = (d.setAct pl w { d.act pl w with state := .rampDown }).bump kRampDownEvents 1 := if_pos ⟨hf, hh⟩

section
variable {a : Act}

theorem Act.ramp_down (hs : a.state = .rampDown) (hl : 1 < a.level) : a.ramp = { state := .rampDown, level := a.level - 1 } := by
  simp [Act.ramp, hs, Nat.not_le.mpr hl]

theorem Act.ramp_down_last (hs : a.state = .rampDown) (hl : a.level ≤ 1) : a.ramp = { state := .resting, level := 0 } := by
  simp [Act.ramp, hs, hl]

theorem Act.ramp_up (hs : a.state = .rampUp) (hl : a.level < 7) : a.ramp = { state := .rampUp, level := a.level + 1 } := by
  simp [Act.ramp, hs, Nat.not_le.mpr hl]

theorem Act.ramp_up_last (hs : a.state = .rampUp) (hl : 7 ≤ a.level) : a.ramp = { state := .fill, level := 8 } := by
  simp [Act.ramp, hs, hl]

end

/-! The rows, on dies that run. -/

section
variable {s : State} (b : Fin 96) (hl : s.dev.live = true)
include hl

theorem exec_tileDrained_live (i : Fin 8) : exec (.tileDrained b i) s = .next { s with dev := s.dev.tileDrained b i } :=
  onDie_live (fun d => d.tileDrained b i) hl

theorem exec_conveyorSegment_live : exec (.conveyorSegment b) s = .next { s with dev := s.dev.conveyorSegment b } :=
  onDie_live (fun d => d.conveyorSegment b) hl

theorem exec_conveyorCredit_live (f : Fin 4) : exec (.conveyorCredit b f) s = .next { s with dev := s.dev.conveyorCredit b f } :=
  onDie_live (fun d => d.conveyorCredit b f) hl

theorem exec_rampDown_live (w : ActUnit) : exec (.rampDown b w) s = .next { s with dev := s.dev.rampDown b w } :=
  onDie_live (fun d => d.rampDown b w) hl

theorem exec_rampStep_live (w : ActUnit) : exec (.rampStep b w) s = .next { s with dev := s.dev.rampStep b w } :=
  onDie_live (fun d => d.rampStep b w) hl

end

end Sys2Proof.Machine

open Sys2Proof Sys2Proof.Machine

/-- Settles O42: a tile by its state, its place on a conveyor and the credits; a segment and a credit by what is in flight. -/
theorem tilesAndConveyors : Obligations.TilesAndConveyors := by
  unfold Obligations.TilesAndConveyors
  refine ⟨fun s b i c hl hc => ⟨fun ho => ?notOldest, fun ho hs ha hn => ?held, fun ho hs => ⟨fun h1 h2 => ?written,
    fun hp hcr => ?sent, fun hp hcr => ?waits⟩⟩, fun s b hl => ⟨fun x hx => ?segment, fun f x hx => ?credit⟩⟩
  case notOldest => rw [exec_tileDrained_live b hl, Dev.tileDrained_notOldest ho]
  case held => rw [exec_tileDrained_live b hl, Dev.tileDrained_held hc ho hs ha hn]
  case written => rw [exec_tileDrained_live b hl, Dev.tileDrained_drain hc ho hs, Dev.drainSlot_written h1 h2]
  case sent => rw [exec_tileDrained_live b hl, Dev.tileDrained_drain hc ho hs, Dev.drainSlot_sent hp hcr]
  case waits => rw [exec_tileDrained_live b hl, Dev.tileDrained_drain hc ho hs, Dev.drainSlot_waits hp hcr]
  case segment => rw [exec_conveyorSegment_live b hl, Dev.conveyorSegment_found hx]
  case credit =>
    refine ⟨_, exec_conveyorCredit_live b hl f, rfl, ?_⟩
    rw [Dev.conveyorCredit_found hx]
    exact ⟨rfl, Dev.convCredits_setConvCredits .., rfl, rfl, rfl, rfl⟩

/-- Settles O43: the unit's activity alone is written, at RAMP_DOWN the count of events with it; the bench is looked at after a
step, and finds nothing to start in empty queues. -/
theorem rampsStep : Obligations.RampsStep := by
  unfold Obligations.RampsStep
  refine ⟨fun s b w hl hf hh => ⟨_, exec_rampDown_live b hl w, ?down⟩,
    fun s b w hl => ⟨_, exec_rampStep_live b hl w, rfl, rfl, rfl, Dev.act_setAct .., Dev.setAct_frame .., ?levels⟩,
    fun s b w hl hm hv => ⟨_, exec_rampStep_live b hl w, ?idle⟩⟩
  case down =>
    rw [Dev.rampDown_fill hf hh]
    refine ⟨by simp, by simp, by simp, rfl, rfl, fun k hk => ?_, fun b' w' hne => ?_, by simp⟩
    · rw [Dev.get_bump_ne _ _ hk, Dev.get_setAct]
    · rw [Dev.act_bump, Dev.act_setAct_ne _ _ hne]
  case levels =>
    rw [Dev.act_setAct]
    exact ⟨Act.ramp_down, Act.ramp_down_last, Act.ramp_up, Act.ramp_up_last⟩
  case idle => exact Dev.kickBench_of_empty (by simpa using hm) (by simpa using hv)
end

section
/-! SUPPORT. Words read back: fields packed into a word are unpacked from it, and a command word's header and body share no bit. -/

namespace Sys2Proof.Machine

/-- Every field of the list has a width and holds a value no longer than it. -/
def FieldsFit : List (Nat × Nat) → Prop
  | [] => True
  | x :: l => (0 < x.1 ∧ x.2.size ≤ x.1) ∧ FieldsFit l

theorem packWidth_cons (x : Nat × Nat) (l : List (Nat × Nat)) : packWidth (x :: l) = x.1 + packWidth l := rfl

/-- Fields read from a word whose low bits are those packed are the fields that were packed. -/
theorem unpackFrom_pack {l : List (Nat × Nat)} (hl : FieldsFit l) {w : Nat} (hw : w % 2 ^ packWidth l = pack l) :
    unpackFrom w (l.map Prod.fst) (packWidth l) = l.map Prod.snd := by
  induction l with
  | nil => rfl
  | cons x l ih =>
    obtain ⟨⟨hpos, hfit⟩, hl⟩ := hl
    rw [packWidth_cons, pack_cons, Nat.mod_eq_of_lt (Nat.size_le.mp hfit), Nat.pow_add, Nat.mul_comm (2 ^ x.1), Nat.mod_mul,
      Nat.mul_comm x.2] at hw
    have hlow : w % 2 ^ packWidth l = pack l := by
      have := congrArg (· % 2 ^ packWidth l) hw
      simpa [Nat.mod_eq_of_lt (pack_lt l)] using this
    have hhigh : w / 2 ^ packWidth l % 2 ^ x.1 = x.2 := by
      rw [hlow, Nat.add_comm] at hw
      exact Nat.eq_of_mul_eq_mul_left (Nat.two_pow_pos _) (Nat.add_right_cancel hw)
    have hhead : fld w (packWidth (x :: l) - 1) (packWidth (x :: l) - x.1) = x.2 := by
      rw [fld_eq, packWidth_cons, Nat.add_sub_cancel_left, Nat.sub_add_cancel (by omega), Nat.add_sub_cancel, hhigh]
    rw [List.map_cons, List.map_cons, unpackFrom, hhead, packWidth_cons, Nat.add_sub_cancel_left, ih hl hlow]

/-- A packed word reads back, field by field, what was packed. -/
theorem unpack_pack {w : Nat} {l : List (Nat × Nat)} (hw : w = pack l) (hl : FieldsFit l) :
    unpack w (l.map Prod.fst) = l.map Prod.snd :=
  unpackFrom_pack hl (by rw [hw, Nat.mod_eq_of_lt (pack_lt l)])

theorem two_pow_dvd_pack {l : List (Nat × Nat)} {n : Nat} (h : l.getLast? = some (n, 0)) : 2 ^ n ∣ pack l := by
  obtain ⟨l, rfl⟩ := List.getLast?_eq_some_iff.mp h
  simp [pack, List.foldl_append]

theorem headerBits_lt (h : CmdHeader) : headerBits h < 2 ^ 128 := pack_lt _

/-- A field depends on its bits alone. -/
theorem fld_congr {v w hi lo : Nat} (h : ∀ i, lo ≤ i → i ≤ hi → v.testBit i = w.testBit i) : fld v hi lo = fld w hi lo := by
  refine Nat.eq_of_testBit_eq fun i => ?_
  simp only [fld, Nat.testBit_mod_two_pow, Nat.testBit_shiftRight]
  by_cases hi' : i < hi + 1 - lo
  · rw [h (lo + i) (by omega) (by omega)]
  · simp [hi']

section
variable {h : CmdHeader} {b : Nat} (hb : 2 ^ 128 ∣ b)
include hb

theorem testBit_wordBits (i : Nat) : (wordBits h b).testBit i = if i < 128 then (headerBits h).testBit i else b.testBit i := by
  obtain ⟨c, rfl⟩ := hb
  rw [wordBits, Nat.testBit_two_pow_mul_add _ (headerBits_lt h)]
  split
  · rfl
  · rw [Nat.testBit_two_pow_mul, decide_eq_true (Nat.not_lt.mp ‹_›), Bool.true_and]

/-- The header's fields of a word are those of its header. -/
theorem fld_wordBits_header {hi lo : Nat} (hhi : hi < 128) : fld (wordBits h b) hi lo = fld (headerBits h) hi lo :=
  fld_congr fun i _ hi' => by rw [testBit_wordBits hb, if_pos (by omega)]

/-- The body's fields of a word are those of its body. -/
theorem fld_wordBits_body {hi lo : Nat} (hlo : 128 ≤ lo) : fld (wordBits h b) hi lo = fld b hi lo :=
  fld_congr fun i hi' _ => by rw [testBit_wordBits hb, if_neg (by omega)]

theorem headerOf_wordBits (hh : headerFits h) : headerOf (wordBits h b) = h := by
  have e := unpack_pack (w := headerBits h) rfl (by simpa [FieldsFit, headerFits, Nat.size_le] using hh)
  simp [unpack, unpackFrom] at e
  simp [headerOf, fld_wordBits_header hb, e]

end

/-! Word by word (R125): a body that leaves the header's bits 0 reads back with its header. -/

section
variable {h : CmdHeader} (hh : headerFits h)
include hh

theorem segmentWord_reads {x : SegmentBody} (hx : segmentFits x) :
    headerOf (wordBits h (segmentBits x)) = h ∧ segmentOf (wordBits h (segmentBits x)) = x := by
  have hb : 2 ^ 128 ∣ segmentBits x := two_pow_dvd_pack rfl
  have e := unpack_pack (w := segmentBits x) rfl (by simpa [FieldsFit, segmentFits, Nat.size_le] using hx)
  simp [unpack, unpackFrom] at e
  exact ⟨headerOf_wordBits hb hh, by simp [segmentOf, fld_wordBits_body hb, e]⟩

theorem linkWord_reads {x : LinkBody} (hx : linkFits x) :
    headerOf (wordBits h (linkBits x)) = h ∧ linkOf (wordBits h (linkBits x)) = x := by
  have hb : 2 ^ 128 ∣ linkBits x := two_pow_dvd_pack rfl
  have e := unpack_pack (w := linkBits x) rfl (by simpa [FieldsFit, linkFits, Nat.size_le] using hx)
  simp [unpack, unpackFrom] at e
  exact ⟨headerOf_wordBits hb hh, by simp [linkOf, fld_wordBits_body hb, e]⟩

theorem waitWord_reads {x : WaitBody} (hx : waitFits x) :
    headerOf (wordBits h (waitBits x)) = h ∧ waitOf (wordBits h (waitBits x)) = x := by
  have hb : 2 ^ 128 ∣ waitBits x := two_pow_dvd_pack rfl
  have e := unpack_pack (w := waitBits x) rfl (by simpa [FieldsFit, waitFits, Nat.size_le] using hx)
  simp [unpack, unpackFrom] at e
  exact ⟨headerOf_wordBits hb hh, by simp [waitOf, fld_wordBits_body hb, e]⟩

theorem signalWord_reads {x : SignalBody} (hx : signalFits x) :
    headerOf (wordBits h (signalBits x)) = h ∧ signalOf (wordBits h (signalBits x)) = x := by
  have hb : 2 ^ 128 ∣ signalBits x := two_pow_dvd_pack rfl
  have e := unpack_pack (w := signalBits x) rfl (by simpa [FieldsFit, signalFits, Nat.size_le] using hx)
  simp [unpack, unpackFrom] at e
  exact ⟨headerOf_wordBits hb hh, by simp [signalOf, fld_wordBits_body hb, e]⟩

theorem selectWord_reads {x : SelectBody} (hx : selectFits x) :
    headerOf (wordBits h (selectBits x)) = h ∧ selectOf (wordBits h (selectBits x)) = x := by
  have hb : 2 ^ 128 ∣ selectBits x := two_pow_dvd_pack rfl
  have e := unpack_pack (w := selectBits x) rfl (by simpa [FieldsFit, selectFits, Nat.size_le] using hx)
  simp [unpack, unpackFrom] at e
  exact ⟨headerOf_wordBits hb hh, by simp [selectOf, fld_wordBits_body hb, e]⟩

theorem matmulWord_reads {x : MatmulBody} (hx : matmulFits x) :
    headerOf (wordBits h (matmulBits x)) = h ∧ matmulOf (wordBits h (matmulBits x)) = x := by
  have hb : 2 ^ 128 ∣ matmulBits x := two_pow_dvd_pack rfl
  have e := unpack_pack (w := matmulBits x) rfl (by simpa [FieldsFit, matmulFits, Nat.size_le] using hx)
  simp [unpack, unpackFrom] at e
  exact ⟨headerOf_wordBits hb hh, by simp [matmulOf, fld_wordBits_body hb, e]⟩

theorem vectorWord_reads {x : VectorBody} (hx : vectorFits x) :
    headerOf (wordBits h (vectorBits x)) = h ∧ vectorOf (wordBits h (vectorBits x)) = x := by
  have hb : 2 ^ 128 ∣ vectorBits x := two_pow_dvd_pack rfl
  have e := unpack_pack (w := vectorBits x) rfl (by simpa [FieldsFit, vectorFits, Nat.size_le] using hx)
  simp [unpack, unpackFrom] at e
  exact ⟨headerOf_wordBits hb hh, by simp [vectorOf, fld_wordBits_body hb, e]⟩

theorem haulWord_reads {x : Descriptor} (hx : haulFits x) :
    headerOf (wordBits h (haulBits x)) = h ∧ haulOf (wordBits h (haulBits x)) = x := by
  have hb : 2 ^ 128 ∣ haulBits x := two_pow_dvd_pack rfl
  have e := unpack_pack (w := haulBits x) rfl (by simpa [FieldsFit, haulFits, Nat.size_le] using hx)
  simp [unpack, unpackFrom] at e
  exact ⟨headerOf_wordBits hb hh, by simp [haulOf, fld_wordBits_body hb, e]⟩

theorem hopperWord_reads {x : HopperBody} (hx : hopperFits x) :
    headerOf (wordBits h (hopperBits x)) = h ∧ hopperOf (wordBits h (hopperBits x)) = x := by
  have hb : 2 ^ 128 ∣ hopperBits x := two_pow_dvd_pack rfl
  have e := unpack_pack (w := hopperBits x) rfl (by simpa [FieldsFit, hopperFits, Nat.size_le] using hx)
  simp [unpack, unpackFrom] at e
  exact ⟨headerOf_wordBits hb hh, by simp [hopperOf, fld_wordBits_body hb, e]⟩

theorem voteWord_reads {x : VoteBody} (hx : voteFits x) :
    headerOf (wordBits h (voteBits x)) = h ∧ voteOf (wordBits h (voteBits x)) = x := by
  have hb : 2 ^ 128 ∣ voteBits x := two_pow_dvd_pack rfl
  have e := unpack_pack (w := voteBits x) rfl (by simpa [FieldsFit, voteFits, Nat.size_le] using hx)
  simp [unpack, unpackFrom] at e
  exact ⟨headerOf_wordBits hb hh, by simp [voteOf, fld_wordBits_body hb, e]⟩

theorem bedWord_reads {x : BedBody} (hx : bedFits x) :
    headerOf (wordBits h (bedBits x)) = h ∧ bedOf (wordBits h (bedBits x)) = x := by
  have hb : 2 ^ 128 ∣ bedBits x := two_pow_dvd_pack rfl
  have e := unpack_pack (w := bedBits x) rfl (by simpa [FieldsFit, bedFits, Nat.size_le] using hx)
  simp [unpack, unpackFrom] at e
  exact ⟨headerOf_wordBits hb hh, by simp [bedOf, fld_wordBits_body hb, e]⟩

end

/-! Vector instructions (R153) and packet headers (R290). -/

theorem vinstrOf_vinstrBits {x : VectorInstr} (hx : vinstrFits x) :
    vinstrOf (vinstrBits x) = x ∧ reservedBits (vinstrBits x) vinstrReserved = [] := by
  have e := unpack_pack (w := vinstrBits x) rfl (by simpa [FieldsFit, vinstrFits, Nat.size_le] using hx)
  simp [unpack, unpackFrom] at e
  simp [vinstrOf, reservedBits, vinstrReserved, e]

theorem packetOf_packetBits {x : PacketHeader} (hx : packetFits x) :
    packetOf (packetBits x) = x ∧ reservedBits (packetBits x) packetReserved = [] := by
  have e := unpack_pack (w := packetBits x) rfl (by simpa [FieldsFit, packetFits, Nat.size_le] using hx)
  simp [unpack, unpackFrom] at e
  simp [packetOf, reservedBits, packetReserved, e]

end Sys2Proof.Machine

open Sys2Proof Sys2Proof.Machine

/-- Settles O9: body by body, the fields that were packed are unpacked, and header and body share no bit. -/
theorem commandWordsRoundTrip : Obligations.CommandWordsRoundTrip := by
  unfold Obligations.CommandWordsRoundTrip
  intro h hh
  exact ⟨fun _ => segmentWord_reads hh, fun _ => linkWord_reads hh, fun _ => waitWord_reads hh, fun _ => signalWord_reads hh,
    fun _ => selectWord_reads hh, fun _ => matmulWord_reads hh, fun _ => vectorWord_reads hh, fun _ => haulWord_reads hh,
    fun _ => hopperWord_reads hh, fun _ => voteWord_reads hh, fun _ => bedWord_reads hh⟩

/-- Settles O10: what is unpacked are the fields that were packed, the reserved ones, packed as 0, among them. -/
theorem instructionsAndPacketsRoundTrip : Obligations.InstructionsAndPacketsRoundTrip :=
  ⟨fun _ => vinstrOf_vinstrBits, fun _ => packetOf_packetBits⟩
end

section
/-! SUPPORT. Registers of the vector unit: what a lane reads after a merge, and the elements of a view put together again. -/

namespace Sys2Proof.Machine

theorem getElem?_mergeLanes {on : Nat → Bool} {old new : List Word32} {i : Nat} (hl : old.length = new.length)
    (hi : i < old.length) : (mergeLanes on old new)[i]? = if on i then new[i]? else old[i]? := by
  have hn : i < new.length := hl ▸ hi
  by_cases ho : on i <;> simp [mergeLanes, hi, hn, ho]

theorem laneElem_eq {b : Nat} (hb : 0 < b) (w : Word32) (q : Nat) : laneElem b w q = w.toNat / 2 ^ (b * q) % 2 ^ b := by
  rw [laneElem, fld_eq, Nat.sub_add_cancel (by omega), Nat.add_sub_cancel_left]

theorem packLane_append (b e : Nat) (l : List Nat) : packLane b (l ++ [e]) = packLane b l + 2 ^ (b * l.length) * (e % 2 ^ b) := by
  induction l with
  | nil => simp [packLane]
  | cons x l ih =>
    rw [List.cons_append, packLane, packLane, ih, List.length_cons, Nat.mul_succ, Nat.pow_add]
    ring

/-- Elements taken from a word and put together again make up its low bits. -/
theorem packLane_laneElem {b : Nat} (hb : 0 < b) (w : Word32) (n : Nat) :
    packLane b ((List.range n).map (laneElem b w)) = w.toNat % 2 ^ (b * n) := by
  induction n with
  | zero => simp [packLane, Nat.mod_one]
  | succ n ih =>
    rw [List.range_succ, List.map_append, List.map_singleton, packLane_append, ih, List.length_map, List.length_range,
      laneElem_eq hb, Nat.mod_mod, Nat.mul_succ, Nat.pow_add, Nat.mod_mul]

/-- Where the elements fill a lane, a register is put together again from its view. -/
theorem packView_viewOf {b : Nat} (hb : b * perLane b = 32) (r : List Word32) : packView b r.length (viewOf b r) = r := by
  have hpos : 0 < b := Nat.pos_of_ne_zero fun h => by simp [h] at hb
  have hlane : ∀ w : Word32, BitVec.ofNat 32 (packLane b ((List.range (perLane b)).map (laneElem b w))) = w := fun w => by
    rw [packLane_laneElem hpos, hb, Nat.mod_eq_of_lt w.isLt, BitVec.ofNat_toNat, BitVec.setWidth_eq]
  induction r with
  | nil => rfl
  | cons w r ih =>
    have hlen : ((List.range (perLane b)).map (laneElem b w)).length = perLane b := by simp
    rw [List.length_cons, packView, viewOf, List.flatMap_cons, List.take_left' hlen, List.drop_left' hlen, hlane]
    exact congrArg _ ih

end Sys2Proof.Machine

open Sys2Proof Sys2Proof.Machine

/-- Settles O47: a merge lane by lane, and a view whose elements fill each lane. -/
theorem lanesAndViews : Obligations.LanesAndViews := by
  unfold Obligations.LanesAndViews
  refine ⟨fun _ _ _ _ => getElem?_mergeLanes, fun b r hb => packView_viewOf ?_ r⟩
  rcases hb with rfl | rfl | rfl <;> rfl
end

section
/-! SUPPORT. Writes of the entries that control chains, hauls, tallies, the fabric and training: what each of them applies. -/

namespace Sys2Proof.Machine

/-! What the dictionary applies at an entry, by its index and subindex. -/

theorem among_iff {i base n : Nat} : among i base n = true ↔ base ≤ i ∧ i < base + n := by simp [among]

section
variable (d : Dev) (f : Fuses) (bs : List Byte)

theorem Dev.applyUnit_chainCtrl (k : ChainId) :
    d.applyUnit f (0x6400 + 256 * k.p + k.e) (9 + k.c) bs = d.writeChainCtrl k (ofBytes bs) := by
  have hix : 0x6400 + 256 * k.p.val + k.e.val - 0x6400 = 256 * k.p + k.e := by omega
  have hk : chainOf ((256 * k.p + k.e) / 256) ((256 * k.p + k.e) % 256) k.c = k := by
    have hp : (256 * k.p.val + k.e.val) / 256 % 4 = k.p := by omega
    have he : (256 * k.p.val + k.e.val) % 256 % 34 = k.e := by omega
    have hc : k.c.val % 4 = k.c := by omega
    simp only [chainOf, hp, he, hc]
  rw [Dev.applyUnit, if_pos (by omega), hix, Nat.add_sub_cancel_left, hk]

theorem Dev.applyUnit_haul (h : Fin 16) (j : Nat) : d.applyUnit f (0x6240 + h) j bs = d.writeHaul h j (ofBytes bs) := by
  simp (disch := omega) only [Dev.applyUnit, among_iff, if_neg, if_pos, Nat.add_sub_cancel_left]

theorem Dev.applyUnit_tallyMap (p : Fin 4) : d.applyUnit f (0x6300 + p) 1 bs = d.writeTallyMap p bs := by
  simp (disch := omega) only [Dev.applyUnit, among_iff, and_true, if_neg, if_pos, Nat.add_sub_cancel_left]

theorem Dev.applyUnit_coordCommit : d.applyUnit f 0x5000 8 bs = d.commitCoords := rfl

theorem Dev.applyUnit_portDisable (n : Fin 16) : d.applyUnit f (0x5010 + n) 5 bs = (d.setDisable n (ofBytes bs)).stored := by
  simp (disch := omega) only [Dev.applyUnit, among_iff, if_neg, if_pos, Nat.add_sub_cancel_left]

theorem Dev.applyUnit_join (p : Fin 4) (j : Nat) : d.applyUnit f (0x5030 + p) j bs = d.writeJoin p j (ofBytes bs) := by
  simp (disch := omega) only [Dev.applyUnit, among_iff, if_neg, if_pos, Nat.add_sub_cancel_left]

theorem Dev.applyUnit_vote (p : Fin 4) (j : Nat) : d.applyUnit f (0x7000 + p) j bs = d.writeVote p j (ofBytes bs) := by
  simp (disch := omega) only [Dev.applyUnit, among_iff, if_neg, if_pos, Nat.add_sub_cancel_left]

theorem Dev.applyUnit_recut (p : Fin 4) : d.applyUnit f (0x7020 + p) 6 bs = d.recutRequested p (ofBytes bs) := by
  simp (disch := omega) only [Dev.applyUnit, among_iff, and_true, if_neg, if_pos, Nat.add_sub_cancel_left]

theorem Dev.applyUnit_initBlock (p : Fin 4) : d.applyUnit f (0x7040 + p) 2 bs = d.initBlock p := by
  simp (disch := omega) only [Dev.applyUnit, among_iff, and_true, if_neg, if_pos, Nat.add_sub_cancel_left]

theorem Dev.writeHaul_pause (h v : Nat) : d.writeHaul h 33 v = d.writePause h v := rfl

theorem Dev.writeHaul_cqHead (h : Nat) (ch : Fin 8) (v : Nat) : d.writeHaul h (17 + ch) v = d.writeCqHead h ch v := by
  rw [Dev.writeHaul, if_pos (by omega), Nat.add_sub_cancel_left]

end

/-- A value of the entry's size is what its bytes stand for. -/
theorem ofBytes_toBytes_toNat {w n : Nat} (v : BitVec w) (h : 2 ^ w = 256 ^ n) : ofBytes (toBytes v.toNat n) = v.toNat := by
  rw [ofBytes_toBytes, ← h, Nat.mod_eq_of_lt v.isLt]

/-- A row that writes an entry other than FW_CONFIRM's applies what the dictionary applies there. -/
theorem State.applies_entry {s : State} {c : Instr} {o : Origin} {i j : Nat} {bs : List Byte} {eff : Dev → Dev} (hj : j < 256)
    (hi : i ≠ 0x8010) (he : exec c s = writeBytes o (key i j) bs s) (ha : ∀ d : Dev, d.applyUnit s.fuses i j bs = eff d) :
    s.Applies c o (key i j) bs eff :=
  State.applies_of he (by rw [key_div _ hj]; exact fun h => hi h.1) (by rw [key_div _ hj, key_mod _ hj]; exact ha _)

end Sys2Proof.Machine

open Sys2Proof Sys2Proof.Machine

/-- Settles O14: each row writes its entry, and the dictionary applies there what the statement names. -/
theorem controlWrites : Obligations.ControlWrites := by
  unfold Obligations.ControlWrites
  intro s o
  refine ⟨fun k => ?start, fun k => ?halt, fun h ch => ?pause, fun h ch => ?unpause, fun h ch v => ?cqHead, fun p data => ?tallyMap,
    fun v => ?coordCommit, fun p v => ?join, fun p v => ?rebind, fun n v => ?portDisable, fun p v => ?abandon, fun p v => ?recut,
    fun p v => ?ckpt, fun p v => ?initBlock⟩
  case start => exact State.applies_entry (by omega) (by omega) rfl fun d => d.applyUnit_chainCtrl _ _ k
  case halt => exact State.applies_entry (by omega) (by omega) rfl fun d => d.applyUnit_chainCtrl _ _ k
  case pause =>
    exact State.applies_entry (by omega) (by omega) rfl fun d => by
      rw [d.applyUnit_haul, d.writeHaul_pause, ofBytes_toBytes, Nat.pow_one]
  case unpause =>
    exact State.applies_entry (by omega) (by omega) rfl fun d => by
      rw [d.applyUnit_haul, d.writeHaul_pause, ofBytes_toBytes, Nat.pow_one]
  case cqHead =>
    exact State.applies_entry (by omega) (by omega) rfl fun d => by
      rw [d.applyUnit_haul, d.writeHaul_cqHead, ofBytes_toBytes_toNat v rfl]
  case tallyMap => exact State.applies_entry (by omega) (by omega) rfl fun d => d.applyUnit_tallyMap _ _ p
  case coordCommit => exact State.applies_entry (by omega) (by omega) rfl fun d => d.applyUnit_coordCommit _ _
  case join =>
    exact State.applies_entry (by omega) (by omega) rfl fun d => by
      rw [d.applyUnit_join, ofBytes_toBytes_toNat v rfl, Dev.writeJoin, if_pos rfl]
  case rebind =>
    exact State.applies_entry (by omega) (by omega) rfl fun d => by
      rw [d.applyUnit_join, ofBytes_toBytes_toNat v rfl, Dev.writeJoin, if_neg (by decide)]
  case portDisable =>
    exact State.applies_entry (by omega) (by omega) rfl fun d => by rw [d.applyUnit_portDisable, ofBytes_toBytes_toNat v rfl]
  case abandon => exact State.applies_entry (by omega) (by omega) rfl fun d => d.applyUnit_vote _ _ p 6
  case recut =>
    exact State.applies_entry (by omega) (by omega) rfl fun d => by rw [d.applyUnit_recut, ofBytes_toBytes_toNat v rfl]
  case ckpt => exact State.applies_entry (by omega) (by omega) rfl fun d => d.applyUnit_vote _ _ p 10
  case initBlock => exact State.applies_entry (by omega) (by omega) rfl fun d => d.applyUnit_initBlock _ _ p
end

section
/-! SUPPORT. Chains: which word a sequencer takes, what its control commands do there, and the issue to the units. -/

namespace Sys2Proof.Machine

/-! The next word (R121, R125, R130, R159). -/

section
variable {d : Dev} {k : ChainId} {u op : Nat}

theorem Dev.fetch_notRead (h : d.mayRead k u = false ∨ d.turn k u = false) : d.fetch k u op = .done d := if_pos h

/-- A word that is taken is the one at the cursor. -/
theorem Dev.fetch_cmdAt {c : Cmd} (h : d.fetch k u op = .word c) :
    c = cmdAt k u (d.cursor k u) (d.readNum (d.cursor k u).pos 64) := by
  unfold Dev.fetch at h
  extract_lets x p w cmd hd order bad at h
  repeat (split at h; cases h)
  split at h
  · exact (Fetched.word.inj h).symm
  · cases h

section
variable {c : Cursor} {w : Nat} (hr : d.mayRead k u = true) (ht : d.turn k u = true) (hc : d.cursor k u = c)
  (hw : d.readNum c.pos 64 = w)
include hr ht hc hw

theorem Dev.fetch_outside (ha : d.inAlloc k.p c.pos 64 = false) :
    d.fetch k u op = .done (d.accessViolation (cmdAt k u c w) c.pos 0 0 0) := by
  simp only [Dev.fetch, hc, hw]
  rw [if_neg (by simp [hr, ht]), if_pos ha]

section
variable (ha : d.inAlloc k.p c.pos 64 = true) (hh : d.heldIn c.pos 64 = false) (hl : d.lostIn c.pos 64 = none)
  (hp : d.linePoisoned c.pos = false)
include ha hh hl hp

theorem Dev.fetch_outOfSequence (hs : (headerOf w).cmdSeq ≠ c.expSeq) : d.fetch k u op =
    .done ((d.record (d.whereCmd (cmdAt k u c w)) 0x103 2 [(44, c.pos), (32, c.expSeq), (32, (headerOf w).cmdSeq)]).faultChain k) := by
  simp only [Dev.fetch, hc, hw]
  rw [if_neg (by simp [hr, ht]), if_neg (by simp [ha]), if_neg (by simp [hh]), if_neg (by simp [hl]), if_neg (by simp [hp]),
    if_pos hs]

theorem Dev.fetch_kindHeld (hs : (headerOf w).cmdSeq = c.expSeq) (hk : d.kindHeld k.p w = true) : d.fetch k u op = .done d := by
  simp only [Dev.fetch, hc, hw]
  rw [if_neg (by simp [hr, ht]), if_neg (by simp [ha]), if_neg (by simp [hh]), if_neg (by simp [hl]), if_neg (by simp [hp]),
    if_neg (not_not.mpr hs), if_pos hk]

/-- A word for this bench, without an offence, in its place in the segment and of the row's opcode is taken. -/
theorem Dev.fetch_word (hs : (headerOf w).cmdSeq = c.expSeq) (hk : d.kindHeld k.p w = false) (hskip : c.skip = 0)
    (hb : isLift k = false ∨ (headerOf w).benchSel = 0x7F ∨ (headerOf w).benchSel = u)
    (ho : offences d k (d.logicalOf k u) w = []) (hst : c.atStart = decide ((headerOf w).opcode = opSegment))
    (hsel : (headerOf w).opcode = opSelect → d.reachesLink c.pos (selectOf w).count = false) (hop : (headerOf w).opcode = op) :
    d.fetch k u op = .word (cmdAt k u c w) := by
  have hmine : ¬ (isLift k = true ∧ ¬ ((headerOf w).opcode = opSegment ∨ (headerOf w).opcode = opLink) ∧ c.atStart = false ∧
      (headerOf w).benchSel ≠ 0x7F ∧ (headerOf w).benchSel ≠ u ∧ (headerOf w).benchSel < d.unitsOf k) := by
    rintro ⟨hlift, -, -, hall, hother, -⟩
    rcases hb with hb | hb | hb
    · simp [hb] at hlift
    · exact hall hb
    · exact hother hb
  have hselect : ¬ ((headerOf w).opcode = opSelect ∧ d.reachesLink c.pos (selectOf w).count = true) := fun ⟨h, h'⟩ => by
    simp [hsel h] at h'
  have hskipped : ¬ (0 < c.skip ∧ (headerOf w).opcode ≠ opSegment) := by omega
  simp only [Dev.fetch, hc, hw]
  rw [if_neg (by simp [hr, ht]), if_neg (by simp [ha]), if_neg (by simp [hh]), if_neg (by simp [hl]), if_neg (by simp [hp]),
    if_neg (not_not.mpr hs), if_neg (by simp [hk]), if_neg hskipped, if_neg hmine, ho, offend, if_neg (not_not.mpr hst), offend,
    if_neg hselect]
  exact if_pos hop

end

end

end

/-! A row over the next word, on dies that run. -/

theorem Dev.onWord_word {d : Dev} {k : ChainId} {u op : Nat} {c : Cmd} (f : Dev → Cmd → Dev) (h : d.fetch k u op = .word c) :
    d.onWord k u op f = f d c := by
  rw [Dev.onWord, h]

/-- A command's chain and unit are those of the cursor that took its word. -/
theorem Dev.fetched {d : Dev} {k : ChainId} {u op : Nat} {c : Cmd} (h : d.fetch k u op = .word c) : c.k = k ∧ c.u = u := by
  rw [Dev.fetch_cmdAt h]; exact ⟨rfl, rfl⟩

theorem onWord_live {s : State} {k : ChainId} {u : Fin 96} {op : Nat} {c : Cmd} {f : Dev → Cmd → Dev} (hl : s.dev.live = true)
    (h : s.dev.fetch k u op = .word c) : onDie (fun d => d.onWord k u op f) s = .next { s with dev := f s.dev c } := by
  rw [onDie_live _ hl, Dev.onWord_word f h]

/-! SEGMENT (R133, R144). -/

theorem Dev.cursor_armSeg (d : Dev) (k : ChainId) (seq : Nat) (b : SegmentBody) (j : ChainId) (v : Nat) :
    (d.armSeg k seq b).cursor j v = d.cursor j v := by
  unfold Dev.armSeg; split <;> rfl

/-- A gauge that is not yet armed is armed with the deadline of DL_MODE. -/
theorem Dev.mem_gauge_armSeg {d : Dev} {k : ChainId} {seq : Nat} (b : SegmentBody) (h : ∀ y ∈ d.gauge k, y.seq0 ≠ seq) :
    ∃ y ∈ (d.armSeg k seq b).gauge k, y.seq0 = seq ∧ y.kind = b.segKind ∧ y.missed = false ∧ y.deadline = d.deadlineOf k.p b := by
  have hnew : (d.gauge k).any (fun y => decide (y.seq0 = seq)) = false := by simpa using h
  rw [Dev.armSeg, if_neg (by simp [hnew]), Dev.gauge_setGauge]
  exact ⟨_, List.mem_append_right _ (List.mem_singleton_self _), rfl, rfl, rfl, rfl⟩

/-! LINK (R135, R138). -/

section
variable {d : Dev} {k : ChainId} {u : Nat} {x : Cursor} (hx : d.cursor k u = x)
include hx

theorem Dev.pollLink_due (hs : x.state = .polling) (hu : d.unitLive k u = true) (ht : d.tearing k.p = false)
    (hh : d.heldIn x.pos 64 = false) (hl : d.lostIn x.pos 64 = none) (hp : d.linePoisoned x.pos = false)
    (hd : x.polledAt + (d.takenOf k).1 ≤ d.time) : d.pollLink k u = d.followLink k u := by
  simp [Dev.pollLink, Dev.rereadLink, hx, hs, hu, ht, hh, hl, hp, Nat.not_lt.mpr hd]

theorem Dev.followLink_polls (hq : x.haltReq = false) (hn : (linkOf (d.readNum x.pos 64)).nextValid = 0) :
    d.followLink k u = d.setCursor k u { x with state := .polling, polledAt := d.time } := by
  simp [Dev.followLink, hx, hq, hn]

theorem Dev.followLink_next (hq : x.haltReq = false) (hn : (linkOf (d.readNum x.pos 64)).nextValid ≠ 0) :
    let b := linkOf (d.readNum x.pos 64)
    d.followLink k u = Dev.drainCheck (Dev.settle (d.setCursor k u { x with
      state := if b.halt = 1 then .halted else .running
      pos := b.nextAddr * 64, expSeq := (x.expSeq + 1) % 2 ^ 32, atLink := false, atStart := true
      outst := setOutst x.outst x.expSeq (fun o => { o with fin := true }) }) k u) k.p := by
  simp [Dev.followLink, hx, hq, hn]

end

/-! Control commands (R131, R140, R148, R149). -/

section
variable {d : Dev} {c : Cmd}

theorem Dev.ctlHeld_of_opcode (h : (headerOf c.word).opcode ≠ opSelect) : d.ctlHeld c = false := by simp [Dev.ctlHeld, h]

theorem Dev.ctlHeld_select (h : (headerOf c.word).opcode = opSelect) :
    d.ctlHeld c = (decide ((selectOf c.word).dev = 1) && d.heldIn (selectOf c.word).decisionAddr 4) := by simp [Dev.ctlHeld, h]

theorem Dev.issueCtl_held (h : d.ctlHeld c = true) : d.issueCtl c = d := if_pos (.inr h)

/-- A control command in order that waits for nothing held is issued; a header wait keeps it at its sequencer. -/
theorem Dev.issueCtl_issued (ho : d.orderOk c = true) (hh : d.ctlHeld c = false) :
    d.issueCtl c = if (headerOf c.word).waitKind = 0 then (issued d c).runCtl c else issued d c :=
  if_neg (by simp [ho, hh])

theorem Dev.runCtl_nop (h : (headerOf c.word).opcode = opNop) : d.runCtl c = d.ctlRan c := by
  simp only [Dev.runCtl, h]; rfl

theorem Dev.runCtl_wait (h : (headerOf c.word).opcode = opWait) :
    d.runCtl c = d.setCursor c.k c.u { d.cursor c.k c.u with ctl := some { c with released := true } } := by
  simp only [Dev.runCtl, h]; rfl

theorem Dev.runCtl_signal (h : (headerOf c.word).opcode = opSignal) :
    d.runCtl c = (d.mapOutst c (fun o => { o with ready := true })).settle c.k c.u := by
  simp only [Dev.runCtl, h]; rfl

theorem Dev.runCtl_select (h : (headerOf c.word).opcode = opSelect) : d.runCtl c = d.runSelect c := by
  simp only [Dev.runCtl, h]; rfl

/-- A SELECT whose decision word has been read (R146, R149). -/
def Dev.decided (d : Dev) (c : Cmd) (v : Nat) : Dev :=
  let d := if v ≠ 0 ∧ (selectOf c.word).rerun = 1 then d.rerun c else d
  let d := if v = 0 then d.setCursor c.k c.u { d.cursor c.k c.u with skip := (selectOf c.word).count } else d
  (d.ctlDone c).settle c.k c.u

theorem Dev.runSelect_store (hb : (selectOf c.word).dev ≠ 1)
    (hp : d.storePoisoned (d.unitPlace c.k c.u) (selectOf c.word).decisionAddr = false) :
    d.runSelect c = d.decided c (d.storeNum (d.unitPlace c.k c.u) (selectOf c.word).decisionAddr 4) := by
  simp [Dev.runSelect, Dev.decided, hb, hp]

theorem Dev.runSelect_memory (hb : (selectOf c.word).dev = 1) (ha : d.inAlloc c.k.p (selectOf c.word).decisionAddr 4 = true)
    (hl : d.lostIn (selectOf c.word).decisionAddr 4 = none) (hp : d.linePoisoned (selectOf c.word).decisionAddr = false) :
    d.runSelect c = d.decided c (d.readNum (selectOf c.word).decisionAddr 4) := by
  simp [Dev.runSelect, Dev.decided, hb, ha, hl, hp]

theorem Dev.decided_skips : d.decided c 0 =
    (Dev.ctlDone (d.setCursor c.k c.u { d.cursor c.k c.u with skip := (selectOf c.word).count }) c).settle c.k c.u := rfl

theorem Dev.decided_executes {v : Nat} (hv : v ≠ 0) (hr : (selectOf c.word).rerun ≠ 1) :
    d.decided c v = (d.ctlDone c).settle c.k c.u := by
  simp [Dev.decided, hv, hr]

theorem Dev.decided_reruns {v : Nat} (hv : v ≠ 0) (hr : (selectOf c.word).rerun = 1) :
    d.decided c v = ((d.rerun c).ctlDone c).settle c.k c.u := by
  simp [Dev.decided, hv, hr]

end

/-! Issue to the units (R140, R236, R377). -/

section
variable {d : Dev} {c : Cmd} (ho : d.orderOk c = true)
include ho

theorem Dev.issueMatmul_room (hq : (d.bench (d.unitPlace c.k c.u)).matQ.length < 4) : d.issueMatmul c =
    let pl := d.unitPlace c.k c.u
    ((d.push c).setBench pl { d.bench pl with matQ := (d.bench pl).matQ ++ [c] }).kickBench pl :=
  if_pos ⟨ho, hq⟩

theorem Dev.issueVector_room (hq : (d.bench (d.unitPlace c.k c.u)).vecQ.length < 4) : d.issueVector c =
    let pl := d.unitPlace c.k c.u
    ((d.push c).setBench pl { d.bench pl with vecQ := (d.bench pl).vecQ ++ [c] }).kickBench pl :=
  if_pos ⟨ho, hq⟩

theorem Dev.issueHaul_room {h ch : Nat} (hh : h = c.k.e.val - 0x10) (hch : ch = (headerOf c.word).channel)
    (hq : (d.chan h ch).queued = none) (hs : d.sideViolation c.k.p (haulOf c.word).src = none)
    (ht : d.sideViolation c.k.p (haulOf c.word).dst = none) : d.issueHaul c =
    ((d.push c).setChan h ch { d.chan h ch with queued := some c }).kickHaul h ch := by
  subst hh hch
  simp only [Dev.issueHaul, ho, hq, hs, ht]
  rfl

theorem Dev.issueExchange_room (hq : (d.train c.k.p).xq.length < 2) (hv : d.exchangeViolation c.k.p c = none) :
    d.issueExchange c =
      ((d.push c).setTrain c.k.p { d.train c.k.p with xq := (d.train c.k.p).xq ++ [c] }).kickExchange c.k.p := by
  rw [Dev.issueExchange, if_neg (by simp [ho, engineQueue, hq]), hv]

theorem Dev.issueBed_room (hq : (d.bed c.k.p).q.length < 2)
    (ha : d.inAlloc c.k.p (bedOf c.word).regionList (16 * (bedOf c.word).regionCount) = true) :
    d.issueBed c = ((d.push c).setBed c.k.p { d.bed c.k.p with q := (d.bed c.k.p).q ++ [c] }).kickBed := by
  rw [Dev.issueBed, if_neg (by simp [ho, engineQueue, hq]), if_neg (by simp [ha])]

end

end Sys2Proof.Machine

open Sys2Proof Sys2Proof.Machine

/-- Settles O37: the checks of the next word in their order, up to the one that decides. -/
theorem wordsAreCheckedFirst : Obligations.WordsAreCheckedFirst := by
  unfold Obligations.WordsAreCheckedFirst
  refine ⟨fun d k u op => Dev.fetch_notRead, fun d k u op hr ht => ⟨fun ha => ?outside, fun ha hh hl hp =>
    ⟨fun hs => ?sequence, fun hs hk => ?held, fun hs hk hskip hb ho hst hsel hop => ?taken⟩⟩⟩
  case outside => exact Dev.fetch_outside hr ht rfl rfl ha
  case sequence => exact Dev.fetch_outOfSequence hr ht rfl rfl ha hh hl hp hs
  case held => exact Dev.fetch_kindHeld hr ht rfl rfl ha hh hl hp hs hk
  case taken => exact Dev.fetch_word hr ht rfl rfl ha hh hl hp hs hk hskip hb ho hst hsel hop

/-- Settles O38: what SEGMENT does is written on the cursor that the arming of the gauge left as it was. -/
theorem segmentArms : Obligations.SegmentArms := by
  unfold Obligations.SegmentArms
  intro s k u c hl h
  obtain ⟨hk, hu⟩ := Dev.fetched h
  refine ⟨?effect, ?pos, ?seq, fun hnew => ?gauge⟩
  case effect => rw [show exec (.segment k u) s = _ from onWord_live hl h, Dev.readSegment, hk, hu]
  case pos => rw [Dev.cursor_setCursor, Dev.cursor_armSeg]; rfl
  case seq => rw [Dev.cursor_setCursor, Dev.cursor_armSeg]; rfl
  case gauge => exact Dev.mem_gauge_armSeg (segmentOf c.word) hnew

/-- Settles O39: LINK ends its segment and is followed; a due poll follows it again, by NEXT_VALID. -/
theorem linkFollowsOrPolls : Obligations.LinkFollowsOrPolls := by
  unfold Obligations.LinkFollowsOrPolls
  refine ⟨fun s k u c hl h => ?read, fun s k u hl hs hu ht hh hlo hp hd => ?poll, fun d k u hq =>
    ⟨Dev.followLink_polls rfl hq, Dev.followLink_next rfl hq⟩⟩
  case read =>
    obtain ⟨hk, hu⟩ := Dev.fetched h
    rw [show exec (.link k u) s = _ from onWord_live hl h, Dev.readLink, hk, hu]
  case poll =>
    rw [← Dev.pollLink_due rfl hs hu ht hh hlo hp hd]
    exact onDie_live (fun d => d.pollLink k u) hl

/-- Settles O40: an issued command runs where its header does not wait, each by its opcode, and SELECT by its decision word. -/
theorem controlCommandsIssue : Obligations.ControlCommandsIssue := by
  unfold Obligations.ControlCommandsIssue
  refine ⟨fun s k u c hl ho => ⟨fun h hop => ?nop, fun h hop => ?wait, fun h hop => ?signal⟩,
    fun s k u c hl h hop ho hw => ⟨fun hb hh => ?held, fun v hv => ?decided⟩⟩
  case nop =>
    have hc := Dev.issueCtl_issued ho (Dev.ctlHeld_of_opcode (by rw [hop]; decide))
    rw [show exec (.nop k u) s = _ from onWord_live hl h, hc]
    exact ⟨fun hw => by rw [if_neg hw], fun hw => by rw [if_pos hw, Dev.runCtl_nop hop]⟩
  case wait =>
    have hc := Dev.issueCtl_issued ho (Dev.ctlHeld_of_opcode (by rw [hop]; decide))
    rw [show exec (.wait k u) s = _ from onWord_live hl h, hc]
    exact ⟨fun hw => by rw [if_neg hw], fun hw => by rw [if_pos hw, Dev.runCtl_wait hop]⟩
  case signal =>
    have hc := Dev.issueCtl_issued ho (Dev.ctlHeld_of_opcode (by rw [hop]; decide))
    rw [show exec (.signal k u) s = _ from onWord_live hl h, hc]
    exact ⟨fun hw => by rw [if_neg hw], fun hw => by rw [if_pos hw, Dev.runCtl_signal hop]⟩
  case held =>
    rw [show exec (.select k u) s = _ from onWord_live hl h, Dev.issueCtl_held (by simp [Dev.ctlHeld_select hop, hb, hh])]
  case decided =>
    have hh : s.dev.ctlHeld c = false := by
      rw [Dev.ctlHeld_select hop]
      rcases hv with ⟨hb, -, -⟩ | ⟨-, hh, -⟩
      · simp [hb]
      · simp [hh]
    have hd : (issued s.dev c).runSelect c = (issued s.dev c).decided c v := by
      rcases hv with ⟨hb, hp, rfl⟩ | ⟨hb, -, ha, hlo, hp, rfl⟩
      · exact Dev.runSelect_store hb hp
      · exact Dev.runSelect_memory hb ha hlo hp
    rw [show exec (.select k u) s = _ from onWord_live hl h, Dev.issueCtl_issued ho hh, if_pos hw, Dev.runCtl_select hop, hd]
    exact ⟨fun hv => by rw [hv, Dev.decided_skips], fun hv hr => by rw [Dev.decided_executes hv hr],
      fun hv hr => by rw [Dev.decided_reruns hv hr]⟩

/-- Settles O41: each row's issue, with room and in order, puts the command at the end of its queue. -/
theorem unitsTakeCommands : Obligations.UnitsTakeCommands := by
  unfold Obligations.UnitsTakeCommands
  refine ⟨fun s k u c hl ho => ⟨fun h hq => ?matmul, fun h hq => ?vector, fun h hq hs ht => ?haul, fun h hq hv => ?hopper,
    fun h hq hv => ?vote⟩, fun s k u c hl ho hq ha => ⟨fun h => ?snapshot, fun h => ?restore, fun h => ?stream⟩⟩
  case matmul => rw [← Dev.issueMatmul_room ho hq]; exact onWord_live hl h
  case vector => rw [← Dev.issueVector_room ho hq]; exact onWord_live hl h
  case haul => exact (onWord_live hl h).trans (by rw [Dev.issueHaul_room ho rfl rfl hq hs ht])
  case hopper => rw [← Dev.issueExchange_room ho hq hv]; exact onWord_live hl h
  case vote => rw [← Dev.issueExchange_room ho hq hv]; exact onWord_live hl h
  case snapshot => rw [← Dev.issueBed_room ho hq ha]; exact onWord_live hl h
  case restore => rw [← Dev.issueBed_room ho hq ha]; exact onWord_live hl h
  case stream => rw [← Dev.issueBed_room ho hq ha]; exact onWord_live hl h
end

section
/-! SUPPORT. The vector unit at bench store: what NOP, LD, ST and BCAST leave of the module. -/

namespace Sys2Proof.Machine

/-! The instructions (R153, R154, R555). -/

section
variable {d : Dev} {w : Option Where} {pl unit addr : Nat} {x : VectorInstr}

theorem Dev.vexec_nop (h : x.vop = vopNopCode) : d.vexec w pl unit x addr = d := by
  rw [Dev.vexec, h]; rfl

theorem Dev.vexec_ld (h : x.vop = vopLd) : d.vexec w pl unit x addr =
    let on := laneOn x.maskEn (d.vmaskReg pl x.vmask)
    (d.consumeLoad w pl unit (((List.range lanes).filter on).map (fun i => (laneAddr addr x.vstride i, 4)))).setVreg pl x.vd
      (mergeLanes on (d.vreg pl x.vd)
        ((List.range lanes).map (fun i => BitVec.ofNat 32 (d.storeNum pl (laneAddr addr x.vstride i) 4)))) := by
  rw [Dev.vexec, h]; rfl

theorem Dev.vexec_st (h : x.vop = vopSt) : d.vexec w pl unit x addr =
    let es := (d.vreg pl x.va).zipIdx.filter (fun e => laneOn x.maskEn (d.vmaskReg pl x.vmask) e.2)
    (es.foldl (fun d e => d.writeStore pl (laneAddr addr x.vstride e.2) (toBytes e.1.toNat 4) false) d).cleanLines pl
      (es.map (fun e => (laneAddr addr x.vstride e.2, 4))) := by
  rw [Dev.vexec, h]; rfl

theorem Dev.vexec_bcast (h : x.vop = vopBcast) : d.vexec w pl unit x addr =
    let f := (Fmt.ofCode x.vfmt).getD .fp32
    let e := List.replicate (perLane f.bits) (d.storeNum pl addr f.bytes)
    (d.consumeLoad w pl unit [(addr, f.bytes)]).setVreg pl x.vd (mergeLanes (laneOn x.maskEn (d.vmaskReg pl x.vmask))
      (d.vreg pl x.vd) (List.replicate lanes (BitVec.ofNat 32 (packLane f.bits e)))) := by
  rw [Dev.vexec, h]; rfl

end

/-- A load of clean lines consumes no poison. -/
theorem Dev.consumeLoad_clean {d : Dev} {pl : Nat} {pieces : List (Nat × Nat)} (h : d.poisonedOf pl pieces = []) (w : Option Where)
    (unit : Nat) : d.consumeLoad w pl unit pieces = d := by
  cases w with
  | none => rfl
  | some w => rw [Dev.consumeLoad, h]; rfl

/-! The rows. -/

/-- The unit by which a bench's tenant records a consumption (log 10). -/
def Dev.tenantUnit (d : Dev) (b : Nat) : Nat := match d.tenantAt b with | some t => t.2 | none => 0

/-- A well-formed instruction on a bench in use is executed, a consumption of poison charged to the bench's tenant. -/
theorem vopRow_executes {s : State} {vop : Nat} {b : Fin 96} {o : VOperands} (hl : s.dev.live = true)
    (hu : s.dev.outOfUse b = false) (hw : vinstrOffences [] (vinstrFor vop o) = []) : vopRow vop b o s =
      .next (s.withDev (s.dev.vexec (s.dev.benchWhere b) b (s.dev.tenantUnit b) (vinstrFor vop o) o.vaddr.toNat)) := by
  rw [vopRow_die, onDie_live _ hl, if_pos ⟨hw, hu⟩]
  rfl

end Sys2Proof.Machine

open Sys2Proof Sys2Proof.Machine

/-- Settles O48: each row is executed with the effect of its instruction, and a load of clean lines changes nothing first. -/
theorem vectorMemory : Obligations.VectorMemory := by
  unfold Obligations.VectorMemory
  refine fun s b o hl hu => ⟨fun hw => ?nop, fun hw => ⟨?ld, fun hp => ?clean⟩, fun hw => ?st, fun hw => ?bcast⟩
  case nop => exact (vopRow_executes hl hu hw).trans (by rw [Dev.vexec_nop rfl]; rfl)
  case ld => exact (vopRow_executes hl hu hw).trans (by rw [Dev.vexec_ld rfl]; rfl)
  case clean => exact Dev.consumeLoad_clean hp _ _
  case st => exact (vopRow_executes hl hu hw).trans (by rw [Dev.vexec_st rfl]; rfl)
  case bcast => exact (vopRow_executes hl hu hw).trans (by rw [Dev.vexec_bcast rfl]; rfl)
end

section
/-! SUPPORT. Waiting points: a wait that is posted, released or ended, by what stands at its point. -/

namespace Sys2Proof.Machine

section
variable {d : Dev} {w : Waiter} {c : Cmd} (hc : d.pointCmd w = some c)
include hc

theorem Dev.waitPost_mapped {x : WaitSpec} {t : Nat} (hp : d.posted (pointId w) = false) (ht : d.tearing w.p = false)
    (hx : d.waitSpec c = some x) (hm : d.phys w.p x.vt = some t) : d.waitPost w = ((d.setWait (pointId w)
      { vt := x.vt, pt := t, kind := x.kind, thresh := x.thresh, timeout := x.timeout, postedAt := d.time, latch := false
        ended := (d.tally t).overflowed }).evaluate t).endMarked := by
  simp [Dev.waitPost, hc, hp, ht, hx, hm]

theorem Dev.waitPost_unmapped {x : WaitSpec} (hp : d.posted (pointId w) = false) (ht : d.tearing w.p = false)
    (hx : d.waitSpec c = some x) (hm : d.phys w.p x.vt = none) : d.waitPost w = (d.malformed c x.bit 0xFF).dropPoint w c := by
  simp [Dev.waitPost, hc, hp, ht, hx, hm]

/-- The stockpile's point (log 69) apart, a wait that holds its release gives its command the start. -/
theorem Dev.waitRelease_starts (hk : w.kind.val ≠ 6 ∨ w.sub.val ≠ 1) (hw : (d.waitAt (pointId w)).latch = true)
    (ht : d.tearing w.p = false) (hh : d.ctlHeld c = false) :
    d.waitRelease w = (d.setWait (pointId w) Wait.none).startPoint w c := by
  have hstock : ¬ ((w.kind : Nat) = 6 ∧ (w.sub : Nat) = 1) := fun ⟨h, h'⟩ => hk.elim (· h) (· h')
  simp [Dev.waitRelease, hc, hstock, hw, ht, hh]

theorem Dev.tallyTimeout_ends (hp : d.posted (pointId w) = true) (hw : (d.waitAt (pointId w)).latch = false)
    (he : (d.waitAt (pointId w)).ended = true ∨ (d.waitAt (pointId w)).postedAt + (d.waitAt (pointId w)).timeout ≤ d.time) :
    d.tallyTimeout w = d.endWait w c := by
  have hdue : ¬ ((d.waitAt (pointId w)).ended = false ∧
      d.time < (d.waitAt (pointId w)).postedAt + (d.waitAt (pointId w)).timeout) := fun ⟨h, h'⟩ =>
    he.elim (by simp [h]) (Nat.not_le.mpr h')
  simp [Dev.tallyTimeout, hc, hp, hw, hdue]

end

end Sys2Proof.Machine

open Sys2Proof Sys2Proof.Machine

/-- Settles O51: the command at the point, and the state of its wait, decide each of the three rows. -/
theorem waitsAtTheirPoints : Obligations.WaitsAtTheirPoints := by
  unfold Obligations.WaitsAtTheirPoints
  refine fun s w c hl hc => ⟨fun x t hp ht hx hm => ?mapped, fun x hp ht hx hm => ?unmapped, fun hk hw ht hh => ?release,
    fun hp hw he => ?timeout⟩
  case mapped => rw [← Dev.waitPost_mapped hc hp ht hx hm]; exact onDie_live (fun d => d.waitPost w) hl
  case unmapped => rw [← Dev.waitPost_unmapped hc hp ht hx hm]; exact onDie_live (fun d => d.waitPost w) hl
  case release => rw [← Dev.waitRelease_starts hc hk hw ht hh]; exact onDie_live (fun d => d.waitRelease w) hl
  case timeout =>
    exact (onDie_live (fun d => d.tallyTimeout w) hl).trans (by rw [Dev.tallyTimeout_ends hc hp hw he]; rfl)
end

section
/-! SUPPORT. The end of work that copies: a haul transfer once its read-back has returned, and the command of the bed's copy
units. -/

namespace Sys2Proof.Machine

/-! The rows, on dies that run. -/

section
variable {s : State} (hl : s.dev.live = true)
include hl

theorem exec_haulComplete_live (h : Fin 16) (ch : Fin 8) :
    exec (.haulComplete h ch) s = .next { s with dev := s.dev.haulComplete h ch } :=
  onDie_live (fun d => d.haulComplete h ch) hl

theorem exec_bedComplete_live (p : Fin 4) : exec (.bedComplete p) s = .next { s with dev := s.dev.bedComplete p } :=
  onDie_live (fun d => d.bedComplete p) hl

end

/-! Haul transfers (R175 to R181). -/

section
variable {d : Dev} {h ch : Nat} {c : Cmd} {back : Nat × Bool}

/-- A transfer in CLOSING whose last write is acknowledged ends by its read-back, from the channel or, where the destination is
the module's own, from the line itself. -/
theorem Dev.haulComplete_ends (hc : (d.chan h ch).cur = some c) (hs : (d.chan h ch).state = .closing)
    (ha : (d.chan h ch).lastAcked = true) (he : (d.chan h ch).ended = false)
    (hb : (d.chan h ch).readback = some back ∨ (d.chan h ch).readback = none ∧ (haulOf c.word).dst.space ≠ 2 ∧
      d.localBack c.k.p (haulOf c.word) = some back) : d.haulComplete h ch = d.haulEnd h ch c back := by
  rcases hb with hr | ⟨hr, hd, hl⟩
  · simp [Dev.haulComplete, hc, hs, ha, he, hr]
  · simp [Dev.haulComplete, hc, hs, ha, he, hr, hd, hl]

/-- READBACK_ERROR, and the chain is FAULTED (R181, R188). -/
theorem Dev.haulEnd_error (hb : back.1 ≠ stOk) : d.haulEnd h ch c back =
    (((d.endBad h ch 0x21 (haulOf c.word).backLine (haulOf c.word).dstUnit (haulOf c.word).dstSpace
      (d.chan h ch).guardSent).faultChain c.k).settle c.k c.u).kickHaul h ch :=
  if_pos hb

end

/-! Bed commands (R375, R377). -/

section
variable {d : Dev} {p : Nat} {r : BedRun} (hr : (d.bed p).run = some r)
include hr

theorem Dev.bedComplete_stream (ho : (headerOf r.cmd.word).opcode = opStream) (ha : r.acked = true) : d.bedComplete p =
    let step := (bedOf r.cmd.word).step
    let rs := r.regions.map regionOf
    ((((d.setStateDigest p step (d.statePoisoned p false r.bad rs) (d.stateDigestOf p false rs)).bedDone p).voteIfDue p).finish
      r.cmd none).kickBed := by
  simp [Dev.bedComplete, hr, ho, ha]

/-- A snapshot or a restore whose first stripe is neither held nor LOST makes its copies. -/
theorem Dev.bedComplete_copies (ho : (headerOf r.cmd.word).opcode ≠ opStream) (hh : d.bedHeld (r.regions.map regionOf) = false)
    (hl : d.bedLost (r.regions.map regionOf) = none) : d.bedComplete p =
    let e := if (headerOf r.cmd.word).opcode = opSnapshot then d.snapshotEnd p r
      else (stripesOf (r.regions.map regionOf)).foldl (fun d x => d.copyStripe p true r.bad x) d
    ((((e.bedDone p).voteIfDue p).finish r.cmd none).snapshotBoundary p).kickBed := by
  simp [Dev.bedComplete, hr, ho, hh, hl]

end

end Sys2Proof.Machine

open Sys2Proof Sys2Proof.Machine

/-- Settles O45: a transfer ends by the read-back it has, with an error where that drew one; a bed command by its opcode. -/
theorem transfersComplete : Obligations.TransfersComplete := by
  unfold Obligations.TransfersComplete
  refine ⟨fun s h ch c back hl hc hs ha he hb => ⟨?ends, Dev.haulEnd_error⟩, fun s p r hl hr =>
    ⟨fun ho ha => ?stream, fun ho hh hn => ?snapshot, fun ho hh hn => ?restore⟩⟩
  case ends => rw [exec_haulComplete_live hl, Dev.haulComplete_ends hc hs ha he hb]
  case stream => rw [exec_bedComplete_live hl, Dev.bedComplete_stream hr ho ha]
  case snapshot =>
    have hne : (headerOf r.cmd.word).opcode ≠ opStream := by rw [ho]; decide
    rw [exec_bedComplete_live hl, Dev.bedComplete_copies hr hne hh hn, if_pos ho]
  case restore =>
    have hne : (headerOf r.cmd.word).opcode ≠ opStream := by rw [ho]; decide
    have hns : (headerOf r.cmd.word).opcode ≠ opSnapshot := by rw [ho]; decide
    rw [exec_bedComplete_live hl, Dev.bedComplete_copies hr hne hh hn, if_neg hns]
end

section
/-! SUPPORT. Outstanding requests: a response that answers one, one that stays out, and the retry after NOT_READY. -/

namespace Sys2Proof.Machine

/-! Responses that arrive (R187, R196, R291, R339). -/

section
variable {a : Dev} {n t p : Nat} {pkt : Packet} {h : PacketHeader} {r : Req}
  (ht : a.arrival n t pkt = .take p h) (hr : a.answered p h = some r)
include ht hr

theorem Dev.responseArrives_unlike (hu : unlikeRequest r h = true) : a.responseArrives n t pkt = a.malformedDrop n h := by
  simp [Dev.responseArrives, ht, hr, hu]

theorem Dev.responseArrives_notReady (hu : unlikeRequest r h = false) (hs : h.status = stNotReady) (hx : t = ptExchangeAck) :
    a.responseArrives n t pkt = a.setReq h.tag (some { r with notReadyAt := some a.time }) := by
  subst hx
  simp [Dev.responseArrives, ht, hr, hu, hs]

/-- The TAG is free again, and the unit that waits has its reply. -/
theorem Dev.responseArrives_dispatches (hu : unlikeRequest r h = false) (hs : h.status ≠ stNotReady ∨ t ≠ ptExchangeAck) :
    a.responseArrives n t pkt =
      (a.setReq h.tag none).dispatch r { status := h.status, data := pkt.payload, lines := h.byteEnOrLinePoison } := by
  have hend : ¬ (h.status = stNotReady ∧ t = ptExchangeAck) := fun ⟨hn, hx⟩ => hs.elim (· hn) (· hx)
  simp [Dev.responseArrives, ht, hr, hu, hend]

end

/-- The row of a response: a packet accepted from the link is handled in the module that accepted it, and leaves the buffer. -/
theorem responseRow_accepted {s : State} {n t : Nat} {x : Incoming} {a e : Dev} {c : Nat × Nat} (hl : s.dev.live = true)
    (ha : s.dev.accept n x = (a, some c)) (he : a.responseArrives n t x.pkt = e) :
    onDie (fun d => d.received n x (fun d => d.responseArrives n t x.pkt)) s =
      .next (s.withDev (e.leaveBuffer n (packetHeader x.pkt).vl c.1 c.2)) := by
  rw [onDie_live _ hl, Dev.received, ha, ← he]; rfl

/-- A response that NOT_READY does not hold up: it ends its request, or is malformed. -/
theorem responseRow_answers {s : State} {n t p : Nat} {x : Incoming} {a : Dev} {c : Nat × Nat} {h : PacketHeader} {r : Req}
    (hl : s.dev.live = true) (ha : s.dev.accept n x = (a, some c)) (hr : a.answered p h = some r) (hx : t ≠ ptExchangeAck)
    (ht : a.arrival n t x.pkt = .take p h) :
    let leave := fun (d : Dev) => s.withDev (d.leaveBuffer n (packetHeader x.pkt).vl c.1 c.2)
    let row := onDie (fun d => d.received n x (fun d => d.responseArrives n t x.pkt)) s
    (unlikeRequest r h = false → row = .next (leave ((a.setReq h.tag none).dispatch r
      { status := h.status, data := x.pkt.payload, lines := h.byteEnOrLinePoison }))) ∧
    (unlikeRequest r h = true → row = .next (leave (a.malformedDrop n h))) :=
  ⟨fun hu => responseRow_accepted hl ha (Dev.responseArrives_dispatches ht hr hu (.inr hx)),
    fun hu => responseRow_accepted hl ha (Dev.responseArrives_unlike ht hr hu)⟩

/-! Requests that no response has ended (R294, R339). -/

section
variable {s : State} (hl : s.dev.live = true) (tag : BitVec 16)
include hl

theorem exec_responseTimeout_live :
    exec (.responseTimeout tag) s = .next { s with dev := s.dev.responseTimeout tag.toNat } :=
  onDie_live (fun d => d.responseTimeout tag.toNat) hl

theorem exec_exchangeRetry_live : exec (.exchangeRetry tag) s = .next { s with dev := s.dev.exchangeRetry tag.toNat } :=
  onDie_live (fun d => d.exchangeRetry tag.toNat) hl

end

section
variable {d : Dev} {tag : Nat} {r : Req} (hr : d.req tag = some r)
include hr

theorem Dev.responseTimeout_due (hn : r.notReadyAt = none) (hp : r.port ≠ ownPort)
    (ht : r.sentAt + d.get kFabricRespTimeout ≤ d.time) :
    d.responseTimeout tag = (d.setReq tag none).dispatch r (replyOf stTimeout) := by
  simp [Dev.responseTimeout, hr, hn, hp, Nat.not_lt.mpr ht]

section
variable {t : Nat} (hn : r.notReadyAt = some t) (ht : t + 2000 ≤ d.time)
include hn ht

theorem Dev.exchangeRetry_resends {m : Nat} {e : Dev}
    (hp : d.pickPort (rotationOf r.p r.what) (packetHeader r.pkt).dstChip = some (m, e)) : d.exchangeRetry tag =
    let h := packetHeader r.pkt
    let pkt := packetFrom { h with plane := m } r.pkt.payload
    (e.enqueue m h.vl pkt).setReq tag (some { r with pkt := pkt, sentAt := e.time, port := m, notReadyAt := none }) := by
  simp [Dev.exchangeRetry, hr, hn, Nat.not_lt.mpr ht, hp]

theorem Dev.exchangeRetry_noRoute (hp : d.pickPort (rotationOf r.p r.what) (packetHeader r.pkt).dstChip = none) :
    d.exchangeRetry tag = (d.setReq tag none).dispatch r (replyOf stNoRoute) := by
  simp [Dev.exchangeRetry, hr, hn, Nat.not_lt.mpr ht, hp]

end

end

end Sys2Proof.Machine

open Sys2Proof Sys2Proof.Machine

/-- Settles O56: each row of a response by how it answers its request; a request that is out by its time, or by the port of its
retry. -/
theorem responsesReachTheirUnits : Obligations.ResponsesReachTheirUnits := by
  unfold Obligations.ResponsesReachTheirUnits
  refine fun s hl => ⟨fun n x a c p h r ha hr => ?rows, fun tag r hr => ⟨fun hn hp ht => ?timeout, fun t hn ht =>
    ⟨fun m d hp => ?resent, fun hp => ?noRoute⟩⟩⟩
  case rows =>
    refine ⟨responseRow_answers hl ha hr (by decide), responseRow_answers hl ha hr (by decide),
      responseRow_answers hl ha hr (by decide), fun ht => ⟨fun hu hs => ?ends, fun hu hs => ?waits, fun hu => ?unlike⟩⟩
    case ends => exact responseRow_accepted hl ha (Dev.responseArrives_dispatches ht hr hu (.inl hs))
    case waits => exact responseRow_accepted hl ha (Dev.responseArrives_notReady ht hr hu hs rfl)
    case unlike => exact responseRow_accepted hl ha (Dev.responseArrives_unlike ht hr hu)
  case timeout => rw [exec_responseTimeout_live hl, Dev.responseTimeout_due hr hn hp ht]; rfl
  case resent => exact (exec_exchangeRetry_live hl tag).trans (by rw [Dev.exchangeRetry_resends hr hn ht hp]; rfl)
  case noRoute => rw [exec_exchangeRetry_live hl, Dev.exchangeRetry_noRoute hr hn ht hp]; rfl
end

section
/-! SUPPORT. The translation tables: what an identifier translates by once its table is written, and where the tallies it maps then
stand. -/

namespace Sys2Proof.Machine

theorem SMap.get_keep {α : Type} (d : α) (q : Nat → Bool) (m : SMap α) (k : Nat) :
    SMap.get d (SMap.keep q m) k = if q k then SMap.get d m k else d := by
  induction m with
  | nil => simp [SMap.keep]
  | cons x m ih =>
    obtain ⟨j, v⟩ := x
    have hcons : SMap.keep q ((j, v) :: m) = if q j then (j, v) :: SMap.keep q m else SMap.keep q m := List.filter_cons
    rw [hcons]
    by_cases hj : j = k
    · subst hj
      by_cases hq : q j
      · simp [hq, SMap.get]
      · simpa [hq] using ih
    · split <;> simp [SMap.get, hj, ih]

/-- A list written from the key `base + n` on: below it every key keeps its value, from there on each reads its element. -/
theorem SMap.get_foldl_set {α : Type} [DecidableEq α] (dflt : Nat → α) (base : Nat) (es : List α) (n : Nat)
    (m : SMap α) (v : Nat) :
    SMap.get (dflt (base + v)) ((es.zipIdx n).foldl (fun m x => SMap.set (dflt (base + x.2)) m (base + x.2) x.1) m) (base + v) =
      if v < n then SMap.get (dflt (base + v)) m (base + v)
      else es[v - n]?.getD (SMap.get (dflt (base + v)) m (base + v)) := by
  induction es generalizing n m with
  | nil => simp
  | cons e es ih =>
    simp only [List.zipIdx_cons, List.foldl_cons, ih]
    rcases Nat.lt_trichotomy v n with h | rfl | h
    · rw [if_pos (by omega), if_pos h, SMap.get_set_ne' _ _ _ _ (by omega)]
    · simp
    · rw [if_neg (by omega), if_neg (by omega), SMap.get_set_ne' _ _ _ _ (by omega),
        show v - n = v - (n + 1) + 1 by omega, List.getElem?_cons_succ]

section
variable (d : Dev) (p : Nat)

theorem Dev.clearTallies_cell :
    (d.clearTallies p false).tallies.cell = SMap.keep (fun t => !(d.physOf p).contains t) d.tallies.cell := rfl

/-- Every tally that an identifier of the partition names stands at 0 after a clear (R212, R213). -/
theorem Dev.tally_clearTallies {v t : Nat} (hv : v < 4096) (ht : d.phys p v = some t) :
    (d.clearTallies p false).tally t = Tally.zero := by
  have hmine : (d.physOf p).contains t = true :=
    List.contains_iff_mem.mpr (List.mem_filterMap.mpr ⟨v, List.mem_range.mpr hv, ht⟩)
  rw [Dev.tally, Dev.clearTallies_cell, SMap.get_keep, hmine]
  rfl

theorem Dev.mapEntry_writeTallyMap {v : Nat} {bs : List Byte} (hv : v < (halves bs).length) :
    (d.writeTallyMap p bs).mapEntry p v = (halves bs)[v]?.getD 0 := by
  have h := SMap.get_foldl_set (fun k => 32768 + k) (4096 * p) (halves bs) 0 d.tallies.map v
  rw [if_neg (Nat.not_lt_zero v), Nat.sub_zero, List.getElem?_eq_getElem hv] at h
  rw [List.getElem?_eq_getElem hv]
  exact h

end

end Sys2Proof.Machine

open Sys2Proof Sys2Proof.Machine

/-- Settles O52: the write lists the table entry by entry, and the clear that follows reaches every tally the new table names. -/
theorem tallyMapTranslates : Obligations.TallyMapTranslates := by
  unfold Obligations.TallyMapTranslates
  exact fun d p v bs _ hv hl => ⟨d.mapEntry_writeTallyMap p hl, fun t ht => Dev.tally_clearTallies _ p hv ht⟩
end

section
/-! SUPPORT. Requests that arrive: what a port takes a packet for, whether it waits for its lines, and how it is answered. -/

namespace Sys2Proof.Machine

/-! What is taken (R291, R295). -/

/-- A packet of a TYPE that has no lane is malformed (R291). -/
theorem malformedPacket_of_lanes {pkt : Packet} (h : lanesOf (packetHeader pkt).ptype = []) : malformedPacket pkt = true := by
  have hl : lanesOf (packetOf pkt.hdr.toNat).ptype = [] := h
  simp [malformedPacket, hl]

/-- What is taken at a row is of the row's TYPE. -/
theorem Dev.arrival_take {a : Dev} {n t p : Nat} {pkt : Packet} {h : PacketHeader} (ht : a.arrival n t pkt = .take p h) :
    h = packetHeader pkt ∧ h.ptype = t := by
  unfold Dev.arrival at ht
  extract_lets x at ht
  split at ht
  · cases ht
  next hrow =>
    split at ht
    · cases ht
    split at ht
    · cases ht
    split at ht
    · cases ht
    next hform =>
      have hlane : lanesOf x.ptype ≠ [] := fun hl => hform (malformedPacket_of_lanes hl)
      have htype : x.ptype = t := by
        by_contra hne
        exact hrow (.inr ⟨hne, hlane⟩)
      split at ht
      · cases ht
      split at ht
      · cases ht
      obtain ⟨-, hx⟩ := Arrival.take.inj ht
      exact ⟨hx.symm, hx ▸ htype⟩

/-- A SIGNAL touches no line, so it waits for none. -/
theorem Dev.mustHold_signal (d : Dev) (p : Nat) {h : PacketHeader} (ht : h.ptype = ptSignal) : d.mustHold p h = false := by
  have hspan : h.span = none := if_pos ht
  rw [Dev.mustHold, hspan]

/-! The rows, for a packet accepted from the link. -/

section
variable {d a : Dev} {n p : Nat} {x : Incoming} {c : Nat × Nat} {h : PacketHeader} (ha : d.accept n x = (a, some c))
include ha

theorem Dev.serveAt_taken {t : Nat} (ht : a.arrival n t x.pkt = .take p h) (hm : a.mustHold p h = false) :
    d.serveAt n t x = (a.servePort n p x.pkt).leaveBuffer n h.vl c.1 c.2 := by
  simp [Dev.serveAt, ha, ht, hm]

theorem Dev.serveAt_held {t : Nat} (ht : a.arrival n t x.pkt = .take p h) (hm : a.mustHold p h = true) :
    d.serveAt n t x = a.hold (h.span.getD (0, 0)).1 (h.span.getD (0, 0)).2 (.port n p x.pkt c.1 c.2) := by
  simp [Dev.serveAt, ha, ht, hm]

section
variable (ht : a.arrival n ptExchange x.pkt = .take p h)
include ht

theorem Dev.exchangeArrives_held {r : Nat × Nat} (hx : a.exchangeHeld p h x.pkt.payload = some r) :
    d.exchangeArrives n x = a.hold r.1 r.2 (.port n p x.pkt c.1 c.2) := by
  simp [Dev.exchangeArrives, ha, ht, hx]

section
variable (hx : a.exchangeHeld p h x.pkt.payload = none)
include hx

theorem Dev.exchangeArrives_served (hs : (a.exchangeServe p h x.pkt.payload).2.status ≠ stMalformed) :
    d.exchangeArrives n x =
      ((a.exchangeServe p h x.pkt.payload).1.respond n h (a.exchangeServe p h x.pkt.payload).2).leaveBuffer n h.vl c.1 c.2 := by
  simp [Dev.exchangeArrives, ha, ht, hx, hs]

theorem Dev.exchangeArrives_malformed (hs : (a.exchangeServe p h x.pkt.payload).2.status = stMalformed) :
    d.exchangeArrives n x = ((a.exchangeServe p h x.pkt.payload).1.malformedDrop n h).leaveBuffer n h.vl c.1 c.2 := by
  simp [Dev.exchangeArrives, ha, ht, hx, hs]

end

end

end

section
variable {s : State} (hl : s.dev.live = true) (n : Fin 16) (x : Incoming)
include hl

theorem exec_write_live : exec (.write n x) s = .next (s.withDev (s.dev.serveAt n ptWrite x)) :=
  onDie_live (fun d => d.serveAt n ptWrite x) hl

theorem exec_readReq_live : exec (.readReq n x) s = .next (s.withDev (s.dev.serveAt n ptReadReq x)) :=
  onDie_live (fun d => d.serveAt n ptReadReq x) hl

theorem exec_remoteSignal_live : exec (.remoteSignal n x) s = .next (s.withDev (s.dev.serveAt n ptSignal x)) :=
  onDie_live (fun d => d.serveAt n ptSignal x) hl

theorem exec_exchange_live : exec (.exchange n x) s = .next (s.withDev (s.dev.exchangeArrives n x)) :=
  onDie_live (fun d => d.exchangeArrives n x) hl

end

/-! What is performed (R292, R295, R300). -/

/-- A request that is turned away is not answered OK. -/
theorem Dev.denied_status {d : Dev} {p : Nat} {h : PacketHeader} {r : Dev × Reply} (hd : d.denied p h = some r) :
    r.2.status ≠ stOk := by
  unfold Dev.denied at hd
  split at hd
  · cases hd
  split at hd
  · cases hd
    exact show stAccessDenied ≠ stOk by decide
  split at hd
  · cases hd
    exact Nat.ne_of_gt (Nat.lt_of_lt_of_le Nat.one_pos (Nat.le_add_right 1 _))
  · cases hd

/-- A request that is answered OK has been performed. -/
theorem Dev.serve_of_ok {d : Dev} {own : Bool} {p : Nat} {h : PacketHeader} {bs : List Byte}
    (hs : (d.serve own p h bs).2.status = stOk) : d.serve own p h bs = d.perform own p h bs := by
  unfold Dev.serve at hs ⊢
  split
  next r hd =>
    rw [hd] at hs
    exact absurd hs (Dev.denied_status hd)
  · rfl

theorem Dev.perform_read {d : Dev} {own : Bool} {p : Nat} {h : PacketHeader} {bs : List Byte} (ht : h.ptype = ptReadReq) :
    d.perform own p h bs = (d, d.readLines h.offset (h.linesM1 + 1)) := by
  have hne : ptReadReq ≠ ptSignal := by decide
  rw [Dev.perform, ht, if_neg hne, if_pos rfl]

/-- Nothing is carried where nothing was met beside the array. -/
theorem Dev.carry_of_empty {d : Dev} (hc : d.mem.carried = []) (who : Requester) (off n : Nat) : d.carry who off n = ([], d) := by
  have hm : { d.mem with carried := [] } = d.mem := by rw [← hc]
  simp only [Dev.carry, hc, List.filter_nil, List.map_nil, hm]

section
variable {d : Dev} (n p : Nat) {pkt : Packet}

theorem Dev.servePort_answers (ht : (packetHeader pkt).ptype = ptWrite ∨ (packetHeader pkt).ptype = ptSignal) :
    d.servePort n p pkt = ((d.serve false p (packetHeader pkt) pkt.payload).1.respond n (packetHeader pkt)
      (d.serve false p (packetHeader pkt) pkt.payload).2).endMarked := by
  have hx : (packetHeader pkt).ptype ≠ ptExchange := by rcases ht with h | h <;> rw [h] <;> decide
  have hr : (packetHeader pkt).ptype ≠ ptReadReq := by rcases ht with h | h <;> rw [h] <;> decide
  simp [Dev.servePort, hx, hr]

theorem Dev.servePort_reads (ht : (packetHeader pkt).ptype = ptReadReq)
    (hs : (d.serve false p (packetHeader pkt) pkt.payload).2.status = stOk) (hc : d.mem.carried = []) :
    d.servePort n p pkt = d.respond n (packetHeader pkt)
      (d.readLines (packetHeader pkt).offset ((packetHeader pkt).linesM1 + 1)) := by
  have hx : (packetHeader pkt).ptype ≠ ptExchange := by rw [ht]; decide
  have hp := (Dev.serve_of_ok hs).trans (Dev.perform_read ht)
  have hok : (d.readLines (packetHeader pkt).offset ((packetHeader pkt).linesM1 + 1)).status = stOk := rfl
  unfold Dev.servePort
  simp only [if_neg hx, hp, if_pos (And.intro ht hok), Dev.carry_of_empty hc, List.foldl_nil]

end

end Sys2Proof.Machine

open Sys2Proof Sys2Proof.Machine

/-- Settles O55: each row by whether its lines are held, a SIGNAL by having none, an EXCHANGE by its answer; then what is served. -/
theorem requestsAreServed : Obligations.RequestsAreServed := by
  unfold Obligations.RequestsAreServed
  refine ⟨fun s n x a c p h hl ha => ⟨fun ht => ⟨fun hm => ?write, fun hm => ?writeHeld⟩,
      fun ht => ⟨fun hm => ?read, fun hm => ?readHeld⟩, fun ht => ?signal,
      fun ht => ⟨fun hx hs => ?exchange, fun hx hs => ?malformed, fun off m hx => ?exchangeHeld⟩⟩,
    fun d n p pkt => ⟨d.servePort_answers n p, d.servePort_reads n p⟩⟩
  case write => rw [exec_write_live hl, Dev.serveAt_taken ha ht hm]
  case writeHeld => rw [exec_write_live hl, Dev.serveAt_held ha ht hm]
  case read => rw [exec_readReq_live hl, Dev.serveAt_taken ha ht hm]
  case readHeld => rw [exec_readReq_live hl, Dev.serveAt_held ha ht hm]
  case signal =>
    rw [exec_remoteSignal_live hl, Dev.serveAt_taken ha ht (a.mustHold_signal p (Dev.arrival_take ht).2)]
  case exchange => rw [exec_exchange_live hl, Dev.exchangeArrives_served ha ht hx hs]
  case malformed => rw [exec_exchange_live hl, Dev.exchangeArrives_malformed ha ht hx hs]
  case exchangeHeld => rw [exec_exchange_live hl, Dev.exchangeArrives_held ha ht hx]
end

section
/-! SUPPORT. Signals: what a signal does at its home, what it leaves alone, and when nothing there is granted or ended. -/

namespace Sys2Proof.Machine

/-! What a test selects of a table, where it passes over the key that is written. -/

section
variable {α : Type} (m : SMap α) {k : Nat} {q : Nat × α → Bool} (hq : ∀ w, q (k, w) = false)
include hq

theorem SMap.filter_erase : (SMap.erase m k).filter q = m.filter q := by
  induction m with
  | nil => rfl
  | cons x m ih =>
    obtain ⟨j, w⟩ := x
    by_cases hj : j = k
    · subst hj; simp [SMap.erase, hq, ih]
    · simp [SMap.erase, hj, List.filter_cons, ih]

theorem SMap.filter_insert (v : α) : (SMap.insert m k v).filter q = m.filter q := by
  induction m with
  | nil => simp [SMap.insert, hq]
  | cons x m ih =>
    obtain ⟨j, w⟩ := x
    by_cases hj : j = k
    · subst hj; simp [SMap.insert, hq]
    · by_cases hlt : k < j
      · simp [SMap.insert, hj, hlt, hq]
      · simp [SMap.insert, hj, hlt, List.filter_cons, ih]

theorem SMap.filter_set [DecidableEq α] (d v : α) : (SMap.set d m k v).filter q = m.filter q := by
  unfold SMap.set
  split
  · exact SMap.filter_erase m hq
  · exact SMap.filter_insert m hq v

end

/-! Records write FAULT_SEQ_NEXT, FAULT_RECORDS and the counters of notices. -/

theorem Dev.get_withMgmt (d : Dev) (m : Mgmt) (k : Nat) : Dev.get { d with mgmt := m } k = d.get k := rfl

theorem Dev.get_notify (d : Dev) (r : Nat) {k : Nat} (h : k / 256 ≠ 0x9038) : (d.notify r).get k = d.get k := by
  have hs : k ≠ kNoticesSent := by rintro rfl; exact h (by decide)
  have hd : k ≠ kNoticesDropped := by rintro rfl; exact h (by decide)
  have hsent : ∀ c hdr bs, ((d.sendT1s c hdr bs).bump kNoticesSent 1).get k = d.get k := fun c hdr bs => by
    rw [Dev.get_bump_ne _ _ hs, Dev.get_sendT1s]
  simp only [Dev.notify]
  split
  · rfl
  · rw [Dev.get_withMgmt]
    split
    · exact (Dev.get_bump_ne _ _ hd).trans (hsent _ _ _)
    · exact hsent _ _ _

theorem Dev.get_record (d : Dev) (w : Where) (t c : Nat) (b : List (Nat × Nat)) {k : Nat} (hn : k / 256 ≠ 0x9038)
    (hc : k / 256 ≠ 0x9037) (hf : k / 256 ≠ 0xA000) : (d.record w t c b).get k = d.get k := by
  have hs : k ≠ kFaultSeqNext := by rintro rfl; exact hf (by decide)
  have hr : k ≠ kFaultRecords := by rintro rfl; exact hc (by decide)
  have hw : ∀ (e : Dev) v, ((e.put kFaultSeqNext v).bump kFaultRecords 1).get k = e.get k := fun e v => by
    rw [Dev.get_bump_ne _ _ hr, Dev.get_put_ne _ _ hs]
  unfold Dev.record
  extract_lets
  split
  · rw [Dev.get_notify _ _ hn, Dev.get_msix, hw]; rfl
  · rw [hw]; rfl

/-! The delivery of a payload writes the accumulators alone (R221). -/

theorem Dev.deliver_frame (d : Dev) (p v x : Nat) :
    { d.deliver p v x with tallies := { (d.deliver p v x).tallies with payload := d.tallies.payload } } = d := by
  refine foldl_field (fun e : Dev => { e with tallies := { e.tallies with payload := d.tallies.payload } }) _ ?_ _ d
  exact fun _ _ => rfl

/-- A signal is counted and its payload delivered, before its count is added. -/
def Dev.signalIn (d : Dev) (x : Signal) : Dev := (d.bump kTallySignals 1).deliver x.p x.vt x.payload

section
variable (d : Dev) (x : Signal)

theorem Dev.signalIn_frame :
    { d.signalIn x with tallies := { (d.signalIn x).tallies with payload := d.tallies.payload } } = d.bump kTallySignals 1 :=
  Dev.deliver_frame _ _ _ _

@[simp] theorem Dev.signalIn_dict : (d.signalIn x).dict = (d.bump kTallySignals 1).dict :=
  (congrArg Dev.dict (d.signalIn_frame x) :)
@[simp] theorem Dev.signalIn_mem : (d.signalIn x).mem = d.mem := (congrArg Dev.mem (d.signalIn_frame x) :)
@[simp] theorem Dev.signalIn_seqs : (d.signalIn x).seqs = d.seqs := (congrArg Dev.seqs (d.signalIn_frame x) :)
@[simp] theorem Dev.signalIn_fabric : (d.signalIn x).fabric = d.fabric := (congrArg Dev.fabric (d.signalIn_frame x) :)
@[simp] theorem Dev.signalIn_training : (d.signalIn x).training = d.training := (congrArg Dev.training (d.signalIn_frame x) :)

@[simp] theorem Dev.signalIn_cell : (d.signalIn x).tallies.cell = d.tallies.cell :=
  (congrArg (fun e : Dev => e.tallies.cell) (d.signalIn_frame x) :)

@[simp] theorem Dev.signalIn_waits : (d.signalIn x).tallies.waits = d.tallies.waits :=
  (congrArg (fun e : Dev => e.tallies.waits) (d.signalIn_frame x) :)

@[simp] theorem Dev.signalIn_flight : (d.signalIn x).tallies.flight = d.tallies.flight :=
  (congrArg (fun e : Dev => e.tallies.flight) (d.signalIn_frame x) :)

@[simp] theorem Dev.signalIn_map : (d.signalIn x).tallies.map = d.tallies.map :=
  (congrArg (fun e : Dev => e.tallies.map) (d.signalIn_frame x) :)

@[simp] theorem Dev.signalIn_inFlight : (d.signalIn x).tallies.inFlight = d.tallies.inFlight :=
  (congrArg (fun e : Dev => e.tallies.inFlight) (d.signalIn_frame x) :)

@[simp] theorem Dev.signalIn_granted : (d.signalIn x).tallies.granted = d.tallies.granted :=
  (congrArg (fun e : Dev => e.tallies.granted) (d.signalIn_frame x) :)

@[simp] theorem Dev.tally_signalIn (t : Nat) : (d.signalIn x).tally t = d.tally t := by
  rw [Dev.tally, Dev.signalIn_cell, Dev.tally]

theorem Dev.get_signalIn {k : Nat} (h : k ≠ kTallySignals) : (d.signalIn x).get k = d.get k :=
  (Dev.get_congr (d.signalIn_dict x) k).trans (Dev.get_bump_ne d 1 h)

@[simp] theorem Dev.setTally_flight (t : Nat) (c : Tally) : (d.setTally t c).tallies.flight = d.tallies.flight := rfl
@[simp] theorem Dev.setTally_map (t : Nat) (c : Tally) : (d.setTally t c).tallies.map = d.tallies.map := rfl
@[simp] theorem Dev.setTally_inFlight (t : Nat) (c : Tally) : (d.setTally t c).tallies.inFlight = d.tallies.inFlight := rfl
@[simp] theorem Dev.setTally_granted (t : Nat) (c : Tally) : (d.setTally t c).tallies.granted = d.tallies.granted := rfl

theorem Dev.tally_setTally_ne {t u : Nat} (c : Tally) (h : u ≠ t) : (d.setTally t c).tally u = d.tally u :=
  SMap.get_set_ne _ _ c h

/-! A signal at its home (R199, R203, R211). -/

section
variable {x}

theorem Dev.applySignal_unmapped (h : d.phys x.p x.vt = none) : d.applySignal x =
    (d.bump kUnmappedSignals 1).record (atPart x.p) 0x203 0
      [(12, x.vt), (16, x.chip.getD d.fabric.coords.chip), (1, b2n x.guard)] := by
  rw [Dev.applySignal, h]

variable {t : Nat} (h : d.phys x.p x.vt = some t)
include h

theorem Dev.applySignal_overflows (hc : 0xFFFFFFFF < (d.tally t).count + x.count) : d.applySignal x =
    ((((d.signalIn x).setTally t { d.tally t with count := 0xFFFFFFFF, overflowed := true }).bump kTallyOverflows 1).record
      (signalWhere x) 0x202 2 [(12, x.vt), (14, t), (1, b2n x.chip.isSome), (16, x.chip.getD 0)]).endWaits t := by
  unfold Dev.applySignal
  rw [h, ← d.tally_signalIn x t] at *
  exact if_pos hc

/-- Of the tallies, the overflow writes the signal's own. -/
theorem Dev.tally_applySignal_overflows (hc : 0xFFFFFFFF < (d.tally t).count + x.count) (u : Nat) : (d.applySignal x).tally u =
    ((d.signalIn x).setTally t { d.tally t with count := 0xFFFFFFFF, overflowed := true }).tally u := by
  rw [Dev.applySignal_overflows d h hc]
  simp only [Dev.endWaits, Dev.tally, Dev.record_tallies, Dev.bump_tallies]

theorem Dev.applySignal_adds (hc : (d.tally t).count + x.count ≤ 0xFFFFFFFF) : d.applySignal x =
    ((d.signalIn x).setTally t { d.tally t with count := (d.tally t).count + x.count }).evaluate t := by
  unfold Dev.applySignal
  rw [h, ← d.tally_signalIn x t] at *
  exact if_neg (Nat.not_lt.mpr hc)

end

end

/-! Who waits at a tally (R203, R219, R220). -/

theorem Dev.mem_barrierSlots {d : Dev} {p i : Nat} (h : i ∈ d.barrierSlots p) : i < 64 := by
  simp only [Dev.barrierSlots, List.mem_map, List.mem_filter, Bool.and_eq_true, decide_eq_true_eq] at h
  obtain ⟨x, ⟨-, hlo, hhi⟩, rfl⟩ := h
  simp only [kBarrier, key] at hlo hhi ⊢
  omega

theorem Dev.barrierSlots_congr {d e : Dev} (h : e.dict = d.dict) (p : Nat) : e.barrierSlots p = d.barrierSlots p := by
  rw [Dev.barrierSlots, h, Dev.barrierSlots]

/-- An entry outside the BARRIER entries of the partition makes no slot. -/
theorem Dev.barrierSlots_put (d : Dev) {p k : Nat} (v : Nat) (h : k / 256 ≠ 0x6310 + p) :
    (d.put k v).barrierSlots p = d.barrierSlots p := by
  have hout : ¬ (kBarrier p 0 ≤ k ∧ k ≤ kBarrier p 63) := by simp only [kBarrier, key]; omega
  refine congrArg _ (SMap.filter_set _ (fun w => ?_) _ _)
  simpa using hout

/-- The waits that need no posting depend on the state of the tally, the tables, the agents and the stockpiles alone. -/
theorem Dev.ownTakers_congr {d e : Dev} {t : Nat} (ho : (e.tally t).overflowed = (d.tally t).overflowed)
    (hm : e.tallies.map = d.tallies.map) (hf : e.tallies.inFlight = d.tallies.inFlight) (hg : e.tallies.granted = d.tallies.granted)
    (ht : e.training = d.training) (hk : ∀ k, k / 256 ≠ 0x9033 → e.get k = d.get k)
    (hs : ∀ p < 4, e.barrierSlots p = d.barrierSlots p) : e.ownTakers t = d.ownTakers t := by
  have hphys : ∀ p v, e.phys p v = d.phys p v := fun p v => by rw [Dev.phys, Dev.mapEntry, hm, Dev.phys, Dev.mapEntry]
  have hbarrier : ∀ p < 4, ∀ i < 64, e.barrier p i = d.barrier p i := fun p hp i hi => by
    rw [Dev.barrier, hk _ (by rw [kBarrier, key_div _ (by omega)]; omega), Dev.barrier]
  have hstock : ∀ p < 4, e.stockWaits p = d.stockWaits p := fun p hp => by
    have htrain : e.train p = d.train p := by rw [Dev.train, ht, Dev.train]
    have hstate := hk (kPartState p) (by rw [kPartState, key_div _ (by omega)]; omega)
    have hbytes := hk (kStockpileSlotBytes p) (by rw [kStockpileSlotBytes, key_div _ (by omega)]; omega)
    have hblock := hk (kStepBlockAddr p) (by rw [kStepBlockAddr, key_div _ (by omega)]; omega)
    rw [Dev.stockWaits, Dev.pState, htrain, hstate, hbytes, hblock, Dev.stockWaits, Dev.pState]
  unfold Dev.ownTakers
  rw [ho]
  split
  · rfl
  refine List.flatMap_congr fun p hp => ?_
  have hp4 : p < 4 := List.mem_range.mp hp
  have htally := hk (kStockInputTally p) (by rw [kStockInputTally, key_div _ (by omega)]; omega)
  have hsignals := hk (kStockInputSignals p) (by rw [kStockInputSignals, key_div _ (by omega)]; omega)
  have hagents : (d.barrierSlots p).filter (fun i => e.agentWaits p i && decide (e.phys p (e.barrier p i).leaf = some t)) =
      (d.barrierSlots p).filter (fun i => d.agentWaits p i && decide (d.phys p (d.barrier p i).leaf = some t)) :=
    List.filter_congr fun i hi => by
      simp only [Dev.agentWaits, hphys, hf, hg, hbarrier p hp4 i (Dev.mem_barrierSlots hi)]
  rw [hstock p hp4, hphys, htally, hsignals, hs p hp4, hagents]
  refine congrArg _ (List.map_congr_left fun i hi => ?_)
  rw [hbarrier p hp4 i (Dev.mem_barrierSlots (List.mem_filter.mp hi).1)]

/-- A signal that is counted changes none of the waits that need no posting. -/
theorem Dev.ownTakers_counted (d : Dev) (x : Signal) (t n : Nat) :
    ((d.signalIn x).setTally t { d.tally t with count := n }).ownTakers t = d.ownTakers t := by
  refine Dev.ownTakers_congr ?_ (by simp) (by simp) (by simp) (by simp) (fun k hk => ?_) fun p hp => ?_
  · rw [Dev.tally_setTally]
  · exact d.get_signalIn x (by rintro rfl; exact hk (by decide))
  · have hkey : kTallySignals / 256 ≠ 0x6310 + p := by rw [kTallySignals, key_div _ (by omega)]; omega
    exact (Dev.barrierSlots_congr (d.signalIn_dict x) p).trans (d.barrierSlots_put _ hkey)

/-- An OVERFLOWED tally releases no one (R199). -/
theorem Dev.evaluate_overflowed {d : Dev} {t : Nat} (h : (d.tally t).overflowed = true) : d.evaluate t = d := if_pos h

/-- A tally at which no one waits is left as it is. -/
theorem Dev.evaluate_unwaited {d : Dev} {t : Nat} (hw : d.tallies.waits = []) (ho : d.ownTakers t = []) : d.evaluate t = d := by
  have hon : ∀ kind, d.waitsOn t kind = [] := fun kind => by rw [Dev.waitsOn, hw]; rfl
  have htakers : d.takers t = [] := by simp [Dev.takers, hon, ho, ordered]
  unfold Dev.evaluate
  split
  · rfl
  · simp [hon, htakers]

/-! Waits that an overflow has ended (R199). -/

theorem Dev.endMarked_of_noWaitEnded {d : Dev} (h : NoWaitEnded d) : d.endMarked = d := by
  have hnone : d.tallies.waits.filter (fun x => x.2.ended && decide (x.1 < 65536)) = [] :=
    List.filter_eq_nil_iff.mpr fun y hy => by simp [h y hy]
  unfold Dev.endMarked
  rw [hnone]
  rfl

/-! The n-th signal on its way. -/

/-- The n-th signal leaves the flight. -/
def Dev.unflown (d : Dev) (n : Nat) : Dev :=
  { d with tallies := { d.tallies with flight := d.tallies.flight.eraseIdx n } }

/-- The module once the n-th signal has left the flight and been applied, or dropped under an old epoch (R214). -/
def Dev.landed (d : Dev) (n : Nat) (x : Signal) : Dev :=
  if x.epoch = d.get (kPartEpoch x.p) then (d.unflown n).applySignal x else (d.unflown n).bump kStaleSignals 1

/-- The command of a signal completes where the signal does so at its home (R196). -/
def Dev.signalDone (d : Dev) (x : Signal) : Dev :=
  match x.cmd with
  | some c => if x.completes then (d.ctlDone c).settle c.k c.u else d
  | none => d

theorem Dev.tallySignal_lands {d : Dev} {n : Nat} {x : Signal} (hx : d.tallies.flight[n]? = some x) :
    d.tallySignal n = ((d.landed n x).signalDone x).endMarked := by
  unfold Dev.tallySignal
  rw [hx]
  rfl

theorem Dev.signalDone_none (d : Dev) {x : Signal} (hc : x.cmd = none) : d.signalDone x = d := by
  rw [Dev.signalDone, hc]

theorem Dev.signalDone_going (d : Dev) {x : Signal} {c : Cmd} (hc : x.cmd = some c) (hd : x.completes = false) :
    d.signalDone x = d := by
  simp [Dev.signalDone, hc, hd]

theorem Dev.signalDone_completes (d : Dev) {x : Signal} {c : Cmd} (hc : x.cmd = some c) (hd : x.completes = true) :
    d.signalDone x = (d.ctlDone c).settle c.k c.u := by
  simp [Dev.signalDone, hc, hd]

/-- A signal of an old epoch is dropped and counted; it ends no wait. -/
theorem Dev.landed_stale {d : Dev} {n : Nat} {x : Signal} (hw : NoWaitEnded d) (hx : x.epoch ≠ d.get (kPartEpoch x.p)) :
    (d.landed n x).endMarked = (d.unflown n).bump kStaleSignals 1 := by
  rw [Dev.landed, if_neg hx]
  exact Dev.endMarked_of_noWaitEnded hw

/-- Where no one waits, a signal within the range is counted, and nothing else is done at its home. -/
theorem Dev.landed_counted {d : Dev} {n h : Nat} {x : Signal} (hw : d.tallies.waits = []) (hx : x.epoch = d.get (kPartEpoch x.p))
    (hp : d.phys x.p x.vt = some h) (hc : (d.tally h).count + x.count ≤ 0xFFFFFFFF) (ho : d.ownTakers h = []) :
    (d.landed n x).endMarked =
      ((d.unflown n).signalIn x).setTally h { (d.unflown n).tally h with count := (d.tally h).count + x.count } := by
  have hwaits : (((d.unflown n).signalIn x).setTally h
      { (d.unflown n).tally h with count := (d.tally h).count + x.count }).tallies.waits = [] :=
    ((d.unflown n).signalIn_waits x).trans hw
  have hown : (((d.unflown n).signalIn x).setTally h
      { (d.unflown n).tally h with count := (d.tally h).count + x.count }).ownTakers h = [] :=
    ((d.unflown n).ownTakers_counted x h _).trans ho
  rw [Dev.landed, if_pos hx, (d.unflown n).applySignal_adds hp hc,
    show ((d.unflown n).tally h).count = (d.tally h).count from rfl, Dev.evaluate_unwaited hwaits hown]
  exact Dev.endMarked_of_noWaitEnded fun y hy => by rw [hwaits] at hy; cases hy

theorem exec_tallySignal_live {s : State} (hl : s.dev.live = true) (n : Nat) :
    exec (.tallySignal n) s = .next { s with dev := s.dev.tallySignal n } :=
  onDie_live (fun d => d.tallySignal n) hl

end Sys2Proof.Machine

open Sys2Proof Sys2Proof.Machine

/-- Settles O50: a signal lands by its epoch and its command; at its home by the table entry, the count and the tally's state. -/
theorem signalsReachTheirHome : Obligations.SignalsReachTheirHome := by
  unfold Obligations.SignalsReachTheirHome
  refine ⟨fun s n x hl hx => ⟨_, exec_tallySignal_live hl n, rfl, rfl, fun hc => ?plain, fun c hc hd => ?going,
      fun c hc hd => ?complete, fun hw hc he => ?stale, fun h hw hc he hp hr ho => ?counted⟩,
    fun d x => ⟨fun t ht hc => ?overflows, fun t ht hc ho => ?overflowed, fun hu => ?unmapped⟩⟩
  case plain => exact (Dev.tallySignal_lands hx).trans (by rw [Dev.signalDone_none _ hc]; rfl)
  case going => exact (Dev.tallySignal_lands hx).trans (by rw [Dev.signalDone_going _ hc hd]; rfl)
  case complete => exact (Dev.tallySignal_lands hx).trans (by rw [Dev.signalDone_completes _ hc hd]; rfl)
  case stale =>
    rw [Dev.tallySignal_lands hx, Dev.signalDone_none _ hc, Dev.landed_stale hw he]
    exact ⟨rfl, Dev.get_bump_self _ _ _, rfl, rfl⟩
  case counted =>
    rw [Dev.tallySignal_lands hx, Dev.signalDone_none _ hc, Dev.landed_counted hw he hp hr ho]
    refine ⟨by rw [Dev.tally_setTally], fun u hu => ?_, by simp [Dev.unflown], by simp [Dev.unflown], by simp [Dev.unflown],
      by simp [Dev.unflown]⟩
    rw [Dev.tally_setTally_ne _ _ hu, Dev.tally_signalIn]
    rfl
  case overflows =>
    have htally := d.tally_applySignal_overflows ht hc
    refine ⟨by rw [htally, Dev.tally_setTally], by rw [htally, Dev.tally_setTally], fun u hu => ?_⟩
    rw [htally, Dev.tally_setTally_ne _ _ hu, Dev.tally_signalIn]
  case overflowed =>
    rw [Dev.applySignal_adds d ht hc, Dev.evaluate_overflowed (by rw [Dev.tally_setTally]; exact ho)]
    exact ⟨by rw [Dev.tally_setTally], d.signalIn_waits x⟩
  case unmapped =>
    rw [Dev.applySignal_unmapped d hu, Dev.record_tallies, Dev.bump_tallies,
      Dev.get_record _ _ _ _ _ (by decide) (by decide) (by decide), Dev.get_bump_self]
    exact ⟨rfl, rfl⟩
end

section
/-! SUPPORT. Barriers and votes: what a release turns and what it leaves alone, the ARRIVE that is sent, and the vote at its
moment. -/

namespace Sys2Proof.Machine

/-! What stands in a table after a write, and what reading finds there. -/

section
variable {α : Type} {m : SMap α} {k : Nat}

theorem SMap.mem_erase {y : Nat × α} (h : y ∈ SMap.erase m k) : y ∈ m := by
  induction m with
  | nil => exact h
  | cons x m ih =>
    obtain ⟨j, w⟩ := x
    by_cases hj : j = k
    · simp only [SMap.erase, hj, if_true] at h
      exact List.mem_cons_of_mem _ (ih h)
    · simp only [SMap.erase, hj, if_false] at h
      exact List.mem_cons.mpr ((List.mem_cons.mp h).imp id ih)

theorem SMap.mem_insert {v : α} {y : Nat × α} (h : y ∈ SMap.insert m k v) : y ∈ m ∨ y = (k, v) := by
  induction m with
  | nil => exact .inr (List.mem_singleton.mp h)
  | cons x m ih =>
    obtain ⟨j, w⟩ := x
    by_cases hj : j = k
    · simp only [SMap.insert, hj, if_true, List.mem_cons] at h ⊢
      tauto
    · by_cases hlt : k < j
      · simp only [SMap.insert, hj, hlt, if_true, if_false, List.mem_cons] at h ⊢
        tauto
      · simp only [SMap.insert, hj, hlt, if_false, List.mem_cons] at h ⊢
        rcases h with h | h
        · exact .inl (.inl h)
        · exact (ih h).imp .inr id

theorem SMap.mem_set [DecidableEq α] {d v : α} {y : Nat × α} (h : y ∈ SMap.set d m k v) : y ∈ m ∨ y = (k, v) := by
  unfold SMap.set at h
  split at h
  · exact .inl (SMap.mem_erase h)
  · exact SMap.mem_insert h

theorem SMap.mem_of_get (d : α) (m : SMap α) (k : Nat) : (k, SMap.get d m k) ∈ m ∨ SMap.get d m k = d := by
  induction m with
  | nil => exact .inr rfl
  | cons x m ih =>
    obtain ⟨j, w⟩ := x
    by_cases hj : j = k
    · subst hj; simp [SMap.get]
    · simp only [SMap.get, hj, if_false]
      exact ih.imp (List.mem_cons_of_mem _) id

end

theorem NSet.mem_add (s : NSet) (k : Nat) : NSet.mem (NSet.add s k) k = true := by
  induction s with
  | nil => simp [NSet.add, NSet.mem]
  | cons j s ih =>
    unfold NSet.add
    split
    · simp_all [NSet.mem]
    · split
      · simp [NSet.mem]
      · simp only [NSet.mem, List.contains_cons, Bool.or_eq_true] at ih ⊢
        exact .inr ih

/-! What an evaluation and a signal within the range leave alone. -/

/-- From `d` to `e` no wait ends, no vote is sent, and no barrier generation turns. -/
structure Dev.Calm (d e : Dev) : Prop where
  waits : NoWaitEnded d → NoWaitEnded e
  voteSent : ∀ p, (e.train p).voteSent = (d.train p).voteSent
  gens : ∀ (p : Fin 4) (i : Fin 64), e.get (kBarrierGen p i) = d.get (kBarrierGen p i)

theorem Dev.Calm.refl (d : Dev) : d.Calm d := ⟨id, fun _ => rfl, fun _ _ => rfl⟩

theorem Dev.Calm.trans {a b c : Dev} (h : a.Calm b) (h' : b.Calm c) : a.Calm c :=
  ⟨fun hw => h'.waits (h.waits hw), fun p => (h'.voteSent p).trans (h.voteSent p), fun p i => (h'.gens p i).trans (h.gens p i)⟩

theorem Dev.Calm.foldl {β : Type} {f : Dev → β → Dev} {l : List β} (h : ∀ b ∈ l, ∀ d : Dev, d.Calm (f d b)) (d : Dev) :
    d.Calm (l.foldl f d) := by
  induction l generalizing d with
  | nil => exact .refl d
  | cons b l ih =>
    exact (h b (List.mem_cons_self ..) d).trans (ih (fun c hc => h c (List.mem_cons_of_mem _ hc)) _)

/-- The key of a barrier generation. -/
theorem kBarrierGen_div (p : Fin 4) (i : Fin 64) : kBarrierGen p i / 256 = 0x6310 + p := key_div _ (by omega)

theorem Dev.Calm.of_eq {d e : Dev} (hw : e.tallies.waits = d.tallies.waits) (ht : e.training = d.training)
    (hk : ∀ k, k / 256 < 0x9000 → e.get k = d.get k) : d.Calm e where
  waits h y hy := h y (hw ▸ hy)
  voteSent p := by rw [Dev.train, ht, Dev.train]
  gens p i := hk _ (by rw [kBarrierGen_div]; omega)

section
variable (d : Dev)

/-- Counters stand at the indices from 0x9000 on. -/
theorem Dev.calm_bump {k : Nat} (n : Nat) (hk : 0x9000 ≤ k / 256) : d.Calm (d.bump k n) :=
  .of_eq rfl rfl fun _ hj => Dev.get_bump_ne d n (by rintro rfl; omega)

theorem Dev.calm_record (w : Where) (t c : Nat) (b : List (Nat × Nat)) : d.Calm (d.record w t c b) :=
  .of_eq (by rw [Dev.record_tallies]) (d.record_training w t c b) fun _ hk =>
    d.get_record w t c b (by omega) (by omega) (by omega)

theorem Dev.calm_setTally (t : Nat) (c : Tally) : d.Calm (d.setTally t c) := .of_eq rfl rfl fun _ _ => rfl

theorem Dev.calm_signalIn (x : Signal) : d.Calm (d.signalIn x) :=
  .of_eq (d.signalIn_waits x) (d.signalIn_training x) fun _ hk =>
    d.get_signalIn x (by rintro rfl; exact absurd hk (by decide))

theorem Dev.calm_setWait (id : Nat) {w : Wait} (hw : NoWaitEnded d → w.ended = false) : d.Calm (d.setWait id w) where
  waits h y hy := (SMap.mem_set hy).elim (h y) fun e => by rw [e]; exact hw h
  voteSent _ := rfl
  gens _ _ := rfl

theorem Dev.train_setTrain_ne {p q : Nat} (x : Train) (h : q ≠ p) : (d.setTrain p x).train q = d.train q :=
  SMap.get_set_ne _ _ x h

theorem Dev.calm_setTrain (p : Nat) {x : Train} (hx : x.voteSent = (d.train p).voteSent) : d.Calm (d.setTrain p x) where
  waits := id
  voteSent q := by
    by_cases h : q = p
    · rw [h, Dev.train_setTrain, hx]
    · rw [Dev.train_setTrain_ne _ _ h]
  gens _ _ := rfl

theorem Dev.waitAt_ended {d : Dev} (h : NoWaitEnded d) (id : Nat) : (d.waitAt id).ended = false :=
  (SMap.mem_of_get Wait.none d.tallies.waits id).elim (h _) fun e => by rw [Dev.waitAt, e]; rfl

/-- A grant at its waiter: an agent's, the stockpile's, or a posted wait's (R219, R221, R363). -/
theorem Dev.calm_granted (id : Nat) : d.Calm (d.granted id) := by
  unfold Dev.granted
  extract_lets p
  split
  · exact .of_eq rfl rfl fun _ _ => rfl
  · split
    · exact d.calm_setTrain p rfl
    · exact d.calm_setWait id fun h => Dev.waitAt_ended h id

theorem Dev.calm_tryGrant (t : Nat) (x : Taker) : d.Calm (d.tryGrant t x) := by
  unfold Dev.tryGrant
  extract_lets c
  split
  · exact ((d.calm_setTally t _).trans (Dev.calm_granted _ x.id)).trans (Dev.calm_bump _ 1 (by decide))
  · exact .refl d

/-- Observers are released as they stand, none of them ended; then the consuming waiters get their grants (R203). -/
theorem Dev.calm_evaluate (t : Nat) : d.Calm (d.evaluate t) := by
  unfold Dev.evaluate
  split
  · exact .refl d
  · extract_lets obs e
    have hobs : d.Calm e := Dev.Calm.foldl (fun x hx a => by
      have hended : x.2.ended = false := by
        simp only [obs, Dev.waitsOn, List.mem_filter, Bool.and_eq_true, Bool.not_eq_true'] at hx
        exact hx.1.2.2
      have hset : a.Calm (a.setWait x.1 { x.2 with latch := true }) := a.calm_setWait x.1 fun _ => hended
      exact hset.trans (Dev.calm_bump _ 1 (by decide))) d
    exact hobs.trans (Dev.Calm.foldl (fun x _ a => a.calm_tryGrant t x) e)

theorem Dev.calm_applySignal {x : Signal} (h : ∀ t, d.phys x.p x.vt = some t → (d.tally t).count + x.count ≤ 0xFFFFFFFF) :
    d.Calm (d.applySignal x) := by
  cases hp : d.phys x.p x.vt with
  | none =>
    rw [d.applySignal_unmapped hp]
    exact (d.calm_bump 1 (by decide)).trans (Dev.calm_record _ _ _ _ _)
  | some t =>
    rw [d.applySignal_adds hp (h t hp)]
    exact ((d.calm_signalIn x).trans (Dev.calm_setTally _ t _)).trans (Dev.calm_evaluate _ t)

theorem Dev.calm_agentLook (p slot : Nat) : d.Calm (d.agentLook p slot) := by
  unfold Dev.agentLook
  split
  · split
    · exact d.calm_evaluate _
    · exact .refl d
  · exact .refl d

end

/-! A record that the module writes for itself touches device memory alone. -/

section
variable (d : Dev) (off : Nat) (bs : List Byte)

@[simp] theorem Dev.postMem_tallies : (d.postMem off bs).tallies = d.tallies := by
  unfold Dev.postMem
  split
  · rfl
  · split <;> simp

@[simp] theorem Dev.postMem_training : (d.postMem off bs).training = d.training := by
  unfold Dev.postMem
  split
  · rfl
  · split <;> simp

end

/-! Releases (R222, R224). -/

/-- The release record is posted where its place lies in the allocation (R225). -/
def Dev.releaseRecorded (d : Dev) (p slot gen payload arrivals status : Nat) : Dev :=
  let base := d.get (kBarrierRecordBase p)
  if d.inAlloc p (base + 32 * slot) 32
  then d.postMem (base + 32 * slot) (toBytes (d.releaseRecord slot gen payload arrivals status) 32) else d

/-- A release up to its signal: the record is posted, the generation turns, and the slot is in flight no more. -/
def Dev.turned (d : Dev) (p slot gen payload arrivals status : Nat) : Dev :=
  let d := (d.releaseRecorded p slot gen payload arrivals status).put (kBarrierGen p slot) ((gen + 1) % 2 ^ 32)
  { d with tallies := { d.tallies with inFlight := NSet.del d.tallies.inFlight (64 * p + slot) } }

section
variable (d : Dev) (p slot gen payload arrivals status : Nat)

theorem Dev.releaseRecorded_tallies : (d.releaseRecorded p slot gen payload arrivals status).tallies = d.tallies := by
  unfold Dev.releaseRecorded
  extract_lets base
  split <;> simp

theorem Dev.turned_gen : (d.turned p slot gen payload arrivals status).get (kBarrierGen p slot) = (gen + 1) % 2 ^ 32 :=
  Dev.get_put_self _ _ _

theorem Dev.turned_training : (d.turned p slot gen payload arrivals status).training = d.training := by
  change (d.releaseRecorded p slot gen payload arrivals status).training = d.training
  unfold Dev.releaseRecorded
  extract_lets base
  split <;> simp

theorem Dev.turned_tallies : (d.turned p slot gen payload arrivals status).tallies =
    { d.tallies with inFlight := NSet.del d.tallies.inFlight (64 * p + slot) } := by
  rw [Dev.turned, Dev.put_tallies, Dev.releaseRecorded_tallies]

end

/-- Where no vote is out, a release is its signal and the agent's look. -/
theorem Dev.releaseSlot_unvoted {d : Dev} {p slot : Nat} (gen payload arrivals status : Nat) (hv : (d.train p).voteSent = none)
    (ho : ∀ t, d.phys p (d.barrier p slot).release = some t → (d.tally t).count + 1 ≤ 0xFFFFFFFF) :
    (d.turned p slot gen payload arrivals status).Calm (d.releaseSlot p slot gen payload arrivals status) := by
  set a := d.turned p slot gen payload arrivals status with ha
  have htallies := d.turned_tallies p slot gen payload arrivals status
  have hcalm : a.Calm (a.applySignal (localSignal p (d.barrier p slot).release 1)) := a.calm_applySignal fun t ht => by
    have htally : a.tally t = d.tally t := by rw [Dev.tally, ha, htallies, Dev.tally]
    rw [htally]
    refine ho t ?_
    rwa [Dev.phys, Dev.mapEntry, ha, htallies] at ht
  have hnone : ((a.applySignal (localSignal p (d.barrier p slot).release 1)).train p).voteSent = none := by
    rw [hcalm.voteSent, Dev.train, ha, Dev.turned_training]
    exact hv
  have hrel : d.releaseSlot p slot gen payload arrivals status =
      (a.applySignal (localSignal p (d.barrier p slot).release 1)).agentLook p slot := by
    unfold Dev.releaseSlot
    extract_lets _ _ _ _ _ _ signalled released
    have hout : (signalled.train p).voteSent = none := hnone
    have hsame : released = signalled := by simp only [released, hout]
    rw [hsame]
    rfl
  rw [hrel]
  exact hcalm.trans (Dev.calm_agentLook _ p slot)

/-- No slot of the tree has the generation in flight. -/
theorem Dev.releaseArrives_stale {d : Dev} {p tree gen : Nat} (payload arrivals status : Nat)
    (h : ∀ i : Fin 64, (d.barrier p i).enable = false ∨ (d.barrier p i).tree ≠ tree ∨
      NSet.mem d.tallies.inFlight (64 * p + i) = false ∨ d.get (kBarrierGen p i) ≠ gen) :
    d.releaseArrives p tree gen payload arrivals status = d.bump kStaleReleases 1 := by
  have hnone : (d.barrierSlots p).filter (fun i =>
      (d.barrier p i).enable && decide ((d.barrier p i).tree = tree) && NSet.mem d.tallies.inFlight (64 * p + i) &&
      decide (d.get (kBarrierGen p i) = gen)) = [] :=
    List.filter_eq_nil_iff.mpr fun i hi => by
      rcases h ⟨i, Dev.mem_barrierSlots hi⟩ with h | h | h | h <;> simp [h]
  rw [Dev.releaseArrives, hnone]

theorem Dev.barrierArrives_release {a : Dev} {n p : Nat} {pkt : Packet} {h : PacketHeader}
    (ht : a.arrival n ptBarrier pkt = .take p h) (hk : fld (ofBytes pkt.payload) 127 120 = 2) :
    let b := ofBytes pkt.payload
    a.barrierArrives n pkt =
      (a.releaseArrives p (fld b 111 96) (fld b 95 64) (fld b 63 32) (fld b 31 16) (fld b 119 112)).endMarked := by
  simp [Dev.barrierArrives, ht, hk]

/-! Grants of agents (R219, R223). -/

/-- The grant of an agent is taken, and its slot is in flight. -/
def Dev.grantTaken (d : Dev) (p slot : Nat) : Dev :=
  { d with tallies := { d.tallies with
    granted := SMap.set none d.tallies.granted (64 * p + slot) none
    inFlight := NSet.add d.tallies.inFlight (64 * p + slot) } }

/-- An ARRIVE is on its way: the grant taken, a chip number drawn (log 23), and the arrival counted. -/
def Dev.arriving (d : Dev) (p slot : Nat) : Dev := (d.grantTaken p slot).freeChip.2.bump kBarrierArrivals 1

/-- The ARRIVE of a slot (R224). -/
def Dev.arrivePacket (d : Dev) (p slot payload : Nat) : Packet :=
  let e := d.barrier p slot
  packetFrom
    { noHeader with dstChip := (d.grantTaken p slot).freeChip.1, srcChip := d.chip, mpart := d.get (kPartMpart p)
                    epoch := d.get (kPartEpoch p), ptype := ptBarrier, vl := vlCollective, plane := e.plane }
    (lineOf (d.arriveBody e.tree (d.get (kBarrierGen p slot)) payload))

section
variable {d : Dev} {p slot payload : Nat} (hg : SMap.get none d.tallies.granted (64 * p + slot) = some payload)
include hg

theorem Dev.arrive_local (ht : (d.barrier p slot).tree = 0xFFFF) :
    d.arrive p slot = (d.grantTaken p slot).releaseSlot p slot (d.get (kBarrierGen p slot)) payload 1 0 := by
  simp only [Dev.arrive, hg, ht, if_true]
  rfl

theorem Dev.arrive_remote (ht : (d.barrier p slot).tree ≠ 0xFFFF) (hx : d.anyReq (fun r => isExchange p r.what) = false)
    (hp : d.portAdmitted (d.barrier p slot).plane = true) :
    d.arrive p slot =
      (d.arriving p slot).enqueue (d.barrier p slot).plane vlCollective (d.arrivePacket p slot payload) := by
  simp only [Dev.arrive, hg, ht, hx, hp, if_false, false_or, Bool.true_eq_false, Bool.false_eq_true]
  rfl

end

theorem Dev.txq_enqueue (d : Dev) (n vl : Nat) (pkt : Packet) :
    SMap.get [] ((d.enqueue n vl pkt).port n).txq vl = SMap.get [] (d.port n).txq vl ++ [pkt] := by
  simp [Dev.enqueue]

/-! The vote (R356 to R358). -/

/-- The deadline of the vote's segment has passed, and no hold keeps it from being judged. -/
def Dev.voteLate (d : Dev) (v : VoteRun) : Bool :=
  (d.gauge v.cmd.k).any (fun y =>
    decide (y.segId = v.cmd.segId) && decide (y.step = v.cmd.step) && decide (y.deadline ≤ d.time)) && !d.memHolds

/-- A vote that goes now goes as a fail vote. -/
def Dev.voteBad (d : Dev) (p : Nat) (v : VoteRun) : Bool := d.failCause p v.step v.forceFail || d.voteLate v

theorem Dev.voteIfDue_idle {d : Dev} {p : Nat} (h : ((d.inboxCheck p).train p).vote = none) : d.voteIfDue p = d.inboxCheck p := by
  rw [Dev.voteIfDue, h]

section
variable {d : Dev} {p : Nat} {v : VoteRun} (hv : ((d.inboxCheck p).train p).vote = some v)
include hv

/-- What becomes of the vote of an XCHG_VOTE at work. -/
theorem Dev.voteIfDue_running : d.voteIfDue p =
    let e := d.inboxCheck p
    if v.sent = true ∨ e.isMember p = false then e
    else if e.voteBad p v = true then e.sendVote p v.step true false
    else if e.causesKnown p v.step = true then e.sendVote p v.step false false
    else e := by
  simp only [Dev.voteIfDue, hv, Dev.voteBad, Dev.voteLate, Bool.or_eq_true]

theorem Dev.voteIfDue_sends (hs : v.sent = false) (hm : (d.inboxCheck p).isMember p = true)
    (hb : (d.inboxCheck p).voteBad p v = true ∨ (d.inboxCheck p).causesKnown p v.step = true) :
    d.voteIfDue p = (d.inboxCheck p).sendVote p v.step ((d.inboxCheck p).voteBad p v) false := by
  have hdue : ¬ (v.sent = true ∨ (d.inboxCheck p).isMember p = false) := by simp [hs, hm]
  refine (Dev.voteIfDue_running hv).trans ((if_neg hdue).trans ?_)
  cases hbad : (d.inboxCheck p).voteBad p v with
  | true => exact if_pos rfl
  | false =>
    have hknown : (d.inboxCheck p).causesKnown p v.step = true := hb.resolve_left (by simp [hbad])
    exact (if_neg (by decide)).trans (if_pos hknown)

theorem Dev.voteIfDue_waits (h : v.sent = true ∨ (d.inboxCheck p).isMember p = false ∨
    ((d.inboxCheck p).voteBad p v = false ∧ (d.inboxCheck p).causesKnown p v.step = false)) : d.voteIfDue p = d.inboxCheck p := by
  rw [Dev.voteIfDue_running hv]
  rcases h with h | h | ⟨hb, hk⟩
  · exact if_pos (.inl h)
  · exact if_pos (.inr h)
  · simp [hb, hk]

end

theorem Dev.shadowCheck_idle {d : Dev} {p : Nat} (h : (d.train p).vote = none) : d.shadowCheck p = d := by
  rw [Dev.shadowCheck, h]

theorem Dev.shadowCheck_unawaited {d : Dev} {p : Nat} (h : (d.train p).shadowWait = false) : d.shadowCheck p = d := by
  unfold Dev.shadowCheck
  split
  · rfl
  · exact if_pos (.inl h)

/-- The counts of a vote that is sent. -/
def Dev.voteCounted (d : Dev) (p : Nat) (fail : Bool) : Dev :=
  let d := if fail then d.bump kFailVotes 1 else d
  if d.flag p pfNonfinite then d.bump kNonfiniteVotes 1 else d

/-- The step's vote is noted as sent, and the gauge of its segment held (R357). -/
def Dev.voteNoted (d : Dev) (p n : Nat) : Dev :=
  let d := d.setTrain p { d.train p with
    voteSent := some n, vote := (d.train p).vote.map (fun v => { v with sent := true }) }
  match (d.train p).vote with
  | some v => d.setGauge v.cmd.k ((d.gauge v.cmd.k).map (fun (s : Seg) =>
      if s.segId = v.cmd.segId ∧ s.step = v.cmd.step then { s with heldAt := some d.time } else s))
  | none => d

section
variable (d : Dev) (p n : Nat) (fail abandon : Bool)

theorem Dev.sendVote_flies : d.sendVote p n fail abandon =
    let e := (d.voteCounted p fail).voteNoted p n
    e.fly { localSignal p (e.barrier p (e.get (kVoteSlot p))).leaf 1 with payload := d.voteWord p n fail abandon } := rfl

theorem Dev.voteNoted_dict : (d.voteNoted p n).dict = d.dict := by
  unfold Dev.voteNoted
  extract_lets e
  split <;> rfl

theorem Dev.voteNoted_tallies : (d.voteNoted p n).tallies = d.tallies := by
  unfold Dev.voteNoted
  extract_lets e
  split <;> rfl

theorem Dev.train_voteNoted : (d.voteNoted p n).train p =
    { d.train p with voteSent := some n, vote := (d.train p).vote.map (fun v => { v with sent := true }) } := by
  unfold Dev.voteNoted
  extract_lets t e
  have he : e.train p = _ := d.train_setTrain p _
  split
  · exact he
  · exact he

theorem Dev.voteCounted_tallies : (d.voteCounted p fail).tallies = d.tallies := by
  unfold Dev.voteCounted
  extract_lets e
  unfold e
  split <;> split <;> rfl

theorem Dev.voteCounted_training : (d.voteCounted p fail).training = d.training := by
  unfold Dev.voteCounted
  extract_lets e
  unfold e
  split <;> split <;> rfl

/-- The votes are counted at the indices 0x9035 and 0x9036. -/
theorem Dev.get_voteCounted {k : Nat} (hk : k / 256 < 0x9000) : (d.voteCounted p fail).get k = d.get k := by
  have hf : k ≠ kFailVotes := by rintro rfl; exact absurd hk (by decide)
  have hn : k ≠ kNonfiniteVotes := by rintro rfl; exact absurd hk (by decide)
  unfold Dev.voteCounted
  extract_lets e
  have he : e.get k = d.get k := by
    unfold e
    split
    · exact Dev.get_bump_ne _ _ hf
    · rfl
  split
  · exact (Dev.get_bump_ne _ _ hn).trans he
  · exact he

theorem Dev.failVotes_voteCounted : (d.voteCounted p fail).get kFailVotes =
    if fail = true then (d.get kFailVotes + 1) % 2 ^ 64 else d.get kFailVotes := by
  have hn : kFailVotes ≠ kNonfiniteVotes := by decide
  unfold Dev.voteCounted
  extract_lets e
  have he : e.get kFailVotes = if fail = true then (d.get kFailVotes + 1) % 2 ^ 64 else d.get kFailVotes := by
    unfold e
    split
    · exact Dev.get_bump_self _ _ _
    · rfl
  split
  · exact (Dev.get_bump_ne _ _ hn).trans he
  · exact he

end

/-- What the flight, the step and the counters hold once a vote is sent: one signal of count 1 to the leaf tally of the vote slot,
with the vote word (R221, R358). -/
theorem Dev.sendVote_sends (d : Dev) (p : Fin 4) (n : Nat) (fail abandon : Bool) : ∃ x : Signal,
    ((d.sendVote p n fail abandon).train p).voteSent = some n ∧
    ((d.sendVote p n fail abandon).train p).shadowWait = (d.train p).shadowWait ∧
    (d.sendVote p n fail abandon).tallies.flight = d.tallies.flight ++ [x] ∧ x.p = p.val ∧ x.count = 1 ∧
    (d.get (kVoteSlot p) < 64 → x.vt = (d.barrier p (d.get (kVoteSlot p))).leaf) ∧ x.payload = d.voteWord p n fail abandon ∧
    (d.sendVote p n fail abandon).get kFailVotes =
      if fail = true then (d.get kFailVotes + 1) % 2 ^ 64 else d.get kFailVotes := by
  rw [Dev.sendVote_flies]
  set e := (d.voteCounted p fail).voteNoted p n with he
  have htrain : e.train p = _ := (d.voteCounted p fail).train_voteNoted p n
  have hget : ∀ k, e.get k = (d.voteCounted p fail).get k := Dev.get_congr (Dev.voteNoted_dict _ _ _)
  refine ⟨{ localSignal p (e.barrier p (e.get (kVoteSlot p))).leaf 1 with
    payload := d.voteWord p n fail abandon, epoch := e.get (kPartEpoch p) }, ?voteSent, ?shadow, ?flight, rfl, rfl,
    fun hslot => ?leaf, rfl, ?counted⟩
  case voteSent => exact congrArg Train.voteSent htrain
  case shadow =>
    refine (congrArg Train.shadowWait htrain).trans ?_
    rw [Dev.train, Dev.voteCounted_training, Dev.train]
  case flight =>
    exact congrArg (· ++ _) (by rw [he, Dev.voteNoted_tallies, Dev.voteCounted_tallies])
  case leaf =>
    have hv : e.get (kVoteSlot p) = d.get (kVoteSlot p) :=
      (hget _).trans (d.get_voteCounted p fail (by rw [kVoteSlot, key_div _ (by omega)]; omega))
    have hb : e.get (kBarrier p (d.get (kVoteSlot p))) = d.get (kBarrier p (d.get (kVoteSlot p))) :=
      (hget _).trans (d.get_voteCounted p fail (by rw [kBarrier, key_div _ (by omega)]; omega))
    change (e.barrier p (e.get (kVoteSlot p))).leaf = _
    rw [hv, Dev.barrier, hb, Dev.barrier]
  case counted => exact (hget _).trans (d.failVotes_voteCounted p fail)

/-! The rows, on dies that run. -/

section
variable {s : State} (hl : s.dev.live = true)
include hl

theorem exec_arrive_live (p : Fin 4) (slot : Fin 64) :
    exec (.arrive p slot) s = .next { s with dev := (s.dev.arrive p slot).endMarked } :=
  onDie_live (fun d => (d.arrive p slot).endMarked) hl

theorem exec_vote_live (p : Fin 4) : exec (.vote p) s = .next { s with dev := (s.dev.voteIfDue p).shadowCheck p } :=
  onDie_live (fun d => (d.voteIfDue p).shadowCheck p) hl

theorem exec_release_live (n : Fin 16) (x : Incoming) :
    exec (.release n x) s = .next { s with dev := s.dev.received n x (fun d => d.barrierArrives n x.pkt) } :=
  onDie_live (fun d => d.received n x (fun d => d.barrierArrives n x.pkt)) hl

end

theorem Dev.received_accepted {d a : Dev} {n : Nat} {x : Incoming} {c : Nat × Nat} (ha : d.accept n x = (a, some c))
    (f : Dev → Dev) : d.received n x f = (f a).leaveBuffer n (packetHeader x.pkt).vl c.1 c.2 := by
  rw [Dev.received, ha]

end Sys2Proof.Machine

open Sys2Proof Sys2Proof.Machine

/-- Settles O53: an ARRIVE by its tree, a RELEASE by the slots in flight, and a vote by its moment. -/
theorem barriersArriveAndRelease : Obligations.BarriersArriveAndRelease := by
  unfold Obligations.BarriersArriveAndRelease
  refine ⟨fun s p i payload hl hg => ⟨fun ht => ⟨_, exec_arrive_live hl p i, ?released, rfl, rfl, fun hw hv ho => ?turned⟩,
      fun ht hx hp hw => ?sent⟩,
    fun s n x a c p h hl ha ht hk => ⟨_, exec_release_live hl n x, ?release, rfl, rfl, fun hn => ?stale⟩,
    fun s p hl => ⟨⟨_, exec_vote_live hl p, rfl, rfl, rfl⟩, fun hn => ⟨_, exec_vote_live hl p, ?idle⟩,
      fun v hv hsh => ⟨fun hs hm hb => ?votes, fun hwait => ⟨_, exec_vote_live hl p, ?waits⟩⟩⟩⟩
  case released => rw [Dev.arrive_local hg ht]; rfl
  case turned =>
    have hcalm := Dev.releaseSlot_unvoted (d := s.dev.grantTaken p i) (s.dev.get (kBarrierGen p i)) payload 1 0 hv ho
    have hended : NoWaitEnded ((s.dev.grantTaken p i).turned p i (s.dev.get (kBarrierGen p i)) payload 1 0) := fun y hy => by
      rw [Dev.turned_tallies] at hy
      exact hw y hy
    rw [Dev.arrive_local hg ht, Dev.endMarked_of_noWaitEnded (hcalm.waits hended), hcalm.gens, Dev.turned_gen]
  case sent =>
    have hpkt := Dev.arrive_remote hg ht hx hp
    have hsame : (s.dev.arrive p i).endMarked = s.dev.arrive p i := by
      rw [hpkt]
      exact Dev.endMarked_of_noWaitEnded hw
    refine ⟨_, exec_arrive_live hl p i, rfl, ?_⟩
    rw [hsame, hpkt]
    exact ⟨SMap.get_set_self none s.dev.tallies.granted _ none, NSet.mem_add _ _, Dev.get_bump_self _ _ _, rfl, rfl, _,
      Dev.txq_enqueue _ _ _ _⟩
  case release => rw [Dev.received_accepted ha, Dev.barrierArrives_release ht hk]
  case stale => exact Dev.releaseArrives_stale _ _ _ hn
  case idle => rw [Dev.voteIfDue_idle hn, Dev.shadowCheck_idle hn]
  case votes =>
    obtain ⟨x, hsent, hshadow, hrest⟩ := (s.dev.inboxCheck p).sendVote_sends p v.step ((s.dev.inboxCheck p).voteBad p v) false
    refine ⟨_, x, exec_vote_live hl p, rfl, ?_⟩
    rw [Dev.voteIfDue_sends hv hs hm hb, Dev.shadowCheck_unawaited (hshadow.trans hsh)]
    exact ⟨hsent, hrest⟩
  case waits => rw [Dev.voteIfDue_waits hv hwait, Dev.shadowCheck_unawaited hsh]
end

section
/-! SUPPORT. Device memory: where the interleave and its relief place a granule, and what a write of working memory leaves there. -/

namespace Sys2Proof.Machine

/-! Homes (R230 to R237). -/

/-- A granule of a pseudo-channel that is not relieved, or above what relief moves, stays where the interleave puts it. -/
theorem Dev.place_stays (d : Dev) {s k x : Nat} (h : d.get (kRelievedPc s) ≠ k ∨ d.qw + d.qb ≤ x) : d.place s k x = (s, k, x) :=
  if_neg (by omega)

/-- A granule of the relieved pseudo-channel lies in one of the other 63, in the positions that relief takes there. -/
theorem Dev.place_moves (d : Dev) {s k x : Nat} (hk : d.get (kRelievedPc s) = k) (hx : x < d.qw + d.qb) :
    d.place s k x = (s, if x % 63 ≥ k then x % 63 + 1 else x % 63, d.qw + d.qb - d.rq + x / 63) :=
  if_pos ⟨hk, hx⟩

theorem Dev.getElem?_readMem (d : Dev) (off : Nat) {m i : Nat} (h : i < m) :
    (d.readMem off m)[i]? = some (d.memByte (off + i)) := by
  simp [Dev.readMem, h]

/-- 389 times the position only shifts the slots of a position round (R235). -/
theorem interleave_injective {a b : Nat} (h : interleave a = interleave b) : a / 256 = b / 256 := by
  simp only [interleave, Prod.mk.injEq] at h
  obtain ⟨hs, hk, hx⟩ := h
  omega

theorem interleave_stack_lt (off : Nat) : (interleave off).1 < 12 := Nat.mod_lt _ (by decide)

theorem interleave_channel_lt (off : Nat) : (interleave off).2.1 < 64 := by
  simp only [interleave]
  omega

theorem interleave_position_lt {d : Dev} {off : Nat} (h : off < d.workingBytes) : (interleave off).2.2 < d.qw := by
  simp only [interleave, Dev.workingBytes] at h ⊢
  omega

section
variable {d : Dev} (hlo : 1 ≤ d.mem.bedGib) (hhi : d.mem.bedGib ≤ 24)
include hlo hhi

/-- Whatever the bed, working and bed positions make up the same total (R232), and what relief takes of it lies above the working
positions and below the last one (R264). -/
theorem Dev.relief_bounds : d.qw + d.qb = 3145472 ∧ d.rq = 49929 ∧ d.qw ≤ d.qw + d.qb - d.rq := by
  have ht : d.qw + d.qb = 3145472 := by unfold Dev.qw Dev.qb qwOf qbOf; omega
  have hr : d.rq = 49929 := by rw [Dev.rq, ht]; rfl
  have hw : d.qw ≤ 3145472 - 49929 := by unfold Dev.qw qwOf; omega
  exact ⟨ht, hr, by rwa [ht, hr]⟩

/-- Relief moves a working granule among the other 63 pseudo-channels one to one, above every working position. -/
theorem Dev.place_injective {s k x s' k' x' : Nat} (hx : x < d.qw) (hx' : x' < d.qw) (h : d.place s k x = d.place s' k' x') :
    (s, k, x) = (s', k', x') := by
  obtain ⟨-, -, hw⟩ := Dev.relief_bounds hlo hhi
  by_cases hk : d.get (kRelievedPc s) = k <;> by_cases hk' : d.get (kRelievedPc s') = k'
  · rw [d.place_moves hk (by omega), d.place_moves hk' (by omega)] at h
    simp only [Prod.mk.injEq] at h ⊢
    obtain ⟨rfl, hc, hp⟩ := h
    subst hk hk'
    refine ⟨rfl, rfl, ?_⟩
    split at hc <;> split at hc <;> omega
  · rw [d.place_moves hk (by omega), d.place_stays (.inl hk')] at h
    have hp := congrArg (fun h => h.2.2) h
    simp only at hp
    omega
  · rw [d.place_stays (.inl hk), d.place_moves hk' (by omega)] at h
    have hp := congrArg (fun h => h.2.2) h
    simp only at hp
    omega
  · rwa [d.place_stays (.inl hk), d.place_stays (.inl hk')] at h

theorem Dev.home_injective {a b : Nat} (ha : a < d.workingBytes) (hb : b < d.workingBytes) (h : d.home a = d.home b) :
    a / 256 = b / 256 :=
  interleave_injective (Dev.place_injective hlo hhi (interleave_position_lt ha) (interleave_position_lt hb) h)

theorem Dev.home_bounds {a : Nat} (ha : a < d.workingBytes) : (d.home a).1 < 12 ∧ (d.home a).2.2 < positions := by
  obtain ⟨ht, hr, hw⟩ := Dev.relief_bounds hlo hhi
  have hs := interleave_stack_lt a
  have hx := interleave_position_lt ha
  have hp : positions = 3145728 := rfl
  by_cases hk : d.get (kRelievedPc (interleave a).1) = (interleave a).2.1
  · rw [Dev.home, d.place_moves hk (by omega)]
    exact ⟨hs, by simp only; omega⟩
  · rw [Dev.home, d.place_stays (.inl hk)]
    exact ⟨hs, by simp only; omega⟩

end

theorem posKey_injective {s k x y s' k' x' y' : Nat} (hs : s < 12) (hx : x < positions) (hy : y < 256) (hs' : s' < 12)
    (hx' : x' < positions) (hy' : y' < 256) (h : posKey s k x y = posKey s' k' x' y') : (s, k, x) = (s', k', x') ∧ y = y' := by
  simp only [posKey, positions, Prod.mk.injEq] at h hx hx' ⊢
  omega

theorem Dev.byteKey_injective {d : Dev} (hlo : 1 ≤ d.mem.bedGib) (hhi : d.mem.bedGib ≤ 24) {a b : Nat} (ha : a < d.workingBytes)
    (hb : b < d.workingBytes) (h : d.byteKey a = d.byteKey b) : a = b := by
  obtain ⟨hs, hx⟩ := Dev.home_bounds hlo hhi ha
  obtain ⟨hs', hx'⟩ := Dev.home_bounds hlo hhi hb
  obtain ⟨hhome, hbyte⟩ := posKey_injective hs hx (Nat.mod_lt a (by decide)) hs' hx' (Nat.mod_lt b (by decide)) h
  have hg := Dev.home_injective hlo hhi ha hb hhome
  omega

/-! Writes of working memory (R230, R257). -/

/-- The interleave rests on the bed's size and on the relieved pseudo-channels alone. -/
theorem Dev.byteKey_congr {d e : Dev} (hd : e.dict = d.dict) (hb : e.mem.bedGib = d.mem.bedGib) (a : Nat) :
    e.byteKey a = d.byteKey a := by
  have hw : e.qw = d.qw := congrArg qwOf hb
  have hq : e.qb = d.qb := congrArg qbOf hb
  rw [Dev.byteKey, Dev.home, Dev.place, Dev.rq, Dev.get_congr hd, hw, hq]
  rfl

section
variable (d : Dev) (off : Nat) (bs : List Byte)

theorem Dev.setMemByte_byteKey (v : Byte) (a : Nat) : (d.setMemByte off v).byteKey a = d.byteKey a :=
  Dev.byteKey_congr rfl rfl a

theorem Dev.memByte_setMemByte_self (v : Byte) : (d.setMemByte off v).memByte off = v :=
  (congrArg _ (d.setMemByte_byteKey off v off)).trans (Memory.byte_setByte_self _ _ _)

theorem Dev.memByte_setMemByte_ne (v : Byte) {a : Nat} (h : d.byteKey a ≠ d.byteKey off) :
    (d.setMemByte off v).memByte a = d.memByte a :=
  (congrArg _ (d.setMemByte_byteKey off v a)).trans (Memory.byte_setByte_ne _ _ h)

/-- Marks of poison are no part of what memory reads. -/
theorem Dev.memByte_writeMem (p : Bool) (a : Nat) : (d.writeMem off bs p).memByte a = (d.setBytesAt off bs).memByte a := by
  have hmark : ∀ (e : Dev) (n : Nat), (e.markRange off n p).mem.hbm = e.mem.hbm ∧ (e.markRange off n p).mem.bedGib = e.mem.bedGib :=
    fun e n => ⟨foldl_field (fun d => d.mem.hbm) _ (by intro d l; (repeat' split) <;> rfl) _ _,
      foldl_field (fun d => d.mem.bedGib) _ (by intro d l; (repeat' split) <;> rfl) _ _⟩
  obtain ⟨hh, hb⟩ := hmark (d.setBytesAt off bs) bs.length
  rw [Dev.writeMem, Dev.memByte, Dev.byteKey_congr (Dev.markRange_dict _ _ _ _) hb, hh]
  rfl

end

section
variable {d : Dev} (hlo : 1 ≤ d.mem.bedGib) (hhi : d.mem.bedGib ≤ 24)
include hlo hhi

theorem Dev.memByte_setBytesAt_out {off a : Nat} {bs : List Byte} (hoff : off + bs.length ≤ d.workingBytes)
    (ha : a < d.workingBytes) (hout : a < off ∨ off + bs.length ≤ a) : (d.setBytesAt off bs).memByte a = d.memByte a := by
  induction bs generalizing d off with
  | nil => rfl
  | cons b bs ih =>
    simp only [List.length_cons] at hoff hout
    have hne : d.byteKey a ≠ d.byteKey off := fun h => by
      have := Dev.byteKey_injective hlo hhi ha (by omega) h
      omega
    have hrest : ((d.setMemByte off b).setBytesAt (off + 1) bs).memByte a = (d.setMemByte off b).memByte a :=
      ih (d := d.setMemByte off b) hlo hhi (show off + 1 + bs.length ≤ d.workingBytes by omega) ha (by omega)
    exact hrest.trans (d.memByte_setMemByte_ne off b hne)

theorem Dev.memByte_setBytesAt_in {off i : Nat} {bs : List Byte} (hoff : off + bs.length ≤ d.workingBytes) (hi : i < bs.length) :
    (d.setBytesAt off bs).memByte (off + i) = bs[i] := by
  induction bs generalizing d off i with
  | nil => exact absurd hi (Nat.not_lt_zero i)
  | cons b bs ih =>
    have hoff' : off + 1 + bs.length ≤ (d.setMemByte off b).workingBytes := by
      rw [List.length_cons] at hoff
      exact (by omega : off + 1 + bs.length ≤ d.workingBytes)
    cases i with
    | zero =>
      exact (Dev.memByte_setBytesAt_out (d := d.setMemByte off b) hlo hhi hoff' (a := off) (by omega) (by omega)).trans
        (d.memByte_setMemByte_self off b)
    | succ i =>
      rw [List.getElem_cons_succ, ← ih (d := d.setMemByte off b) hlo hhi hoff' (Nat.lt_of_succ_lt_succ hi), Dev.setBytesAt,
        Nat.add_right_comm off 1 i, Nat.add_assoc]

end

end Sys2Proof.Machine

open Sys2Proof Sys2Proof.Machine

/-- Settles O11: a home is the place of the interleave, moved where its pseudo-channel is relieved. -/
theorem homesFollowTheFunction : Obligations.HomesFollowTheFunction := by
  unfold Obligations.HomesFollowTheFunction
  intro d off _
  refine ⟨fun h => d.place_stays h, fun hk hx => ⟨fun h => ?below, fun h => ?above⟩, fun m i hi => d.getElem?_readMem off hi⟩
  case below => exact (d.place_moves hk hx).trans (by rw [if_neg (by omega)])
  case above => exact (d.place_moves hk hx).trans (by rw [if_pos h])

/-- Settles O12: the interleave is one to one on granules, and relief on the places of working granules. -/
theorem workingHomesDistinct : Obligations.WorkingHomesDistinct := by
  unfold Obligations.WorkingHomesDistinct
  exact fun d a b hlo hhi ha hb h => Dev.home_injective hlo hhi ha hb h

/-- Settles O13: a byte written keeps its value under the bytes written after it, since every working byte has a key of its own. -/
theorem workingMemoryReadsBack : Obligations.WorkingMemoryReadsBack := by
  unfold Obligations.WorkingMemoryReadsBack
  refine fun d off bs p hlo hhi hoff => ⟨List.ext_getElem? fun i => ?back, fun a ha hout => ?frame, Dev.writeMem_wf off bs p⟩
  case back =>
    by_cases hi : i < bs.length
    · rw [Dev.getElem?_readMem _ off hi, Dev.memByte_writeMem, Dev.memByte_setBytesAt_in hlo hhi hoff hi, List.getElem?_eq_getElem hi]
    · simp [Dev.readMem, hi]
  case frame => rw [Dev.memByte_writeMem, Dev.memByte_setBytesAt_out hlo hhi hoff ha hout]
end

section
/-! SUPPORT. One line of device memory: the bytes that a write stores, what an access that is performed does, and what the failure of
a row leaves alone. -/

namespace Sys2Proof.Machine

/-! Lines (R230, R257). -/

section
variable (f : Nat → Byte) (l : List Nat) (a : Nat)

/-- Bytes stored one by one: each byte of the list holds its own. -/
theorem Memory.byte_foldl_setByte (m : Memory) (i : Nat) :
    Memory.byte (l.foldl (fun m j => Memory.setByte m (a + j) (f j)) m) (a + i) = if i ∈ l then f i else Memory.byte m (a + i) := by
  induction l generalizing m with
  | nil => rfl
  | cons j l ih =>
    rw [List.foldl_cons, ih]
    by_cases hj : i = j
    · subst hj
      simp
    · rw [Memory.byte_setByte_ne m _ (by omega)]
      simp [hj]

theorem Memory.byte_foldl_setByte_out (m : Memory) {x : Nat} (h : ∀ j ∈ l, x ≠ a + j) :
    Memory.byte (l.foldl (fun m j => Memory.setByte m (a + j) (f j)) m) x = Memory.byte m x := by
  induction l generalizing m with
  | nil => rfl
  | cons j l ih =>
    obtain ⟨hj, hl⟩ := List.forall_mem_cons.mp h
    rw [List.foldl_cons, ih _ hl, Memory.byte_setByte_ne m _ hj]

theorem Memory.wf_foldl_setByte {m : Memory} (h : Memory.wf m = true) :
    Memory.wf (l.foldl (fun m j => Memory.setByte m (a + j) (f j)) m) = true := by
  induction l generalizing m with
  | nil => exact h
  | cons j l ih => exact ih (Memory.wf_setByte _ _ h)

end

theorem NSet.mem_del (s : NSet) (k : Nat) : NSet.mem (NSet.del s k) k = false := by simp [NSet.mem, NSet.del]

section
variable (d : Dev) (l data be : Nat) (poison : Bool)

theorem Dev.byte_storeLine {i : Nat} (hi : i < 64) : Memory.byte (d.storeLine l data be poison).mem.hbm (64 * l + i) =
    if bit be i then BitVec.ofNat 8 (data >>> (8 * i)) else Memory.byte d.mem.hbm (64 * l + i) := by
  have h := Memory.byte_foldl_setByte (fun i => BitVec.ofNat 8 (data >>> (8 * i))) ((List.range 64).filter (fun i => bit be i))
    (64 * l) d.mem.hbm i
  simp only [List.mem_filter, List.mem_range, hi, true_and] at h
  exact h

theorem Dev.byte_storeLine_out {x : Nat} (h : x < 64 * l ∨ 64 * l + 64 ≤ x) :
    Memory.byte (d.storeLine l data be poison).mem.hbm x = Memory.byte d.mem.hbm x := by
  refine Memory.byte_foldl_setByte_out _ _ (64 * l) d.mem.hbm fun j hj => ?_
  have hlt : j < 64 := List.mem_range.mp (List.mem_of_mem_filter hj)
  omega

theorem Dev.storeLine_wf (h : Memory.wf d.mem.hbm = true) : Memory.wf (d.storeLine l data be poison).mem.hbm = true :=
  Memory.wf_foldl_setByte _ _ _ h

theorem Dev.storeLine_poisoned : NSet.mem (d.storeLine l data be true).mem.poison l = true := NSet.mem_add _ _

theorem Dev.storeLine_whole (h : be = 2 ^ 64 - 1) : NSet.mem (d.storeLine l data be false).mem.poison l = false := by
  subst h
  exact NSet.mem_del _ _

theorem Dev.storeLine_part (h : be ≠ 2 ^ 64 - 1) : (d.storeLine l data be false).mem.poison = d.mem.poison := by
  simp only [Dev.storeLine, Bool.false_eq_true, if_false, if_neg h]

end

/-! Accesses (R245 to R247). -/

/-- Nothing holds an access to the target, and the target exists. -/
def Dev.Open (d : Dev) : MemTarget → Prop
  | .working off => off.toNat < d.workingBytes ∧ d.blocked (off.toNat / 64 * 64) 64 = false
  | .place l => l.pos.toNat < positions ∧ d.rowMoves l.s l.k l.pos.toNat = false ∧
      SMap.get none d.mem.heldWrites (posKey l.s l.k l.pos.toNat (64 * l.acc) / 64) = none

/-- The line of a target. -/
def Dev.lineOf (d : Dev) (tgt : MemTarget) : Nat :=
  let g := d.targetOf tgt
  posKey g.1 g.2.1 g.2.2.1 (64 * g.2.2.2.1) / 64

section
variable {d : Dev} {tgt : MemTarget} (ho : d.Open tgt) (hp : d.pc (12 * (d.targetOf tgt).2.1 + (d.targetOf tgt).1) = .online)
include ho

theorem Dev.Open.exists_position : ¬ positions ≤ placePos tgt := by
  cases tgt with
  | working off => exact Nat.not_le.mpr (by decide : 0 < positions)
  | place l => exact Nat.not_le.mpr ho.1

include hp

theorem Dev.memoryAccess_read (r : Requester) {ev : MemEvent} (hev : ev ≠ .parityExhausted) :
    d.memoryAccess { target := tgt, req := r, wr := none } ev =
      d.lineEvent (d.targetOf tgt).1 (d.targetOf tgt).2.1 (d.targetOf tgt).2.2.1 (d.targetOf tgt).2.2.2.1 none false ev := by
  cases tgt with
  | working off =>
    obtain ⟨hin, hb⟩ := ho
    simp [Dev.memoryAccess, hp, hb, hev, PcState.errs, Nat.not_le.mpr hin]
  | place l =>
    obtain ⟨-, hm, hh⟩ := ho
    simp only [Dev.targetOf] at hp
    simp [Dev.memoryAccess, hp, hm, hh, hev, PcState.errs, Dev.targetOf]

theorem Dev.memoryAccess_write (r : Requester) (data : BitVec 512) (be : BitVec 64) (poison : Bool) :
    d.memoryAccess { target := tgt, req := r, wr := some (data, be, poison) } .clean =
      d.storeLine (d.lineOf tgt) data.toNat be.toNat poison := by
  cases tgt with
  | working off =>
    obtain ⟨hin, hb⟩ := ho
    simp [Dev.memoryAccess, hp, hb, PcState.errs, Nat.not_le.mpr hin, Dev.lineEvent, Dev.lineOf]
  | place l =>
    obtain ⟨-, hm, hh⟩ := ho
    simp only [Dev.targetOf] at hp
    simp [Dev.memoryAccess, hp, hm, hh, PcState.errs, Dev.targetOf, Dev.lineEvent, Dev.lineOf]

end

/-! What a warning and the failure of a row leave alone (R249 to R256). -/

section
variable (d : Dev)

/-- A warning of a stack is noted for its cause, and touches memory no further. -/
theorem Dev.warnStack_mem (s cause related : Nat) : ∃ w, (d.warnStack s cause related).mem = { d.mem with warned := w } := by
  unfold Dev.warnStack
  split
  · exact ⟨d.mem.warned, rfl⟩
  · exact ⟨NSet.add d.mem.warned (16 * s + cause), Dev.ckptWarn_mem _ _ _ _⟩

theorem Dev.get_setFlag (p b : Nat) (v : Bool) {k : Nat} (h : k / 256 ≠ 0x7000 + p) : (d.setFlag p b v).get k = d.get k :=
  Dev.get_put_ne d _ (by rintro rfl; exact h (key_div _ (by decide)))

theorem Dev.get_warnStack_uncorrectable (s cause related : Nat) :
    (d.warnStack s cause related).get kMemUncorrectable = d.get kMemUncorrectable := by
  have hflags : ∀ (l : List Nat), (∀ p ∈ l, p < 4) → ∀ e : Dev,
      (l.foldl (fun d p => d.setFlag p pfCkpt true) e).get kMemUncorrectable = e.get kMemUncorrectable := by
    intro l hl
    induction l with
    | nil => exact fun e => rfl
    | cons p l ih =>
      obtain ⟨hp, hl⟩ := List.forall_mem_cons.mp hl
      have hk : kMemUncorrectable / 256 = 0x9034 := by decide
      exact fun e => (ih hl _).trans (e.get_setFlag p pfCkpt true (by omega))
  unfold Dev.warnStack Dev.ckptWarn
  split
  · rfl
  · exact (hflags _ (fun p hp => List.mem_range.mp hp) _).trans
      ((Dev.get_record _ _ _ _ _ (by decide) (by decide) (by decide)).trans rfl)

/-- What an error that cannot be corrected leaves behind: what the array holds, its marks, and the count. -/
def Dev.losses (d : Dev) : Memory × NSet × Nat := (d.mem.hbm, d.mem.poison, d.get kMemUncorrectable)

theorem Dev.losses_congr {d e : Dev} (hd : e.dict = d.dict) (hh : e.mem.hbm = d.mem.hbm) (hp : e.mem.poison = d.mem.poison) :
    e.losses = d.losses := by
  rw [Dev.losses, hh, hp, Dev.get_congr hd, Dev.losses]

theorem Dev.losses_record (w : Where) (t c : Nat) (b : List (Nat × Nat)) : (d.record w t c b).losses = d.losses := by
  rw [Dev.losses, Dev.record_mem, Dev.get_record d w t c b (by decide) (by decide) (by decide), Dev.losses]

theorem Dev.losses_warnStack (s cause related : Nat) : (d.warnStack s cause related).losses = d.losses := by
  obtain ⟨w, hw⟩ := d.warnStack_mem s cause related
  rw [Dev.losses, hw, d.get_warnStack_uncorrectable, Dev.losses]

theorem Dev.losses_retireRow (s k bank row cause : Nat) : (d.retireRow s k bank row cause).losses = d.losses := by
  unfold Dev.retireRow
  refine foldl_field Dev.losses _ (fun d e => ?_) _ d
  extract_lets noted recorded
  rw [Dev.losses_warnStack, Dev.losses_record]
  exact Dev.losses_congr rfl rfl rfl

theorem Dev.losses_uncorrectable (s k x acc cause : Nat) : (d.uncorrectable s k x acc cause).losses =
    (d.mem.hbm, d.mem.poison, (d.get kMemUncorrectable + 1) % 2 ^ 64) := by
  rw [Dev.uncorrectable, Dev.losses_record, Dev.losses, Dev.get_bump_self, Dev.bump_mem]

theorem Dev.losses_marked (p : NSet) : Dev.losses { d with mem := { d.mem with poison := p } } =
    (d.losses.1, p, d.losses.2.2) := rfl

/-- A row that meets a trigger is held for its copy, or its units are retired. -/
theorem Dev.losses_remapRow (s k bank row trigger : Nat) : (d.remapRow s k bank row trigger).losses = d.losses := by
  unfold Dev.remapRow
  extract_lets key again
  split
  · rfl
  · split
    · exact d.losses_retireRow s k bank row 1
    · split
      · exact d.losses_retireRow s k bank row 2
      · rfl

/-! Errors that a scrub meets (R246 to R248). -/

section
variable (s k x acc : Nat) (wr : Option (Nat × Nat)) (scrub : Bool) {bad : List (Fin 68)}

theorem Dev.lineEvent_corrected (hb : bad ≠ []) (hc : correctable bad = true) :
    d.lineEvent s k x acc wr scrub (.symbols bad) = d.outerCorrected s k x := by
  cases bad with
  | nil => exact absurd rfl hb
  | cons b bad => simp [Dev.lineEvent, hc]

theorem Dev.lineEvent_lost (hb : bad ≠ []) (hc : correctable bad = false) :
    (d.lineEvent s k x acc wr scrub (.symbols bad)).losses =
      (d.mem.hbm, NSet.add d.mem.poison (posKey s k x (64 * acc) / 64), (d.get kMemUncorrectable + 1) % 2 ^ 64) := by
  cases bad with
  | nil => exact absurd rfl hb
  | cons b bad =>
    simp only [Dev.lineEvent, hc, Bool.false_eq_true, if_false]
    rw [Dev.losses_remapRow, Dev.losses_marked, Dev.losses_uncorrectable, Dev.uncorrectable, Dev.record_mem, Dev.bump_mem]

end

end

theorem Dev.scrub_open {d : Dev} {l : MemLine} (hm : d.rowMoves l.s l.k l.pos.toNat = false)
    (hp : d.pc (12 * l.k + l.s) = .online) (ev : MemEvent) : d.scrub l ev = d.lineEvent l.s l.k l.pos.toNat l.acc none true ev := by
  simp [Dev.scrub, hm, hp, PcState.errs]

/-! The rows, on dies that run. -/

section
variable {s : State} (hl : s.dev.live = true)
include hl

theorem exec_memoryAccess_live {a : MemAccess} (ha : ¬ positions ≤ placePos a.target) (ev : MemEvent) :
    exec (.memoryAccess a ev) s = .next { s with dev := s.dev.memoryAccess a ev } :=
  (if_neg ha).trans (onDie_live (fun d => d.memoryAccess a ev) hl)

section
variable {tgt : MemTarget} (ho : s.dev.Open tgt)
  (hp : s.dev.pc (12 * (s.dev.targetOf tgt).2.1 + (s.dev.targetOf tgt).1) = .online) (r : Requester)
include ho hp

theorem exec_memoryAccess_read {ev : MemEvent} (hev : ev ≠ .parityExhausted) :
    exec (.memoryAccess { target := tgt, req := r, wr := none } ev) s =
      .next (s.withDev (s.dev.lineEvent
      (s.dev.targetOf tgt).1 (s.dev.targetOf tgt).2.1 (s.dev.targetOf tgt).2.2.1
        (s.dev.targetOf tgt).2.2.2.1 none false ev)) := by
  rw [exec_memoryAccess_live hl ho.exists_position, Dev.memoryAccess_read ho hp r hev]
  rfl

theorem exec_memoryAccess_write (data : BitVec 512) (be : BitVec 64) (poison : Bool) :
    exec (.memoryAccess { target := tgt, req := r, wr := some (data, be, poison) } .clean) s =
      .next { s with dev := s.dev.storeLine (s.dev.lineOf tgt) data.toNat be.toNat poison } := by
  rw [exec_memoryAccess_live hl ho.exists_position, Dev.memoryAccess_write ho hp]

end

theorem exec_scrub_live {l : MemLine} (hx : l.pos.toNat < positions) (ev : MemEvent) :
    exec (.scrub l ev) s = .next { s with dev := s.dev.scrub l ev } :=
  (if_neg (Nat.not_le.mpr hx)).trans (onDie_live (fun d => d.scrub l ev) hl)

end

end Sys2Proof.Machine

open Sys2Proof Sys2Proof.Machine

/-- Settles O59: an access that nothing holds is performed, a write as the line it stores; a scrub by what the code finds. -/
theorem linesAreAccessed : Obligations.LinesAreAccessed := by
  unfold Obligations.LinesAreAccessed
  refine ⟨fun s a ev h => if_pos h, fun s l ev h => if_pos h, fun s tgt r hl hp hopen => ?access, fun s l hl hx hm hp => ?scrub⟩
  case access =>
    have ho : s.dev.Open tgt := by cases tgt <;> exact hopen
    refine ⟨exec_memoryAccess_read hl ho hp r (ev := .clean) (by decide),
      ⟨_, exec_memoryAccess_read hl ho hp r (ev := .innerCorrected) (by decide),
      Dev.get_bump_self _ _ _, rfl, rfl⟩, fun data be poison => ⟨_, exec_memoryAccess_write hl ho hp r data be poison, rfl, rfl, rfl,
      rfl, fun i hi => Dev.byte_storeLine _ _ _ _ _ hi, fun x hx => Dev.byte_storeLine_out _ _ _ _ _ hx, fun h => ?poisoned,
      fun h hb => ?whole, fun h hb => ?part, Dev.storeLine_wf _ _ _ _ _⟩⟩
    case poisoned => subst h; exact Dev.storeLine_poisoned _ _ _ _
    case whole => subst h; exact Dev.storeLine_whole _ _ _ _ hb
    case part => subst h; exact Dev.storeLine_part _ _ _ _ hb
  case scrub =>
    have hrow := fun ev => exec_scrub_live hl hx ev
    simp only [Dev.scrub_open hm hp] at hrow
    refine ⟨hrow .clean, fun bad hb hc => (hrow _).trans ?corrected, fun bad hb hc => ⟨_, hrow _, rfl, ?lost⟩⟩
    case corrected =>
      rw [Dev.lineEvent_corrected _ _ _ _ _ _ _ hb hc]
      rfl
    case lost =>
      have hloss := Dev.lineEvent_lost s.dev l.s l.k l.pos.toNat l.acc none true hb hc
      simp only [Dev.losses, Prod.mk.injEq] at hloss
      obtain ⟨hh, hpoison, hn⟩ := hloss
      exact ⟨by rw [hpoison]; exact NSet.mem_add _ _, hn, hh⟩
end

section
/-! SUPPORT. The states of pseudo-channels: the accesses that are released, and the units that go on with them, leave every
pseudo-channel in the state it has. -/

namespace Sys2Proof.Machine

theorem foldl_pcState {β : Type} {f : Dev → β → Dev} {d : Dev} {l : List β} (h : ∀ d b, (f d b).mem.pcState = d.mem.pcState) :
    (l.foldl f d).mem.pcState = d.mem.pcState :=
  foldl_field (fun d => d.mem.pcState) f h l d

@[simp] theorem ite_pcState (c : Prop) [Decidable c] (a b : Dev) :
    (if c then a else b).mem.pcState = if c then a.mem.pcState else b.mem.pcState := by split <;> rfl

variable (d : Dev)

/-! Writes of working memory (R257). -/

@[simp] theorem Dev.setMemByte_pcState (a : Nat) (v : Byte) : (d.setMemByte a v).mem.pcState = d.mem.pcState := rfl

@[simp] theorem Dev.setBytesAt_pcState (a : Nat) (l : List Byte) : (d.setBytesAt a l).mem.pcState = d.mem.pcState := by
  induction l generalizing d a with
  | nil => rfl
  | cons b l ih => exact ih _ _

@[simp] theorem Dev.markLine_pcState (a : Nat) (p : Bool) : (d.markLine a p).mem.pcState = d.mem.pcState := rfl

@[simp] theorem Dev.markRange_pcState (a n : Nat) (p : Bool) : (d.markRange a n p).mem.pcState = d.mem.pcState :=
  foldl_pcState fun _ _ => by simp

@[simp] theorem Dev.writeMem_pcState (a : Nat) (l : List Byte) (p : Bool) : (d.writeMem a l p).mem.pcState = d.mem.pcState := by
  simp [Dev.writeMem]

/-! Free values (log 5). -/

@[simp] theorem Dev.draw_pcState : d.draw.2.mem.pcState = d.mem.pcState := rfl

/-! Places of benches (R401 to R403, R116). -/

@[simp] theorem Dev.clearBench_pcState (pl : Nat) : (d.clearBench pl).mem.pcState = d.mem.pcState := rfl

@[simp] theorem Dev.takeOver_pcState (a b : Nat) : (d.takeOver a b).mem.pcState = d.mem.pcState := rfl

@[simp] theorem Dev.replaceHost_pcState (p host b : Nat) : (d.replaceHost p host b).mem.pcState = d.mem.pcState := rfl

@[simp] theorem Dev.applyRemap_pcState (p : Nat) : (d.applyRemap p).mem.pcState = d.mem.pcState := by
  have h := foldl_pcState (d := d) (l := (d.part p).remap) fun d x => d.replaceHost_pcState p x.1 x.2
  simpa [Dev.applyRemap] using h

/-! Device memory and the teardown by a fault (R257 to R259, R410). -/

@[simp] theorem Dev.writeNum_pcState (off n v : Nat) : (d.writeNum off n v).mem.pcState = d.mem.pcState := by simp [Dev.writeNum]

@[simp] theorem Dev.hold_pcState (off n : Nat) (what : HeldFor) : (d.hold off n what).mem.pcState = d.mem.pcState := rfl

@[simp] theorem Dev.postMem_pcState (off : Nat) (bs : List Byte) : (d.postMem off bs).mem.pcState = d.mem.pcState := by
  simp [Dev.postMem]

@[simp] theorem Dev.abortingChans_pcState (p : Nat) : (d.abortingChans p).mem.pcState = d.mem.pcState := rfl

@[simp] theorem Dev.stopAgent_pcState (p : Nat) : (d.stopAgent p).mem.pcState = d.mem.pcState := by simp [Dev.stopAgent]

@[simp] theorem Dev.startTeardown_pcState (p endState : Nat) (confirm : Bool) (tenancy : Nat) :
    (d.startTeardown p endState confirm tenancy).mem.pcState = d.mem.pcState := by simp [Dev.startTeardown]

@[simp] theorem Dev.faultTeardown_pcState (p causeType causeSeq : Nat) :
    (d.faultTeardown p causeType causeSeq).mem.pcState = d.mem.pcState := by
  unfold Dev.faultTeardown
  (repeat' split) <;> simp

@[simp] theorem Dev.consumePoison_pcState (w : Where) (addr space unit reader : Nat) :
    (d.consumePoison w addr space unit reader).mem.pcState = d.mem.pcState := by simp [Dev.consumePoison]

/-! Tallies and signals (R196 to R203, R219 to R221). -/

@[simp] theorem Dev.granted_pcState (id : Nat) : (d.granted id).mem.pcState = d.mem.pcState := by simp [Dev.granted]

@[simp] theorem Dev.tryGrant_pcState (t : Nat) (x : Taker) : (d.tryGrant t x).mem.pcState = d.mem.pcState := by simp [Dev.tryGrant]

@[simp] theorem Dev.evaluate_pcState (t : Nat) : (d.evaluate t).mem.pcState = d.mem.pcState := by
  unfold Dev.evaluate
  split
  · rfl
  · extract_lets obs e
    have he : e.mem.pcState = d.mem.pcState := foldl_pcState fun _ _ => rfl
    exact (foldl_pcState fun _ _ => by simp).trans he

@[simp] theorem Dev.endWaits_pcState (t : Nat) : (d.endWaits t).mem.pcState = d.mem.pcState := rfl

@[simp] theorem Dev.deliver_pcState (p v payload : Nat) : (d.deliver p v payload).mem.pcState = d.mem.pcState :=
  foldl_pcState fun _ _ => rfl

@[simp] theorem Dev.applySignal_pcState (s : Signal) : (d.applySignal s).mem.pcState = d.mem.pcState := by
  unfold Dev.applySignal
  (repeat' split) <;> simp

/-! Ports and requests (R290 to R300). -/

@[simp] theorem Dev.enqueue_pcState (n vl : Nat) (pkt : Packet) : (d.enqueue n vl pkt).mem.pcState = d.mem.pcState := rfl

@[simp] theorem Dev.tell_pcState (n : Nat) (c : Control) : (d.tell n c).mem.pcState = d.mem.pcState := rfl

@[simp] theorem Dev.leaveBuffer_pcState (n vl own shared : Nat) : (d.leaveBuffer n vl own shared).mem.pcState = d.mem.pcState := by
  simp [Dev.leaveBuffer]

theorem Dev.pickPort_pcState {r chip n : Nat} {e : Dev} (h : d.pickPort r chip = some (n, e)) : e.mem.pcState = d.mem.pcState := by
  simp only [Dev.pickPort] at h
  split at h
  · simp at h
  · simp only [Option.some.injEq, Prod.mk.injEq] at h
    obtain ⟨-, rfl⟩ := h
    rfl

@[simp] theorem Dev.errorStatus_pcState : d.errorStatus.2.mem.pcState = d.mem.pcState := rfl

@[simp] theorem Dev.writeEnabled_pcState (off be : Nat) (bs : List Byte) (poison : Bool) :
    (d.writeEnabled off be bs poison).mem.pcState = d.mem.pcState := by
  unfold Dev.writeEnabled
  extract_lets e
  have he : e.mem.pcState = d.mem.pcState := foldl_pcState fun _ _ => rfl
  (repeat' split) <;> simp [he]

@[simp] theorem Dev.writeLines_pcState (off n lp : Nat) (bs : List Byte) : (d.writeLines off n lp bs).mem.pcState = d.mem.pcState :=
  foldl_pcState fun _ _ => by simp

@[simp] theorem Dev.signalOf'_pcState (own : Bool) (s : Signal) : (d.signalOf' own s).mem.pcState = d.mem.pcState := by
  simp [Dev.signalOf']

theorem Dev.denied_pcState {p : Nat} {h : PacketHeader} {r : Dev × Reply} (hr : d.denied p h = some r) :
    r.1.mem.pcState = d.mem.pcState := by
  unfold Dev.denied at hr
  (repeat' split at hr) <;> cases hr <;> simp

@[simp] theorem Dev.perform_pcState (own : Bool) (p : Nat) (h : PacketHeader) (payload : List Byte) :
    (d.perform own p h payload).1.mem.pcState = d.mem.pcState := by
  unfold Dev.perform
  extract_lets n guarded
  have hg : ∀ e, (guarded e).mem.pcState = e.mem.pcState := fun e => by simp [guarded]
  (repeat' split) <;> simp [hg]

@[simp] theorem Dev.serve_pcState (own : Bool) (p : Nat) (h : PacketHeader) (payload : List Byte) :
    (d.serve own p h payload).1.mem.pcState = d.mem.pcState := by
  unfold Dev.serve
  split
  next r hr => exact d.denied_pcState hr
  next => simp

@[simp] theorem Dev.setReq_pcState (tag : Nat) (r : Option Req) : (d.setReq tag r).mem.pcState = d.mem.pcState := rfl

@[simp] theorem Dev.flyOwn_pcState (q : Nat) (what : ReqFor) (h : PacketHeader) (payload : List Byte) :
    (d.flyOwn q what h payload).mem.pcState = d.mem.pcState := rfl

@[simp] theorem Dev.request_pcState (p : Nat) (what : ReqFor) (h : PacketHeader) (payload : List Byte) :
    (d.request p what h payload).1.mem.pcState = d.mem.pcState := by
  unfold Dev.request
  extract_lets hd
  split
  · split
    · rfl
    · (repeat' split) <;> simp
  · split
    next => rfl
    next n e he => simp [d.pickPort_pcState he]

theorem Dev.request_eq_pcState {p : Nat} {what : ReqFor} {h : PacketHeader} {payload : List Byte} {e : Dev} {r : Option Reply}
    (he : d.request p what h payload = (e, r)) : e.mem.pcState = d.mem.pcState := by
  rw [← d.request_pcState p what h payload, he]

@[simp] theorem Dev.respond_pcState (n : Nat) (h : PacketHeader) (r : Reply) : (d.respond n h r).mem.pcState = d.mem.pcState := rfl

@[simp] theorem Dev.dropReqs_pcState (f : Req → Bool) : (d.dropReqs f).mem.pcState = d.mem.pcState := rfl

@[simp] theorem Dev.requestSignal_pcState (s : Signal) (c : Cmd) : (d.requestSignal s c).1.mem.pcState = d.mem.pcState := by
  simp [Dev.requestSignal]

/-! Chains and their reports (R128, R141, R159). -/

@[simp] theorem Dev.drainCheck_pcState (p : Nat) : (d.drainCheck p).mem.pcState = d.mem.pcState := by
  unfold Dev.drainCheck
  (repeat' split) <;> simp

@[simp] theorem Dev.faultChain_pcState (k : ChainId) : (d.faultChain k).mem.pcState = d.mem.pcState := by
  rw [Dev.faultChain, Dev.drainCheck_pcState]
  exact foldl_pcState fun _ _ => by simp

@[simp] theorem Dev.malformed_pcState (c : Cmd) (fieldBit vinstr : Nat) :
    (d.malformed c fieldBit vinstr).mem.pcState = d.mem.pcState := by simp [Dev.malformed]

@[simp] theorem Dev.engineBusError_pcState (c : Cmd) (addr unit space write status : Nat) :
    (d.engineBusError c addr unit space write status).mem.pcState = d.mem.pcState := by simp [Dev.engineBusError]

@[simp] theorem Dev.segDone_pcState (k : ChainId) (u endSeq : Nat) : (d.segDone k u endSeq).mem.pcState = d.mem.pcState := by
  unfold Dev.segDone
  (repeat' split) <;> simp

@[simp] theorem Dev.haulRecord_pcState (e : HaulEnd) (p seq transpose : Nat) :
    (d.haulRecord e p seq transpose).mem.pcState = d.mem.pcState := by
  have hs : ∀ (q : Prop) [Decidable q] k v x off bs kt vt,
      ((if q then (d.put k v).setChan e.h e.ch x else d.postMem off bs).put kt vt).mem.pcState = d.mem.pcState := by
    intro q _ k v x off bs kt vt
    rw [Dev.put_mem]
    split
    · rfl
    · exact d.postMem_pcState off bs
  exact hs _ _ _ _ _ _ _ _

@[simp] theorem Dev.report_pcState (k : ChainId) (u : Nat) (o : Outst) : (d.report k u o).mem.pcState = d.mem.pcState := by
  unfold Dev.report
  extract_lets h c e g cmd f
  have he : e.mem.pcState = d.mem.pcState := by
    simp only [e]
    split <;> simp
  have hf : f.mem.pcState = e.mem.pcState := by simp [f]
  rw [Dev.setCursor_mem, hf, he]

theorem Dev.flushHead_pcState {k : ChainId} {u : Nat} {o : Outst} {e : Dev} {s : Option Signal}
    (h : d.flushHead k u o = some (e, s)) : e.mem.pcState = d.mem.pcState := by
  unfold Dev.flushHead at h
  extract_lets op c mark b at h
  (repeat' split at h) <;> cases h <;> simp

@[simp] theorem Dev.noteFull_pcState (k : ChainId) (o : Outst) : (d.noteFull k o).mem.pcState = d.mem.pcState := by
  unfold Dev.noteFull
  (repeat' split) <;> simp

theorem Dev.flush_pcState {send : Dev → Signal → Dev} {free : Dev → Nat → Nat → Dev}
    (hs : ∀ d s, (send d s).mem.pcState = d.mem.pcState) (hf : ∀ d h ch, (free d h ch).mem.pcState = d.mem.pcState) (n : Nat)
    (k : ChainId) (u : Nat) : (Dev.flush send free n d k u).mem.pcState = d.mem.pcState := by
  induction n generalizing d with
  | zero => rfl
  | succ n ih =>
    unfold Dev.flush
    split
    · rfl
    · extract_lets e
      have he : e.mem.pcState = d.mem.pcState := d.noteFull_pcState k _
      split
      next => exact he
      next f hf' =>
        rw [ih, ← he, ← Dev.flushHead_pcState _ hf']
        split <;> simp [hf]
      next f s hf' =>
        rw [ih, ← he, ← Dev.flushHead_pcState _ hf']
        split <;> simp [hs]

/-! Ends and stops of haul channels (R177 to R191). -/

@[simp] theorem Dev.setHaulStops_pcState (h : Nat) (l : List HaulStop) : (d.setHaulStops h l).mem.pcState = d.mem.pcState := rfl

@[simp] theorem Dev.chanRest_pcState (h ch : Nat) : (d.chanRest h ch).mem.pcState = d.mem.pcState := rfl

@[simp] theorem Dev.oweRecord_pcState (cmd : Cmd) (e : HaulEnd) : (d.oweRecord cmd e).mem.pcState = d.mem.pcState := by
  simp [Dev.oweRecord]

@[simp] theorem Dev.owe_pcState (cmd : Cmd) (e : HaulEnd) : (d.owe cmd e).mem.pcState = d.mem.pcState := by simp [Dev.owe]

@[simp] theorem Dev.endBad_pcState (h ch status addr unit space : Nat) (guard : Bool) :
    (d.endBad h ch status addr unit space guard).mem.pcState = d.mem.pcState := by
  unfold Dev.endBad
  extract_lets
  (repeat' split) <;> simp

@[simp] theorem Dev.dropQueued_pcState (h ch : Nat) : (d.dropQueued h ch).mem.pcState = d.mem.pcState := by
  have hq : ∀ w x cmd e, (((d.setWait w Wait.none).setChan h ch x).owe cmd e).mem.pcState = d.mem.pcState :=
    fun _ _ _ _ => by simp
  unfold Dev.dropQueued
  extract_lets c
  split
  · rfl
  · exact hq _ _ _ _

@[simp] theorem Dev.abortEnd_pcState (h ch : Nat) : (d.abortEnd h ch).mem.pcState = d.mem.pcState := by simp [Dev.abortEnd]

@[simp] theorem Dev.endStop_pcState (h : Nat) : (d.endStop h).mem.pcState = d.mem.pcState := by
  unfold Dev.endStop
  extract_lets stops charged a b
  have ha : a.mem.pcState = d.mem.pcState := foldl_pcState fun _ _ => by simp
  have hb : b.mem.pcState = a.mem.pcState := rfl
  refine (foldl_pcState fun e ch => ?_).trans (hb.trans ha)
  extract_lets c pay
  have hpay : ∀ cmd go, go.mem.pcState = e.mem.pcState → (pay cmd go).mem.pcState = e.mem.pcState := fun cmd go hgo => by
    simp only [pay]
    split <;> simp [hgo]
  split
  · rfl
  · exact hpay _ _ rfl
  · exact hpay _ _ rfl
  · rfl

@[simp] theorem Dev.stopEngine_pcState (h ch : Nat) (s : HaulStop) : (d.stopEngine h ch s).mem.pcState = d.mem.pcState := by
  unfold Dev.stopEngine
  extract_lets a b e
  have ha : a.mem.pcState = d.mem.pcState := by simp [a]
  have he : e.mem.pcState = b.mem.pcState := by
    unfold e
    refine foldl_pcState fun f i => ?_
    extract_lets c
    split <;> rfl
  have hb : b.mem.pcState = a.mem.pcState := rfl
  split <;> simp [he, hb, ha]

/-! Bench store (R108 to R111). -/

@[simp] theorem Dev.setStoreByte_pcState (pl a : Nat) (v : Byte) : (d.setStoreByte pl a v).mem.pcState = d.mem.pcState := by
  unfold Dev.setStoreByte
  split <;> rfl

@[simp] theorem Dev.setStore_pcState (pl a : Nat) (l : List Byte) : (d.setStore pl a l).mem.pcState = d.mem.pcState := by
  induction l generalizing d a with
  | nil => rfl
  | cons b l ih => rw [Dev.setStore, ih, Dev.setStoreByte_pcState]

@[simp] theorem Dev.markStore_pcState (pl a : Nat) (p : Bool) : (d.markStore pl a p).mem.pcState = d.mem.pcState := by
  unfold Dev.markStore
  split <;> rfl

@[simp] theorem Dev.writeStore_pcState (pl a : Nat) (l : List Byte) (p : Bool) :
    (d.writeStore pl a l p).mem.pcState = d.mem.pcState := by
  rw [Dev.writeStore]
  exact (foldl_pcState fun _ _ => by (repeat' split) <;> simp).trans (d.setStore_pcState pl a l)

@[simp] theorem Dev.setLanes_pcState (pl : Nat) (b : MatmulBody) (es : List (Nat × TileElem)) :
    (d.setLanes pl b es).mem.pcState = d.mem.pcState := by
  rw [Dev.setLanes]

@[simp] theorem Dev.cleanLines_pcState (pl : Nat) (pieces : List (Nat × Nat)) :
    (d.cleanLines pl pieces).mem.pcState = d.mem.pcState :=
  foldl_pcState fun _ _ => by split <;> simp

/-! Haul transfers (R162 to R189). -/

@[simp] theorem Dev.takeBytes_pcState (h ch place : Nat) (bs : List Byte) (bad : List Nat) :
    (d.takeBytes h ch place bs bad).mem.pcState = d.mem.pcState := rfl

@[simp] theorem Dev.readPiece_pcState (h ch i : Nat) (cmd : Cmd) (x : Descriptor) (p : Piece) :
    (d.readPiece h ch i cmd x p).1.mem.pcState = d.mem.pcState := by
  unfold Dev.readPiece
  extract_lets c e s places pl first lines
  have he : e.mem.pcState = d.mem.pcState := rfl
  split
  · split <;> simp [he]
  · split
    · simp [he]
    · split
      next f hf => exact (Dev.request_eq_pcState _ hf).trans he
      next f r hf => split <;> simp [Dev.request_eq_pcState _ hf, he]

@[simp] theorem Dev.ackBytes_pcState (h ch n : Nat) (x : Descriptor) : (d.ackBytes h ch n x).mem.pcState = d.mem.pcState := by
  simp [Dev.ackBytes]

@[simp] theorem Dev.writePiece_pcState (h ch i m : Nat) (cmd : Cmd) (x : Descriptor) (p : Piece) (last : Bool) :
    (d.writePiece h ch i m cmd x p last).1.mem.pcState = d.mem.pcState := by
  unfold Dev.writePiece
  extract_lets c s src bs badAt poison guard e g done first skip n payload marks en h1
  have he : e.mem.pcState = d.mem.pcState := rfl
  have hdone : ∀ f, (done f).mem.pcState = f.mem.pcState := fun f => by
    simp only [done]
    (repeat' split) <;> simp
  split
  · split <;> simp [hdone, he]
  · split
    · simp [hdone, he]
    · split
      next f hf => exact (Dev.request_eq_pcState _ hf).trans he
      next f r hf => (repeat' split) <;> simp [Dev.request_eq_pcState _ hf, he]

@[simp] theorem Dev.readBack_pcState (h ch : Nat) (cmd : Cmd) (x : Descriptor) :
    (d.readBack h ch cmd x).mem.pcState = d.mem.pcState := by
  unfold Dev.readBack
  split
  · rfl
  · split
    next e he => exact d.request_eq_pcState he
    next e r he => simp [d.request_eq_pcState he]

@[simp] theorem Dev.haulRun_pcState (n h ch : Nat) (cmd : Cmd) : (Dev.haulRun n d h ch cmd).mem.pcState = d.mem.pcState := by
  induction n generalizing d with
  | zero => rfl
  | succ n ih =>
    unfold Dev.haulRun
    extract_lets x
    split
    · rfl
    · split <;> simp
    next _ i p _ =>
      have h1 := d.readPiece_pcState h ch i cmd x p
      split
      next e he => rw [ih, ← h1, he]
      next e s he => rw [Dev.stopEngine_pcState, ← h1, he]
    next _ i m p last _ =>
      extract_lets e
      have he : e.mem.pcState = d.mem.pcState := by simp [e]
      have h1 := e.writePiece_pcState h ch i m cmd x p last
      split <;> simp_all

@[simp] theorem Dev.haulOn_pcState (h ch : Nat) : (d.haulOn h ch).mem.pcState = d.mem.pcState := by
  unfold Dev.haulOn
  (repeat' split) <;> simp

@[simp] theorem Dev.haulStart_pcState (h ch : Nat) : (d.haulStart h ch).mem.pcState = d.mem.pcState := by
  unfold Dev.haulStart
  extract_lets
  (repeat' split) <;> simp

@[simp] theorem Dev.haulDrain_pcState (h : Nat) : (d.haulDrain h).mem.pcState = d.mem.pcState := by
  unfold Dev.haulDrain
  split
  · rfl
  · exact (foldl_pcState fun _ _ => by simp).trans (d.endStop_pcState h)

@[simp] theorem Dev.kickHaul_pcState (h ch : Nat) : (d.kickHaul h ch).mem.pcState = d.mem.pcState := by simp [Dev.kickHaul]

@[simp] theorem Dev.chanFree_pcState (h ch : Nat) : (d.chanFree h ch).mem.pcState = d.mem.pcState := by simp [Dev.chanFree]

@[simp] theorem Dev.kickHauls_pcState : d.kickHauls.mem.pcState = d.mem.pcState := by
  unfold Dev.kickHauls
  exact foldl_pcState fun _ _ => by split <;> simp

/-! The step in flight and its vote (R355 to R369). -/

@[simp] theorem Dev.extendSeg_pcState (c : Cmd) (ns : Nat) : (d.extendSeg c ns).mem.pcState = d.mem.pcState := rfl

@[simp] theorem Dev.recutExtend_pcState (p : Nat) : (d.recutExtend p).mem.pcState = d.mem.pcState := by
  unfold Dev.recutExtend
  (repeat' split) <;> simp

@[simp] theorem Dev.recutTrigger_pcState (p trigger : Nat) : (d.recutTrigger p trigger).mem.pcState = d.mem.pcState := by
  unfold Dev.recutTrigger
  (repeat' split) <;> simp

@[simp] theorem Dev.beginStep_pcState (p : Nat) : (d.beginStep p).mem.pcState = d.mem.pcState := by
  unfold Dev.beginStep
  extract_lets a t e
  have he : e.mem.pcState = d.mem.pcState := rfl
  (repeat' split) <;> simp [he]

@[simp] theorem Dev.inboxCheck_pcState (p : Nat) : (d.inboxCheck p).mem.pcState = d.mem.pcState := by
  unfold Dev.inboxCheck
  split
  · rfl
  · split
    · rfl
    · extract_lets own r t e c mine
      have he : e.mem.pcState = d.mem.pcState := by
        simp only [e]
        (repeat' split) <;> simp
      (repeat' split) <;> simp [he]

@[simp] theorem Dev.sendVote_pcState (p n : Nat) (fail abandon : Bool) :
    (d.sendVote p n fail abandon).mem.pcState = d.mem.pcState := by
  unfold Dev.sendVote
  extract_lets word a b t c e
  have ha : a.mem.pcState = d.mem.pcState := by simp [a]
  have hb : b.mem.pcState = a.mem.pcState := by simp [b]
  have he : e.mem.pcState = c.mem.pcState := by
    simp only [e]
    split <;> simp
  have hc : c.mem.pcState = b.mem.pcState := rfl
  simp [he, hc, hb, ha]

@[simp] theorem Dev.voteIfDue_pcState (p : Nat) : (d.voteIfDue p).mem.pcState = d.mem.pcState := by
  unfold Dev.voteIfDue
  extract_lets e
  have he : e.mem.pcState = d.mem.pcState := d.inboxCheck_pcState p
  (repeat' split) <;> simp [he]

/-! Vector instructions (R153, R154). -/

@[simp] theorem Dev.consumeLoad_pcState (w : Option Where) (pl unit : Nat) (pieces : List (Nat × Nat)) :
    (d.consumeLoad w pl unit pieces).mem.pcState = d.mem.pcState := by
  unfold Dev.consumeLoad
  split
  · rfl
  · exact foldl_pcState fun _ _ => by simp

@[simp] theorem Dev.vexec_pcState (w : Option Where) (pl unit : Nat) (x : VectorInstr) (addr : Nat) :
    (d.vexec w pl unit x addr).mem.pcState = d.mem.pcState := by
  have hst : ∀ es : List (Word32 × Nat),
      (es.foldl (fun d e => d.writeStore pl (laneAddr addr x.vstride e.2) (toBytes e.1.toNat 4) false) d).mem.pcState =
        d.mem.pcState := fun es => foldl_pcState fun _ _ => by simp
  simp only [Dev.vexec, ite_pcState, Dev.setVreg_mem, Dev.setVmask_mem, Dev.consumeLoad_pcState, Dev.cleanLines_pcState, hst,
    ite_self]

/-! The end of commands and the units of a bench (R88 to R106, R141, R196). -/

@[simp] theorem Dev.mapOutst_pcState (c : Cmd) (f : Outst → Outst) : (d.mapOutst c f).mem.pcState = d.mem.pcState := rfl

@[simp] theorem Dev.ctlDone_pcState (c : Cmd) : (d.ctlDone c).mem.pcState = d.mem.pcState := rfl

@[simp] theorem Dev.signalError_pcState (c : Cmd) (status : Nat) : (d.signalError c status).mem.pcState = d.mem.pcState := by
  simp [Dev.signalError]

@[simp] theorem Dev.sendRemote_pcState (s : Signal) : (d.sendRemote s).mem.pcState = d.mem.pcState := by
  unfold Dev.sendRemote
  split
  · rfl
  next c hc =>
    split
    next e he => rw [← d.requestSignal_pcState s c, he]
    next e r he =>
      have h : e.mem.pcState = d.mem.pcState := by rw [← d.requestSignal_pcState s c, he]
      split <;> simp [h]

@[simp] theorem Dev.haltCheck_pcState (k : ChainId) (u : Nat) : (d.haltCheck k u).mem.pcState = d.mem.pcState := by
  simp [Dev.haltCheck]

@[simp] theorem Dev.settle_pcState (k : ChainId) (u : Nat) : (d.settle k u).mem.pcState = d.mem.pcState := by
  rw [Dev.settle, Dev.haltCheck_pcState, Dev.flush_pcState _ Dev.sendRemote_pcState Dev.chanFree_pcState]

@[simp] theorem Dev.finish_pcState (c : Cmd) (haul : Option HaulEnd) : (d.finish c haul).mem.pcState = d.mem.pcState := by
  simp [Dev.finish]

@[simp] theorem Dev.wake_pcState (pl : Nat) (unit : ActUnit) : (d.wake pl unit).mem.pcState = d.mem.pcState := by simp [Dev.wake]

@[simp] theorem Dev.setTilesSent_pcState (pl ch v : Nat) : (d.setTilesSent pl ch v).mem.pcState = d.mem.pcState := rfl

@[simp] theorem Dev.setTilesRecv_pcState (pl ch v : Nat) : (d.setTilesRecv pl ch v).mem.pcState = d.mem.pcState := rfl

@[simp] theorem Dev.freeSlots_pcState (pl : Nat) (c : Cmd) : (d.freeSlots pl c).mem.pcState = d.mem.pcState :=
  foldl_pcState fun _ _ => by simp

@[simp] theorem Dev.conveyorOrder_pcState (pl i : Nat) (h : ConvHeader) : (d.conveyorOrder pl i h).mem.pcState = d.mem.pcState := by
  unfold Dev.conveyorOrder
  (repeat' split) <;> simp

@[simp] theorem Dev.checkInbox_pcState (pl : Nat) : (d.checkInbox pl).mem.pcState = d.mem.pcState := by
  unfold Dev.checkInbox
  refine foldl_pcState fun e f => foldl_pcState fun a t => ?_
  extract_lets h
  (repeat' split) <;> simp

@[simp] theorem Dev.startMatrix_pcState (pl : Nat) (c : Cmd) : (d.startMatrix pl c).mem.pcState = d.mem.pcState := by
  unfold Dev.startMatrix
  extract_lets b e x pass f s g q m z
  have he : e.mem.pcState = d.mem.pcState := by simp [e]
  have hg : g.mem.pcState = e.mem.pcState := by
    simp only [g]
    split <;> simp [f]
  have hz : z.mem.pcState = g.mem.pcState := by
    simp only [z]
    split <;> simp [m]
  split <;> simp [hz, hg, he]

@[simp] theorem Dev.kickMatrix_pcState (n pl : Nat) : (Dev.kickMatrix n d pl).mem.pcState = d.mem.pcState := by
  induction n generalizing d with
  | zero => rfl
  | succ n ih =>
    unfold Dev.kickMatrix
    extract_lets e
    have he : e.mem.pcState = d.mem.pcState := d.wake_pcState pl .faces
    split <;> simp [ih, he]

@[simp] theorem Dev.vecRun_pcState (c : Cmd) (pl : Nat) (b : VectorBody) (add n j : Nat) :
    (Dev.vecRun c pl b add n j d).1.mem.pcState = d.mem.pcState := by
  induction n generalizing d j with
  | zero => rfl
  | succ n ih =>
    unfold Dev.vecRun
    extract_lets w x
    split
    · rfl
    · rw [ih, Dev.vexec_pcState]

@[simp] theorem Dev.vecReps_pcState (c : Cmd) (pl : Nat) (b : VectorBody) (n i : Nat) :
    (Dev.vecReps c pl b n i d).1.mem.pcState = d.mem.pcState := by
  induction n generalizing d i with
  | zero => rfl
  | succ n ih =>
    unfold Dev.vecReps
    split
    next e he => rw [ih, ← d.vecRun_pcState c pl b (i * b.addrStep) b.progLen 0, he]
    next => simp

@[simp] theorem Dev.startVector_pcState (pl : Nat) (c : Cmd) : (d.startVector pl c).mem.pcState = d.mem.pcState := by
  unfold Dev.startVector
  extract_lets b q e f
  have hf : f.mem.pcState = d.mem.pcState := by simp [f, e]
  have h := f.vecReps_pcState c pl b (b.repeatM1 + 1) 0
  split <;> simp_all

@[simp] theorem Dev.kickVector_pcState (n pl : Nat) : (Dev.kickVector n d pl).mem.pcState = d.mem.pcState := by
  induction n generalizing d with
  | zero => rfl
  | succ n ih =>
    unfold Dev.kickVector
    extract_lets e
    have he : e.mem.pcState = d.mem.pcState := d.wake_pcState pl .vector
    split <;> simp [ih, he]

@[simp] theorem Dev.kickBench_pcState (pl : Nat) : (d.kickBench pl).mem.pcState = d.mem.pcState := by simp [Dev.kickBench]

/-! Control commands that are dropped (R148). -/

@[simp] theorem Dev.dropCtl_pcState (k : ChainId) (u : Nat) : (d.dropCtl k u).mem.pcState = d.mem.pcState := rfl

/-! Answers to a haul channel (R175 to R182). -/

@[simp] theorem Dev.haulAnswer_pcState (w : ReqFor) (r : Reply) : (d.haulAnswer w r).mem.pcState = d.mem.pcState := by
  unfold Dev.haulAnswer
  (repeat' split) <;> simp

/-! The exchange engine (R325 to R340). -/

@[simp] theorem Dev.setHopper_pcState (p : Nat) (h : Option Hopper) : (d.setHopper p h).mem.pcState = d.mem.pcState := rfl

@[simp] theorem Dev.xqDone_pcState (p : Nat) : (d.xqDone p).mem.pcState = d.mem.pcState := rfl

@[simp] theorem Dev.dropStage_pcState (p : Nat) : (d.dropStage p).mem.pcState = d.mem.pcState := rfl

@[simp] theorem Dev.hopperError_pcState (p addr unit space write status : Nat) :
    (d.hopperError p addr unit space write status).mem.pcState = d.mem.pcState := by
  unfold Dev.hopperError
  (repeat' split) <;> simp

@[simp] theorem Dev.stage_pcState (p : Nat) (b : HopperBody) (first : Nat) (l : List Nat) :
    (d.stage p b first l).mem.pcState = d.mem.pcState := by simp [Dev.stage]

@[simp] theorem Dev.metNonfinite_pcState (p : Nat) (v : Bool) : (d.metNonfinite p v).mem.pcState = d.mem.pcState := by
  simp [Dev.metNonfinite]

@[simp] theorem Dev.sumOwn_pcState (p : Nat) (h : Hopper) : (d.sumOwn p h).mem.pcState = d.mem.pcState := by simp [Dev.sumOwn]

@[simp] theorem Dev.sumShard_pcState (p : Nat) (h : Hopper) : (d.sumShard p h).mem.pcState = d.mem.pcState := by
  unfold Dev.sumShard
  extract_lets
  (repeat' split) <;> simp

@[simp] theorem Dev.hopperEnd_pcState (p : Nat) : (d.hopperEnd p).mem.pcState = d.mem.pcState := by
  unfold Dev.hopperEnd
  (repeat' split) <;> simp

@[simp] theorem Dev.exchangePump_pcState (n p : Nat) : (Dev.exchangePump n d p).mem.pcState = d.mem.pcState := by
  induction n generalizing d with
  | zero => rfl
  | succ n ih =>
    unfold Dev.exchangePump
    split
    · rfl
    · split
      · simp
      · split
        · rfl
        · extract_lets e
          have he : e.mem.pcState = d.mem.pcState := by simp [e]
          split
          next f hf => rw [ih, Dev.request_eq_pcState _ hf, he]
          next f r hf => split <;> simp [ih, Dev.request_eq_pcState _ hf, he]

@[simp] theorem Dev.contribute_pcState (p : Nat) (h : Hopper) (hs : List Nat) :
    (d.contribute p h hs).mem.pcState = d.mem.pcState := by simp [Dev.contribute]

@[simp] theorem Dev.keepHopper_pcState (p : Nat) (b : HopperBody) : (d.keepHopper p b).mem.pcState = d.mem.pcState := rfl

@[simp] theorem Dev.readHopper_pcState (p : Nat) (h : Hopper) : (d.readHopper p h).mem.pcState = d.mem.pcState := by
  unfold Dev.readHopper
  extract_lets
  (repeat' split) <;> simp

@[simp] theorem Dev.exchangeOn_pcState (p : Nat) : (d.exchangeOn p).mem.pcState = d.mem.pcState := by
  unfold Dev.exchangeOn
  extract_lets e
  have he : e.mem.pcState = d.mem.pcState := by
    simp only [e]
    (repeat' split) <;> simp
  split
  · exact he
  · split <;> simp [he]

@[simp] theorem Dev.startHopper_pcState (p : Nat) (c : Cmd) : (d.startHopper p c).mem.pcState = d.mem.pcState := by
  unfold Dev.startHopper
  extract_lets
  (repeat' split) <;> simp

@[simp] theorem Dev.exchangeServe_pcState (p : Nat) (ph : PacketHeader) (bs : List Byte) :
    (d.exchangeServe p ph bs).1.mem.pcState = d.mem.pcState := by
  simp only [Dev.exchangeServe]
  (repeat' split) <;> simp

@[simp] theorem Dev.exchangeAnswer_pcState (p : Nat) (pkt : Packet) (status : Nat) :
    (d.exchangeAnswer p pkt status).mem.pcState = d.mem.pcState := by simp [Dev.exchangeAnswer]

/-! Digests, mirrors and outcomes (R340 to R342, R362 to R372). -/

@[simp] theorem Dev.sendDigest_pcState (p chip place kind : Nat) (r : DigestRecord) :
    (d.sendDigest p chip place kind r).1.mem.pcState = d.mem.pcState := by simp [Dev.sendDigest]

@[simp] theorem Dev.contribute64_pcState (p step : Nat) : (d.contribute64 p step).mem.pcState = d.mem.pcState := rfl

@[simp] theorem Dev.setMirror_pcState (p : Nat) (m : Option Mirror) : (d.setMirror p m).mem.pcState = d.mem.pcState := rfl

@[simp] theorem Dev.mirrorFail_pcState (p step status : Nat) : (d.mirrorFail p step status).mem.pcState = d.mem.pcState := by
  simp [Dev.mirrorFail]

@[simp] theorem Dev.mirrorAcked_pcState (p step : Nat) : (d.mirrorAcked p step).mem.pcState = d.mem.pcState := by
  simp [Dev.mirrorAcked]

@[simp] theorem Dev.mirrorAnswer_pcState (p step lines status : Nat) :
    (d.mirrorAnswer p step lines status).mem.pcState = d.mem.pcState := by
  unfold Dev.mirrorAnswer
  (repeat' split) <;> simp

@[simp] theorem Dev.sendMirror_pcState (p step off lines : Nat) (r : Reply) :
    (d.sendMirror p step off lines r).mem.pcState = d.mem.pcState := by
  unfold Dev.sendMirror
  split
  next e he => exact d.request_eq_pcState he
  next e a he => simp [d.request_eq_pcState he]

@[simp] theorem Dev.mirrorTooBig_pcState (p step : Nat) : (d.mirrorTooBig p step).mem.pcState = d.mem.pcState := by
  simp [Dev.mirrorTooBig]

@[simp] theorem Dev.mirrorPump_pcState (n p : Nat) : (Dev.mirrorPump n d p).mem.pcState = d.mem.pcState := by
  induction n generalizing d with
  | zero => rfl
  | succ n ih =>
    unfold Dev.mirrorPump
    extract_lets t
    (repeat' split) <;> simp [ih]

@[simp] theorem Dev.mirrorOn_pcState (p : Nat) : (d.mirrorOn p).mem.pcState = d.mem.pcState := by simp [Dev.mirrorOn]

@[simp] theorem Dev.unholdGauge_pcState (c : Cmd) : (d.unholdGauge c).mem.pcState = d.mem.pcState := rfl

@[simp] theorem Dev.outcomeWord_pcState (c : Cmd) (word : Nat) : (d.outcomeWord c word).mem.pcState = d.mem.pcState := by
  simp [Dev.outcomeWord]

@[simp] theorem Dev.voteEnd_pcState (p : Nat) (c : Cmd) (word : Nat) : (d.voteEnd p c word).mem.pcState = d.mem.pcState := by
  simp [Dev.voteEnd]

@[simp] theorem Dev.shadowCheck_pcState (p : Nat) : (d.shadowCheck p).mem.pcState = d.mem.pcState := by
  unfold Dev.shadowCheck
  (repeat' split) <;> simp

@[simp] theorem Dev.recordSent_pcState (p : Nat) : (d.recordSent p).mem.pcState = d.mem.pcState := by
  unfold Dev.recordSent
  (repeat' split) <;> simp

@[simp] theorem Dev.recordFailed_pcState (p status : Nat) : (d.recordFailed p status).mem.pcState = d.mem.pcState := by
  unfold Dev.recordFailed
  (repeat' split) <;> simp

@[simp] theorem Dev.startVote_pcState (p : Nat) (c : Cmd) : (d.startVote p c).mem.pcState = d.mem.pcState := by
  unfold Dev.startVote
  extract_lets b e t run f g k
  have he : e.mem.pcState = d.mem.pcState := d.contribute64_pcState p b.step
  split
  · have h := f.sendDigest_pcState p (f.get (kPeerChip p)) 1 2 (f.contribRecord p)
    split
    next g hg =>
      rw [hg] at h
      exact h.trans he
    next g r hg =>
      rw [hg] at h
      have hg' : g.mem.pcState = d.mem.pcState := h.trans he
      split <;> simp [hg']
  · have hg : g.mem.pcState = d.mem.pcState := by
      simp only [g]
      split <;> simp [he]
    have hk : k.mem.pcState = g.mem.pcState := congrArg Mem.pcState (g.setTrain_mem p _)
    (repeat' split) <;> simp [hk, hg]

@[simp] theorem Dev.exchangeKick_pcState (n p : Nat) : (Dev.exchangeKick n d p).mem.pcState = d.mem.pcState := by
  induction n generalizing d with
  | zero => rfl
  | succ n ih =>
    unfold Dev.exchangeKick
    extract_lets t
    split
    · rfl
    next c cs hx =>
      extract_lets vote e
      have he : e.mem.pcState = d.mem.pcState := by simp [e]
      split
      · rfl
      · split <;> simp [ih, he]

@[simp] theorem Dev.kickExchange_pcState (p : Nat) : (d.kickExchange p).mem.pcState = d.mem.pcState := by simp [Dev.kickExchange]

/-! Bed streams and checkpoints (R374 to R385). -/

@[simp] theorem Dev.setCkpt_pcState (p : Nat) (c : Option Ckpt) : (d.setCkpt p c).mem.pcState = d.mem.pcState := rfl

@[simp] theorem Dev.stopCkpt_pcState (p : Nat) : (d.stopCkpt p).mem.pcState = d.mem.pcState := by simp [Dev.stopCkpt]

@[simp] theorem Dev.failCkpt_pcState (p status : Nat) : (d.failCkpt p status).mem.pcState = d.mem.pcState := by
  unfold Dev.failCkpt
  (repeat' split) <;> simp

@[simp] theorem Dev.ckptWrite_pcState (p addr : Nat) (r : Reply) : (d.ckptWrite p addr r).1.mem.pcState = d.mem.pcState := by
  simp [Dev.ckptWrite]

@[simp] theorem Dev.ckptPump_pcState (n p : Nat) : (Dev.ckptPump n d p).mem.pcState = d.mem.pcState := by
  induction n generalizing d with
  | zero => rfl
  | succ n ih =>
    unfold Dev.ckptPump
    split
    · rfl
    next c hc =>
      extract_lets rs base go sendRecord state
      have hgo : ∀ e addr r, (go e addr r).mem.pcState = e.mem.pcState := fun e addr r => by
        have h := e.ckptWrite_pcState p addr r
        simp only [go]
        split
        next f hf => rw [ih, ← h, hf]
        next f a hf =>
          rw [hf] at h
          have h' : f.mem.pcState = e.mem.pcState := h
          (repeat' split) <;> simp [ih, h']
      have hsend : ∀ e w, (sendRecord e w).mem.pcState = e.mem.pcState :=
        fun e w => (hgo _ _ _).trans (e.setCkpt_pcState p _)
      (repeat' split) <;> simp [ih, hgo, hsend]

@[simp] theorem Dev.ckptOn_pcState (p : Nat) : (d.ckptOn p).mem.pcState = d.mem.pcState := by
  unfold Dev.ckptOn
  (repeat' split) <;> simp

@[simp] theorem Dev.setRun_pcState (p : Nat) (r : Option BedRun) : (d.setRun p r).mem.pcState = d.mem.pcState := rfl

@[simp] theorem Dev.bedDone_pcState (p : Nat) : (d.bedDone p).mem.pcState = d.mem.pcState := rfl

@[simp] theorem Dev.bedCutOff_pcState (p : Nat) (r : BedRun) : (d.bedCutOff p r).mem.pcState = d.mem.pcState := by
  simp [Dev.bedCutOff]

@[simp] theorem Dev.bedError_pcState (p addr unit space write status : Nat) :
    (d.bedError p addr unit space write status).mem.pcState = d.mem.pcState := by
  unfold Dev.bedError
  (repeat' split) <;> simp

@[simp] theorem Dev.streamPump_pcState (n p : Nat) : (Dev.streamPump n d p).mem.pcState = d.mem.pcState := by
  induction n generalizing d with
  | zero => rfl
  | succ n ih =>
    unfold Dev.streamPump
    split
    · rfl
    next r hr =>
      extract_lets b rs x at_ l hd rec
      split
      · rfl
      · split
        · split
          · rfl
          · split
            · simp
            · split
              next e he => rw [ih, Dev.request_eq_pcState _ he, Dev.setRun_pcState]
              next e a he =>
                have h : e.mem.pcState = d.mem.pcState := by rw [Dev.request_eq_pcState _ he, Dev.setRun_pcState]
                split <;> simp [ih, h]
        · split
          · rfl
          · have h := (d.setRun p (some { r with record := true })).sendDigest_pcState p b.destChip 2 3 rec
            rw [Dev.setRun_pcState] at h
            split
            next e he => rw [← h, he]
            next e a he =>
              rw [he] at h
              have h' : e.mem.pcState = d.mem.pcState := h
              split <;> simp [h']

@[simp] theorem Dev.streamOn_pcState (p : Nat) : (d.streamOn p).mem.pcState = d.mem.pcState := by
  unfold Dev.streamOn
  (repeat' split) <;> simp

@[simp] theorem Dev.startBed_pcState (p : Nat) (c : Cmd) : (d.startBed p c).mem.pcState = d.mem.pcState := by
  unfold Dev.startBed
  extract_lets b op n e ws rs t f g
  have he : e.mem.pcState = d.mem.pcState := by simp [e]
  have hf : f.mem.pcState = d.mem.pcState := by simp [f]
  have hg : g.mem.pcState = d.mem.pcState := by simp [g]
  (repeat' split) <;> simp [he, hf, hg]

@[simp] theorem Dev.bedKick_pcState (n : Nat) : (Dev.bedKick n d).mem.pcState = d.mem.pcState := by
  induction n generalizing d with
  | zero => rfl
  | succ n ih =>
    unfold Dev.bedKick
    (repeat' split) <;> simp [ih]

@[simp] theorem Dev.kickBed_pcState : d.kickBed.mem.pcState = d.mem.pcState := by simp [Dev.kickBed]

@[simp] theorem Dev.bedAnswer_pcState (p status addr : Nat) : (d.bedAnswer p status addr).mem.pcState = d.mem.pcState := by
  unfold Dev.bedAnswer
  (repeat' split) <;> simp

@[simp] theorem Dev.streamAnswer_pcState (p status : Nat) : (d.streamAnswer p status).mem.pcState = d.mem.pcState := by
  unfold Dev.streamAnswer
  (repeat' split) <;> simp

@[simp] theorem Dev.ckptAnswer_pcState (p status : Nat) : (d.ckptAnswer p status).mem.pcState = d.mem.pcState := by
  unfold Dev.ckptAnswer
  (repeat' split) <;> simp

/-! Waits that end (R199). -/

@[simp] theorem Dev.dropPoint_pcState (w : Waiter) (c : Cmd) : (d.dropPoint w c).mem.pcState = d.mem.pcState := by
  unfold Dev.dropPoint
  (repeat' split) <;> simp

@[simp] theorem Dev.endWait_pcState (w : Waiter) (c : Cmd) : (d.endWait w c).mem.pcState = d.mem.pcState := by simp [Dev.endWait]

@[simp] theorem Dev.endMarked_pcState : d.endMarked.mem.pcState = d.mem.pcState := by
  unfold Dev.endMarked
  refine foldl_pcState fun _ _ => ?_
  split <;> simp

/-! Accesses that waited, and the units they wake (R245, R262, R263). -/

@[simp] theorem Dev.dispatch_pcState (r : Req) (a : Reply) : (d.dispatch r a).mem.pcState = d.mem.pcState := by
  unfold Dev.dispatch
  (repeat' split) <;> simp

@[simp] theorem Dev.carry_pcState (who : Requester) (off n : Nat) : (d.carry who off n).2.mem.pcState = d.mem.pcState := rfl

@[simp] theorem Dev.servePort_pcState (n p : Nat) (pkt : Packet) : (d.servePort n p pkt).mem.pcState = d.mem.pcState := by
  simp [Dev.servePort]

@[simp] theorem Dev.hostAccess_pcState (off len : Nat) (op : Bar2Op) : (d.hostAccess off len op).mem.pcState = d.mem.pcState := by
  unfold Dev.hostAccess
  (repeat' split) <;> simp

@[simp] theorem Dev.release1_pcState (x : Held) : (d.release1 x).mem.pcState = d.mem.pcState := by
  unfold Dev.release1
  (repeat' split) <;> simp

@[simp] theorem Dev.releaseHeld_pcState : d.releaseHeld.mem.pcState = d.mem.pcState := by
  unfold Dev.releaseHeld
  exact (foldl_pcState fun _ _ => by split <;> simp).trans rfl

@[simp] theorem Dev.wakeMemory_pcState : d.wakeMemory.mem.pcState = d.mem.pcState := by
  rw [Dev.wakeMemory, Dev.kickBed_pcState]
  exact (foldl_pcState fun _ _ => by simp).trans (by simp)

end Sys2Proof.Machine
end

section
/-! SUPPORT. The end of a relief's population, where the traffic generator has the relieved pseudo-channel in TEST. -/

namespace Sys2Proof.Machine

theorem Dev.becomes_of_test {d : Dev} {c : Nat} (h : d.pc c = .test) (v : PcState) : (d.becomes c v).mem.pcState = d.mem.pcState := by
  rw [Dev.becomes, if_pos h]

/-- Where the traffic generator runs on the relieved pseudo-channel, the end of its population leaves it in TEST (R265, R270). -/
theorem Dev.channelRelieved_of_test {d : Dev} {s : Nat} (h : d.pc (12 * d.get (kRelievedPc s) + s) = .test) :
    (d.channelRelieved s).mem.pcState = d.mem.pcState := by
  unfold Dev.channelRelieved
  split
  · rfl
  · extract_lets k total lost src bad m copied marked old populated
    have hcopied : copied.mem.pcState = d.mem.pcState := by
      unfold copied
      refine foldl_pcState fun e x => ?_
      split <;> rfl
    have hmarked : marked.mem.pcState = copied.mem.pcState := foldl_pcState fun _ _ => by simp
    have hpc : populated.mem.pcState = marked.mem.pcState :=
      Dev.becomes_of_test (by rw [Dev.pc, hmarked, hcopied]; exact h) .relieved
    rw [Dev.wakeMemory_pcState, Dev.record_mem, hpc, hmarked, hcopied]

theorem exec_channelRelieved_live {s : State} (hl : s.dev.live = true) (n : Fin 12) :
    exec (.channelRelieved n) s = .next { s with dev := s.dev.channelRelieved n } :=
  onDie_live (fun d => d.channelRelieved n) hl

/-- Whatever module the accesses are released in, it held that pseudo-channel in TEST. -/
theorem pc_of_exec_channelRelieved {s : State} {n : Fin 12} {d : Dev} {c : Nat} (hl : s.dev.live = true)
    (hc : 12 * s.dev.get (kRelievedPc n) + n = c) (ht : s.dev.pc c = .test)
    (he : exec (.channelRelieved n) s = .next (s.withDev d.wakeMemory)) : d.pc c = .test := by
  subst hc
  rw [exec_channelRelieved_live hl, Host.Outcome.next.injEq, State.withDev, State.mk.injEq] at he
  obtain ⟨-, -, hdev⟩ := he
  rw [Dev.pc, ← d.wakeMemory_pcState, ← hdev, Dev.channelRelieved_of_test ht]
  exact ht

/-- A module whose stack 0 populates the relief of pseudo-channel 5, while the traffic generator has that pseudo-channel in TEST:
a run may start there, since it is LOST (R270). -/
def populatedInTest : State :=
  { State.reset with dev := { State.reset.dev.put (kRelievedPc 0) 5 with
      mem := { State.reset.dev.mem with pcState := [(60, .test)], populating := [0] } } }

end Sys2Proof.Machine

open Sys2Proof Sys2Proof.Machine

/-- Refutes O60: a pseudo-channel in TEST takes the state RELIEVED only after its run (R270, `Dev.becomes`), so the end of its
population leaves it in TEST, and the accesses released then change no pseudo-channel's state. -/
theorem not_channelsRecoverAndTest : ¬ Obligations.ChannelsRecoverAndTest := by
  unfold Obligations.ChannelsRecoverAndTest
  rintro ⟨hrows, -⟩
  have hlive : populatedInTest.dev.live = true := by decide
  have htest : populatedInTest.dev.pc 60 = .test := by decide
  obtain ⟨-, -, -, -, hends⟩ := hrows populatedInTest 0 5 hlive
  obtain ⟨d, hexec, hpc, -⟩ := hends (by decide) (by decide)
  have hstays := pc_of_exec_channelRelieved hlive (c := 60) (by decide) htest hexec
  exact absurd (hpc.symm.trans hstays) (by decide)
end

section
/-! SUPPORT. Links: what a port writes as it transmits, takes credits back, replays, retrains, and asks for or completes a
substitution; and what all of that leaves alone. -/

namespace Sys2Proof.Machine

@[simp] theorem State.dev_withDev (s : State) (d : Dev) : (s.withDev d).dev = d := rfl

/-! One port among the others. -/

section
variable (d : Dev) (n : Nat)

@[simp] theorem Dev.get_setPort (x : Port) (k : Nat) : (d.setPort n x).get k = d.get k := rfl

@[simp] theorem Dev.port_put (k v m : Nat) : (d.put k v).port m = d.port m := rfl

@[simp] theorem Dev.port_bump (k v m : Nat) : (d.bump k v).port m = d.port m := rfl

theorem Dev.port_setPort_ne {m : Nat} (x : Port) (h : m ≠ n) : (d.setPort n x).port m = d.port m := SMap.get_set_ne _ _ x h

@[simp] theorem Dev.port_tell (c : Control) :
    (d.tell n c).port n = { d.port n with control := (d.port n).control ++ [c] } := Dev.port_setPort d n _

end

/-- From `d` to `e` a step at port `n` changes that port and the counter `k`, and nothing else. -/
structure Dev.AtPort (d : Dev) (n k : Nat) (e : Dev) : Prop where
  units : { e with dict := d.dict, fabric := d.fabric } = d
  others : ∀ m, m ≠ n → e.port m = d.port m
  gets : ∀ j, j ≠ k → e.get j = d.get j

section
variable {d e : Dev} {n k : Nat}

theorem Dev.AtPort.refl (d : Dev) (n k : Nat) : d.AtPort n k d := ⟨rfl, fun _ _ => rfl, fun _ _ => rfl⟩

theorem Dev.AtPort.setPort (h : d.AtPort n k e) (x : Port) : d.AtPort n k (e.setPort n x) :=
  ⟨h.units, fun m hm => (e.port_setPort_ne n x hm).trans (h.others m hm), h.gets⟩

theorem Dev.AtPort.bump (h : d.AtPort n k e) (v : Nat) : d.AtPort n k (e.bump k v) :=
  ⟨h.units, h.others, fun j hj => (e.get_bump_ne v hj).trans (h.gets j hj)⟩

theorem Dev.AtPort.mem_eq (h : d.AtPort n k e) : e.mem = d.mem := (congrArg Dev.mem h.units :)

theorem Dev.AtPort.seqs_eq (h : d.AtPort n k e) : e.seqs = d.seqs := (congrArg Dev.seqs h.units :)

theorem Dev.AtPort.tallies_eq (h : d.AtPort n k e) : e.tallies = d.tallies := (congrArg Dev.tallies h.units :)

theorem Dev.AtPort.haul_eq (h : d.AtPort n k e) : e.haul = d.haul := (congrArg Dev.haul h.units :)

theorem Dev.AtPort.benches_eq (h : d.AtPort n k e) : e.benches = d.benches := (congrArg Dev.benches h.units :)

end

/-! Stalls for credits (R318). -/

section
variable (d : Dev) (n : Nat)

/-- The count of a stall writes of its port the start of the stall alone. -/
theorem Dev.port_countStall : ∃ since, (d.countStall n).port n = { d.port n with stallAt := since } := by
  unfold Dev.countStall
  extract_lets x
  split
  · split
    · exact ⟨_, d.port_setPort n _⟩
    · exact ⟨_, rfl⟩
  · split
    · exact ⟨_, rfl⟩
    · exact ⟨_, d.port_setPort n _⟩

theorem Dev.countStall_atPort {e : Dev} (h : d.AtPort n (kCreditStallNs n) e) :
    d.AtPort n (kCreditStallNs n) (e.countStall n) := by
  unfold Dev.countStall
  extract_lets x
  split
  · split
    · exact h.setPort _
    · exact h
  · split
    · exact h
    · exact (h.setPort _).bump _

end

/-! Transmission (R283, R286, R288). -/

theorem Port.not_stalled {x : Port} {vl : Nat} (h : x.nextLane = some vl) : x.stalled = false := by simp [Port.stalled, h]

section
variable {x : Port} {vl : Nat} {p : Packet} {rest : List Packet} (hq : SMap.get [] x.txq vl = p :: rest) (now : Nat)
include hq

theorem Port.txq_sendLane : SMap.get [] (x.sendLane now vl).txq vl = rest := by simp [Port.sendLane, hq]

theorem Port.sendLane_otherLane {v : Nat} (h : v ≠ vl) : SMap.get [] (x.sendLane now vl).txq v = SMap.get [] x.txq v ∧
    SMap.get 0 (x.sendLane now vl).reserve v = SMap.get 0 x.reserve v := by
  simp [Port.sendLane, hq, SMap.get_set_ne _ _ _ h]

theorem Port.reserve_sendLane : SMap.get 0 (x.sendLane now vl).reserve vl =
    SMap.get 0 x.reserve vl - min (creditCost (x.stamp now p)) (SMap.get 0 x.reserve vl) := by simp [Port.sendLane, hq]

theorem Port.pool_sendLane : (x.sendLane now vl).pool =
    x.pool - (creditCost (x.stamp now p) - min (creditCost (x.stamp now p)) (SMap.get 0 x.reserve vl)) := by
  simp [Port.sendLane, hq]

/-- The packet pays its whole cost. -/
theorem Port.sendLane_pays (hc : x.creditsFor vl (x.stamp now p) = true) :
    SMap.get 0 (x.sendLane now vl).reserve vl + (x.sendLane now vl).pool + creditCost (x.stamp now p) =
      SMap.get 0 x.reserve vl + x.pool := by
  have hc : creditCost (x.stamp now p) ≤ SMap.get 0 x.reserve vl + x.pool := of_decide_eq_true hc
  rw [Port.reserve_sendLane hq, Port.pool_sendLane hq]
  omega

/-- The reserve pays first (R286). -/
theorem Port.pool_sendLane_of_reserve (hc : creditCost (x.stamp now p) ≤ SMap.get 0 x.reserve vl) :
    (x.sendLane now vl).pool = x.pool := by
  rw [Port.pool_sendLane hq, Nat.min_eq_left hc, Nat.sub_self, Nat.sub_zero]

theorem Port.nextFrame_sendLane :
    (x.sendLane now vl).nextFrame = (x.nextFrame + frameCount (x.stamp now p)) % 4096 := by simp [Port.sendLane, hq]

end

theorem Dev.packetTransmit_held {d : Dev} {n : Nat} (h : (d.port n).retraining = true ∨ (d.port n).wanted ≠ []) :
    d.packetTransmit n = d := if_pos (.inr h)

section
variable {d : Dev} {n : Nat} (hl : d.linked n = true) (hr : (d.port n).retraining = false) (hw : (d.port n).wanted = [])
include hl hr hw

theorem Dev.packetTransmit_sends {vl : Nat} (hv : (d.port n).nextLane = some vl) : d.packetTransmit n =
    (d.countStall n).setPort n (((d.countStall n).port n).sendLane d.time vl) := by
  simp [Dev.packetTransmit, hl, hr, hw, hv]

theorem Dev.packetTransmit_waits (hv : (d.port n).nextLane = none) : d.packetTransmit n = d.countStall n := by
  simp [Dev.packetTransmit, hl, hr, hw, hv]

/-- Beside the lane's packet only the count of a stall touches the port that sends. -/
theorem Dev.port_packetTransmit {vl : Nat} (hv : (d.port n).nextLane = some vl) :
    ∃ since, (d.packetTransmit n).port n = Port.sendLane { d.port n with stallAt := since } d.time vl := by
  obtain ⟨since, hs⟩ := d.port_countStall n
  exact ⟨since, by rw [Dev.packetTransmit_sends hl hr hw hv, Dev.port_setPort, hs]⟩

theorem Dev.packetTransmit_dict {vl : Nat} (hv : (d.port n).nextLane = some vl) (ha : (d.port n).stallAt = none) :
    (d.packetTransmit n).dict = d.dict := by
  rw [Dev.packetTransmit_sends hl hr hw hv, Dev.setPort_dict]
  simp [Dev.countStall, ha, Port.not_stalled hv]

theorem Dev.packetTransmit_stallEnds {vl since : Nat} (hv : (d.port n).nextLane = some vl)
    (ha : (d.port n).stallAt = some since) : (d.packetTransmit n).get (kCreditStallNs n) =
      (d.get (kCreditStallNs n) + (d.time - since)) % 2 ^ 64 := by
  rw [Dev.packetTransmit_sends hl hr hw hv, Dev.get_setPort]
  simp [Dev.countStall, ha, Port.not_stalled hv]

end

theorem Dev.packetTransmit_atPort (d : Dev) (n : Nat) : d.AtPort n (kCreditStallNs n) (d.packetTransmit n) := by
  have hstall := d.countStall_atPort n (.refl d n _)
  unfold Dev.packetTransmit
  extract_lets x
  split
  · exact .refl d n _
  · split
    · exact hstall
    · exact hstall.setPort _

/-! Credits that come back (R286). -/

/-- Returned credits are added, as they are tagged. -/
def Dev.credited (d : Dev) (n vl reserve pool : Nat) : Dev :=
  let x := d.port n
  d.setPort n { x with reserve := SMap.set 0 x.reserve vl (SMap.get 0 x.reserve vl + reserve), pool := x.pool + pool }

section
variable (d : Dev) (n vl reserve pool : Nat)

theorem Dev.credited_atPort : d.AtPort n (kCreditStallNs n) ((d.credited n vl reserve pool).countStall n) :=
  Dev.countStall_atPort d n ((Dev.AtPort.refl d n _).setPort _)

theorem Dev.port_credited : ∃ since, ((d.credited n vl reserve pool).countStall n).port n =
    { d.port n with
      reserve := SMap.set 0 (d.port n).reserve vl (SMap.get 0 (d.port n).reserve vl + reserve), pool := (d.port n).pool + pool
      stallAt := since } := by
  obtain ⟨since, hs⟩ := (d.credited n vl reserve pool).port_countStall n
  exact ⟨since, by rw [hs, Dev.credited, Dev.port_setPort]⟩

end

/-! Replays and retrains (R283, R284). -/

theorem kLinkReplays_ne_kLinkRetrains (n : Nat) : kLinkReplays n ≠ kLinkRetrains n := by
  unfold kLinkReplays kLinkRetrains key; omega

/-- The frames from one that is asked for again are replayed, and the earlier ones leave the retry buffer. -/
def Dev.resent (d : Dev) (n : Nat) (rest : List (Nat × Packet)) : Dev :=
  (d.setPort n { d.port n with retry := rest, replays := (d.port n).replayed rest }).bump (kLinkReplays n) rest.length

theorem Dev.port_resent (d : Dev) (n : Nat) (rest : List (Nat × Packet)) : (d.resent n rest).port n =
    { d.port n with retry := rest, replays := (d.port n).replayed rest } := Dev.port_setPort d n _

section
variable {d : Dev} {n : Nat}

theorem Dev.beginRetrain_first (h : (d.port n).retrains = []) : d.beginRetrain n =
    (d.setPort n { d.port n with retraining := true, retrains := [d.time], replays := [] }).bump (kLinkRetrains n) 1 := by
  simp [Dev.beginRetrain, h]

variable (hl : d.linked n = true)
include hl

section
variable {rest : List (Nat × Packet)} (hr : (d.port n).retraining = false) (hne : rest ≠ [])
include hr hne

theorem Dev.frameNak_heeded : ¬ (d.linked n = false ∨ (d.port n).retraining = true ∨ rest = []) := by
  rintro (h | h | h)
  · cases hl.symm.trans h
  · cases hr.symm.trans h
  · exact hne h

section
variable {frame : Nat} (hrest : (d.port n).retry.dropWhile (fun y => decide (y.1 ≠ frame)) = rest)
include hrest

theorem Dev.frameNak_replays (h : SMap.get 0 ((d.port n).replayed rest) frame < 8) : d.frameNak n frame = d.resent n rest := by
  subst hrest
  exact (if_neg (Dev.frameNak_heeded hl hr hne)).trans (if_neg (Nat.not_le.mpr h))

theorem Dev.frameNak_retrains (h : 8 ≤ SMap.get 0 ((d.port n).replayed rest) frame) :
    d.frameNak n frame = (d.resent n rest).beginRetrain n := by
  subst hrest
  exact (if_neg (Dev.frameNak_heeded hl hr hne)).trans (if_pos h)

theorem Dev.frameNak_firstRetrain (h : 8 ≤ SMap.get 0 ((d.port n).replayed rest) frame) (hx : (d.port n).retrains = []) :
    ((d.frameNak n frame).port n).retraining = true ∧ ((d.frameNak n frame).port n).retry = rest ∧
      (d.frameNak n frame).get (kLinkRetrains n) = (d.get (kLinkRetrains n) + 1) % 2 ^ 64 := by
  have hbegin := Dev.beginRetrain_first (d := d.resent n rest) (n := n) (by rw [Dev.port_resent]; exact hx)
  rw [Dev.frameNak_retrains hl hr hne hrest h, hbegin, Dev.port_bump, Dev.port_setPort, Dev.port_resent, Dev.get_bump_self,
    Dev.get_setPort, Dev.resent, Dev.get_bump_ne _ _ (kLinkReplays_ne_kLinkRetrains n).symm]
  exact ⟨rfl, rfl, rfl⟩

end

end

section
variable (hr : (d.port n).retraining = true)
include hr

theorem Dev.linkRetrain_ok : d.linkRetrain n true =
    (d.setPort n { d.port n with retraining := false }).bump (kLinkReplays n) (d.port n).retry.length := by
  simp [Dev.linkRetrain, hl, hr, Dev.replayAll]

theorem Dev.linkRetrain_fails : d.linkRetrain n false = d.downPort n reRetrain := by simp [Dev.linkRetrain, hl, hr]

end

end

/-! Entries of a port and of its counters. -/

theorem kPortLanes_div (n : Nat) : kPortLanes n / 256 = 0x5010 + n := key_div _ (by decide)

theorem kPortState_div (n : Nat) : kPortState n / 256 = 0x5010 + n := key_div _ (by decide)

theorem kLinkReplays_div (n : Nat) : kLinkReplays n / 256 = 0x9040 + n := key_div _ (by decide)

theorem kLinkReplays_ne_portEntry {n k : Nat} (hk : k / 256 = 0x5010 + n) : kLinkReplays n ≠ k := by
  rintro rfl
  rw [kLinkReplays_div] at hk
  omega

/-- An entry that no record and no warning touches. -/
def OffRecord (k : Nat) : Prop := k / 256 < 0x7000 ∨ 0x9040 ≤ k / 256 ∧ k / 256 < 0xA000

/-- A record and a warning leave `d` as it was but for the log, the notices and the flags. -/
structure Dev.Reports (d e : Dev) : Prop where
  fabric : e.fabric = d.fabric
  seqs : e.seqs = d.seqs
  tallies : e.tallies = d.tallies
  mem : e.mem = d.mem
  gets : ∀ k, OffRecord k → e.get k = d.get k

section
variable {d e : Dev} (h : d.Reports e)
include h

theorem Dev.Reports.record (w : Where) (t c : Nat) (b : List (Nat × Nat)) : d.Reports (e.record w t c b) where
  fabric := (e.record_fabric w t c b).trans h.fabric
  seqs := (e.record_seqs w t c b).trans h.seqs
  tallies := (e.record_tallies w t c b).trans h.tallies
  mem := (e.record_mem w t c b).trans h.mem
  gets k hk := (e.get_record w t c b (by unfold OffRecord at hk; omega) (by unfold OffRecord at hk; omega)
    (by unfold OffRecord at hk; omega)).trans (h.gets k hk)

theorem Dev.Reports.setFlag {p : Nat} (hp : p < 4) (b : Nat) (v : Bool) : d.Reports (e.setFlag p b v) :=
  ⟨h.fabric, h.seqs, h.tallies, h.mem,
    fun k hk => (e.get_setFlag p b v (by unfold OffRecord at hk; omega)).trans (h.gets k hk)⟩

theorem Dev.Reports.ckptWarn (w : Where) (cause related : Nat) : d.Reports (e.ckptWarn w cause related) :=
  have hrec := h.record w 0x508 1 [(8, cause), (32, related)]
  (((hrec.setFlag (p := 0) (by decide) pfCkpt true).setFlag (p := 1) (by decide) pfCkpt true).setFlag (p := 2) (by decide)
    pfCkpt true).setFlag (p := 3) (by decide) pfCkpt true

end

/-! Lanes and their spares (R278 to R281). -/

section
variable {d : Dev} {n : Nat} {f : LaneFault} (hl : d.linked n = true)
  (ha : fibreActive (laneField true (d.get (kPortLanes n))) (faultFibre f) = true)
include hl ha

theorem Dev.laneFailed_noSpare (hs : spareLeft (laneField true (d.get (kPortLanes n))) (d.faultSeen n f) = false) :
    d.laneFailed n f = d.downPort n reLanes := by
  simp [Dev.laneFailed, hl, ha, hs]

/-- The first fault of a port that asks for nothing yet is asked to be substituted. -/
theorem Dev.laneFailed_asks (hf : (d.port n).rxFails = []) (hw : (d.port n).wanted = [])
    (hs : spareLeft (laneField true (d.get (kPortLanes n))) f = true) : d.laneFailed n f =
      (d.setPort n { d.port n with wanted := [f], rxFails := [(d.time, failKey f)] }).tell n (.substitute f) := by
  have hseen : d.faultSeen n f = f := by cases f <;> simp [Dev.faultSeen, hf]
  cases f <;> simp [Dev.laneFailed, hl, ha, hseen, hs, hf, hw]

end

/-- A direction's lanes with the spare of a fault taken (R279, R280). -/
def spareTaken (v : Nat) : LaneFault → Nat
  | .lane i l => setLambdaSub v i (4 + l)
  | .fibre i => setFld v 10 9 (i + 1)

/-- The spare is in use, no longer asked for, and what was not acknowledged is sent again. -/
def Dev.substituted (d : Dev) (n : Nat) (rx : Bool) (f : LaneFault) : Dev :=
  let w := d.get (kPortLanes n)
  let x := d.port n
  ((d.setPort n { x with wanted := if rx then x.wanted.erase f else x.wanted }).put (kPortLanes n)
    (setLaneField rx w (spareTaken (laneField rx w) f))).replayAll n

section
variable (d : Dev) (n : Nat) (rx : Bool) (f : LaneFault)

theorem Dev.port_substituted : (d.substituted n rx f).port n =
    { d.port n with wanted := if rx then (d.port n).wanted.erase f else (d.port n).wanted } := by
  simp [Dev.substituted, Dev.replayAll]

theorem Dev.lanes_substituted : (d.substituted n rx f).get (kPortLanes n) =
    setLaneField rx (d.get (kPortLanes n)) (spareTaken (laneField rx (d.get (kPortLanes n))) f) := by
  rw [Dev.substituted, Dev.replayAll, Dev.get_bump_ne _ _ (kLinkReplays_ne_portEntry (kPortLanes_div n)).symm,
    Dev.get_put_self]

theorem Dev.replays_substituted : (d.substituted n rx f).get (kLinkReplays n) =
    (d.get (kLinkReplays n) + (d.port n).retry.length) % 2 ^ 64 := by
  rw [Dev.substituted, Dev.replayAll, Dev.get_bump_self, Dev.get_put_ne _ _ (kLinkReplays_ne_portEntry (kPortLanes_div n)),
    Dev.get_setPort, Dev.port_put, Dev.port_setPort]

theorem Dev.portState_substituted : (d.substituted n rx f).portState n = d.portState n := by
  have hk : kPortState n ≠ kPortLanes n := by unfold kPortState kPortLanes key; omega
  rw [Dev.portState, Dev.substituted, Dev.replayAll,
    Dev.get_bump_ne _ _ (kLinkReplays_ne_portEntry (kPortState_div n)).symm, Dev.get_put_ne _ _ hk, Dev.get_setPort,
    Dev.portState]

end

section
variable {d : Dev} {n : Nat} {rx : Bool} {f : LaneFault} (hl : d.linked n = true)
  (hw : rx = false ∨ (d.port n).wanted.contains f = true)
  (ha : fibreActive (laneField rx (d.get (kPortLanes n))) (faultFibre f) = true)
include hl hw ha

theorem Dev.spared_notIgnored : ¬ (d.linked n = false ∨ (rx = true ∧ (d.port n).wanted.contains f = false) ∨
    fibreActive (laneField rx (d.get (kPortLanes n))) (faultFibre f) = false) := by
  rw [hl, ha]
  rcases hw with h | h <;> rw [h] <;> simp

theorem Dev.spared_noSpare (hs : spareLeft (laneField rx (d.get (kPortLanes n))) f = false) :
    d.spared n rx f = d.downPort n reLanes :=
  (if_neg (Dev.spared_notIgnored hl hw ha)).trans (if_pos hs)

/-- Beside the substitution itself there are only its record and the warning of a last spare. -/
theorem Dev.spared_reports (hs : spareLeft (laneField rx (d.get (kPortLanes n))) f = true) :
    (d.substituted n rx f).Reports (d.spared n rx f) := by
  have hsame : (d.substituted n rx f).Reports (d.substituted n rx f) := ⟨rfl, rfl, rfl, rfl, fun _ _ => rfl⟩
  unfold Dev.spared
  extract_lets w v x v' sub resent last recorded
  rw [if_neg (Dev.spared_notIgnored hl hw ha), if_neg (by rw [hs]; decide)]
  have hrec : (d.substituted n rx f).Reports recorded := by
    cases f with
    | lane i l => exact hsame.record _ _ _ _
    | fibre i => exact hsame.record _ _ _ _
  split
  · exact hrec.ckptWarn _ _ _
  · exact hrec

end

/-- The record and the warning leave what the substitution wrote, and the module beside it, alone. -/
theorem Dev.Reports.substituted {d e : Dev} {n : Nat} {rx : Bool} {f : LaneFault} (hn : n < 16)
    (h : (d.substituted n rx f).Reports e) :
    e.get (kPortLanes n) =
      setLaneField rx (d.get (kPortLanes n)) (spareTaken (laneField rx (d.get (kPortLanes n))) f) ∧
    e.get (kLinkReplays n) = (d.get (kLinkReplays n) + (d.port n).retry.length) % 2 ^ 64 ∧
    (rx = true → (e.port n).wanted = (d.port n).wanted.erase f) ∧ e.portState n = d.portState n ∧ e.seqs = d.seqs ∧
    e.tallies = d.tallies ∧ e.mem = d.mem := by
  have hport : e.port n = (d.substituted n rx f).port n := by rw [Dev.port, h.fabric, Dev.port]
  have hwanted : rx = true → (e.port n).wanted = (d.port n).wanted.erase f := fun hrx => by
    rw [hport, Dev.port_substituted]
    exact if_pos hrx
  have hstate : e.portState n = d.portState n :=
    (h.gets _ (.inl (by rw [kPortState_div]; omega))).trans (d.portState_substituted n rx f)
  exact ⟨(h.gets _ (.inl (by rw [kPortLanes_div]; omega))).trans (d.lanes_substituted n rx f),
    (h.gets _ (.inr (by rw [kLinkReplays_div]; omega))).trans (d.replays_substituted n rx f), hwanted, hstate, h.seqs,
    h.tallies, h.mem⟩

/-! The rows, on dies that run. -/

section
variable {s : State} (hl : s.dev.live = true) (n : Fin 16)
include hl

theorem exec_packetTransmit_live : exec (.packetTransmit n) s = .next (s.withDev (s.dev.packetTransmit n)) :=
  onDie_live (fun d => d.packetTransmit n) hl

theorem exec_creditReturn_live (hk : s.dev.linked n = true) (vl : Fin 4) (reserve pool : BitVec 14) :
    exec (.creditReturn n vl reserve pool) s =
      .next (s.withDev ((s.dev.credited n vl reserve.toNat pool.toNat).countStall n)) := by
  change execCreditReturn n vl reserve pool s = _
  rw [execCreditReturn, onDie_live _ hl]
  exact congrArg (fun d => Host.Outcome.next (s.withDev d)) (if_neg (by rw [hk]; decide))

theorem exec_frameNak_live (frame : BitVec 12) :
    exec (.frameNak n frame) s = .next (s.withDev (s.dev.frameNak n frame.toNat)) :=
  onDie_live (fun d => d.frameNak n frame.toNat) hl

theorem exec_linkRetrain_live (ok : Bool) : exec (.linkRetrain n ok) s = .next (s.withDev (s.dev.linkRetrain n ok)) :=
  onDie_live (fun d => d.linkRetrain n ok) hl

theorem exec_laneFailed_live (f : LaneFault) : exec (.laneFailed n f) s = .next (s.withDev (s.dev.laneFailed n f)) :=
  onDie_live (fun d => d.laneFailed n f) hl

theorem exec_laneSpared_live (rx : Bool) (i : Fin 3) (l : Fin 4) :
    exec (.laneSpared n rx i l) s = .next (s.withDev (s.dev.spared n rx (.lane i l))) :=
  onDie_live (fun d => d.spared n rx (.lane i l)) hl

theorem exec_fibreSpared_live (rx : Bool) (i : Fin 2) :
    exec (.fibreSpared n rx i) s = .next (s.withDev (s.dev.spared n rx (.fibre i.castSucc))) :=
  onDie_live (fun d => d.spared n rx (.fibre i.castSucc)) hl

end

end Sys2Proof.Machine

open Sys2Proof Sys2Proof.Machine

/-- Settles O57: each row through what it writes of its port, and the frame of a step at one port; a substitution through what it
puts in use, which its record and warning leave alone. -/
theorem portsTransmitAndSpare : Obligations.PortsTransmitAndSpare := by
  unfold Obligations.PortsTransmitAndSpare
  refine ⟨fun s n hl hk => ⟨fun hh => ?held, fun vl p rest hr hw hv hq => ?sends, fun hr hw hv => ?waits,
      fun vl r q => ?credits, fun f hr hne => ⟨fun hc => ?replays, fun hc => ?retrains⟩, fun hr => ⟨?retrained, ?retrainFails⟩⟩,
    fun s n hl hk => ⟨fun f ha hs => ?noSpare, fun f ha hf hw hs => ?asks⟩,
    fun s n rx hl hk => ⟨fun i l ha hw => ⟨fun hs => ?lane, fun hs => ?noLane⟩,
      fun i ha hw => ⟨fun hs => ?fibre, fun hs => ?noFibre⟩⟩⟩
  case held => rw [exec_packetTransmit_live hl, Dev.packetTransmit_held hh]; rfl
  case sends =>
    have hat := s.dev.packetTransmit_atPort n
    obtain ⟨since, hport⟩ := Dev.port_packetTransmit hk hr hw hv
    have hq' : SMap.get [] ({ s.dev.port n with stallAt := since }).txq vl = p :: rest := hq
    refine ⟨_, exec_packetTransmit_live hl n, rfl, rfl, ?_⟩
    rw [State.dev_withDev, hport]
    exact ⟨Port.txq_sendLane hq' _, fun v hne => Port.sendLane_otherLane hq' _ hne, fun hc => Port.sendLane_pays hq' _ hc,
      fun hc => Port.pool_sendLane_of_reserve hq' _ hc, Port.nextFrame_sendLane hq' _, hat.others,
      fun ha => Dev.packetTransmit_dict hk hr hw hv ha, fun t0 ha => Dev.packetTransmit_stallEnds hk hr hw hv ha, hat.gets,
      hat.mem_eq, hat.seqs_eq, hat.tallies_eq, hat.haul_eq, hat.benches_eq⟩
  case waits =>
    have hat := s.dev.packetTransmit_atPort n
    obtain ⟨since, hport⟩ := s.dev.port_countStall n
    rw [← Dev.packetTransmit_waits hk hr hw hv] at hport
    refine ⟨_, exec_packetTransmit_live hl n, rfl, ?_⟩
    rw [State.dev_withDev, hport]
    exact ⟨rfl, rfl, rfl, hat.mem_eq⟩
  case credits =>
    have hat := s.dev.credited_atPort n vl r.toNat q.toNat
    obtain ⟨since, hport⟩ := s.dev.port_credited n vl r.toNat q.toNat
    refine ⟨_, exec_creditReturn_live hl n hk vl r q, rfl, rfl, ?_⟩
    rw [State.dev_withDev, hport]
    exact ⟨SMap.get_set_self _ _ _ _, rfl, fun v hne => SMap.get_set_ne _ _ _ hne, rfl, rfl, hat.others, hat.gets, hat.mem_eq,
      hat.seqs_eq⟩
  case replays =>
    refine ⟨_, exec_frameNak_live hl n f, Dev.frameNak_replays hk hr hne rfl hc, rfl, rfl, ?_⟩
    rw [State.dev_withDev, Dev.frameNak_replays hk hr hne rfl hc]
    exact Dev.get_bump_self _ _ _
  case retrains =>
    exact ⟨_, exec_frameNak_live hl n f, Dev.frameNak_retrains hk hr hne rfl hc,
      fun hx => Dev.frameNak_firstRetrain hk hr hne rfl hc hx⟩
  case retrained =>
    refine ⟨_, exec_linkRetrain_live hl n true, rfl, rfl, ?_⟩
    rw [State.dev_withDev, Dev.linkRetrain_ok hk hr, Dev.port_bump, Dev.port_setPort, Dev.get_bump_self, Dev.portState,
      Dev.get_bump_ne _ _ (kLinkReplays_ne_portEntry (kPortState_div n)).symm]
    exact ⟨rfl, rfl, rfl, rfl, rfl⟩
  case retrainFails => exact ⟨_, exec_linkRetrain_live hl n false, Dev.linkRetrain_fails hk hr, rfl⟩
  case noSpare => exact ⟨_, exec_laneFailed_live hl n f, Dev.laneFailed_noSpare hk ha hs, rfl, rfl⟩
  case asks =>
    refine ⟨_, exec_laneFailed_live hl n f, rfl, rfl, ?_⟩
    rw [State.dev_withDev, Dev.laneFailed_asks hk ha hf hw hs, Dev.port_tell, Dev.port_setPort]
    exact ⟨rfl, rfl, rfl, rfl, rfl, rfl, rfl⟩
  case lane =>
    have hrep := Dev.spared_reports (f := .lane i l) hk hw ha (decide_eq_true hs)
    obtain ⟨hlanes, hrest⟩ := hrep.substituted n.isLt
    exact ⟨_, exec_laneSpared_live hl n rx i l, rfl, rfl, hlanes, hrest⟩
  case noLane =>
    exact ⟨_, exec_laneSpared_live hl n rx i l, Dev.spared_noSpare hk hw ha (decide_eq_false hs), rfl⟩
  case fibre =>
    have hrep := Dev.spared_reports (f := .fibre i.castSucc) hk hw ha (decide_eq_true hs)
    obtain ⟨hlanes, hrest⟩ := hrep.substituted n.isLt
    exact ⟨_, exec_fibreSpared_live hl n rx i, rfl, rfl, hlanes, hrest⟩
  case noFibre =>
    exact ⟨_, exec_fibreSpared_live hl n rx i, Dev.spared_noSpare hk hw ha (decide_eq_false hs), rfl⟩
end

section
/-! SUPPORT. Packets as they come in: the frames a port has accepted, the credits a packet takes, and what becomes of it. -/

namespace Sys2Proof.Machine

/-! Frames accepted (R283). -/

theorem NSet.mem_add_of_mem {s : NSet} {k j : Nat} (h : NSet.mem s k = true) : NSet.mem (NSet.add s j) k = true := by
  induction s with
  | nil => simp [NSet.mem] at h
  | cons i s ih =>
    unfold NSet.add
    split
    · exact h
    · split
      · simp_all [NSet.mem]
      · simp only [NSet.mem, List.contains_cons, Bool.or_eq_true] at h ih ⊢
        exact h.imp_right ih

theorem NSet.mem_del_of_ne {s : NSet} {k j : Nat} (hj : k ≠ j) (h : NSet.mem s k = true) : NSet.mem (NSet.del s j) k = true := by
  simp_all [NSet.mem, NSet.del]

/-- The number of one frame is accepted, and the one half a turn ahead may come anew. -/
def markFrame (seq : Nat) (l : NSet) (i : Nat) : NSet :=
  NSet.del (NSet.add l ((seq + i) % 4096)) ((seq + i + 2048) % 4096)

theorem Port.rxSeen_acceptFrames (x : Port) (seq n : Nat) :
    (x.acceptFrames seq n).rxSeen = (List.range n).foldl (markFrame seq) x.rxSeen := rfl

/-- A frame is not forgotten for one less than half a turn behind it. -/
theorem mem_foldl_markFrame {seq : Nat} {is : List Nat} (hi : ∀ i ∈ is, i < 2048) {l : NSet} (hl : NSet.mem l seq = true) :
    NSet.mem (is.foldl (markFrame seq) l) seq = true := by
  induction is generalizing l with
  | nil => exact hl
  | cons i is ih =>
    obtain ⟨hlt, hrest⟩ := List.forall_mem_cons.mp hi
    exact ih hrest (NSet.mem_del_of_ne (by omega) (NSet.mem_add_of_mem hl))

section
variable {seq : Nat} (hs : seq < 4096)
include hs

theorem mem_markFrame_first (l : NSet) : NSet.mem (markFrame seq l 0) seq = true := by
  refine NSet.mem_del_of_ne (by omega) ?_
  rw [Nat.add_zero, Nat.mod_eq_of_lt hs]
  exact NSet.mem_add l seq

theorem Port.mem_acceptFrames_first (x : Port) {n : Nat} (h0 : n ≠ 0) (hn : n ≤ 2048) :
    NSet.mem (x.acceptFrames seq n).rxSeen seq = true := by
  obtain ⟨m, rfl⟩ := Nat.exists_eq_succ_of_ne_zero h0
  rw [Port.rxSeen_acceptFrames, List.range_succ_eq_map, List.foldl_cons]
  exact mem_foldl_markFrame (fun i hi => by simp at hi; omega) (mem_markFrame_first hs _)

end

theorem frameCount_pos (p : Packet) : frameCount p ≠ 0 := by simp only [frameCount, roundUp]; omega

theorem frameCount_le {p : Packet} (h : p.payload.length ≤ 4096) : frameCount p ≤ 2048 := by
  simp only [frameCount, roundUp]; omega

/-! A packet off the link (R283, R286). -/

section
variable {d : Dev} {n : Nat} {x : Incoming} (hl : d.linked n = true)
include hl

theorem Dev.accept_crc (hx : x.state = .crc) :
    d.accept n x = ((d.bump (kFecCorrected n) x.corrected.toNat).tell n (.nak x.seq.toNat), none) := by
  simp [Dev.accept, hl, hx]

theorem Dev.accept_codeword {i : Fin 3} {l : Fin 4} (hx : x.state = .codeword i l) : d.accept n x =
    (((d.bump (kFecCorrected n) x.corrected.toNat).tell n (.nak x.seq.toNat)).badWord n i l, none) := by
  simp [Dev.accept, hl, hx]

section
variable (hx : x.state = .good)
include hx

theorem Dev.accept_again (hs : NSet.mem (d.port n).rxSeen x.seq.toNat = true) :
    d.accept n x = (d.bump (kFecCorrected n) x.corrected.toNat, none) := by
  simp only [Dev.accept, hl, hx, Dev.port_bump, hs, if_true, Bool.true_eq_false, if_false]

theorem Dev.accept_new (hs : NSet.mem (d.port n).rxSeen x.seq.toNat = false) :
    let own := min (creditCost x.pkt) (SMap.get 0 (d.port n).granted (packetHeader x.pkt).vl)
    let shared := min (creditCost x.pkt - own) (d.port n).grantedPool
    ∃ e, d.accept n x = (e, some (own, shared)) ∧ e.port n =
      { (d.port n).acceptFrames x.seq.toNat (frameCount x.pkt) with
        granted := SMap.set 0 (d.port n).granted (packetHeader x.pkt).vl
          (SMap.get 0 (d.port n).granted (packetHeader x.pkt).vl - own)
        grantedPool := (d.port n).grantedPool - shared } := by
  refine ⟨_, ?_, Dev.port_setPort (d.bump (kFecCorrected n) x.corrected.toNat) n _⟩
  simp [Dev.accept, hl, hx, hs]
  rfl

end

end

/-! What becomes of it, in the order of judging (R295, R296, R303, R311). -/

section
variable {d : Dev} {n : Nat} {pkt : Packet} (hl : d.linked n = true)
include hl

theorem Dev.arrival_notAdmitted (ha : d.portAdmitted n = false) : d.arrival n (packetHeader pkt).ptype pkt =
    .drop ((d.bump (kNotAdmittedDrops n) 1).answerIf n (packetHeader pkt) stNotAdmitted) := by
  simp [Dev.arrival, hl, ha]

section
variable (ha : d.portAdmitted n = true)
include ha

theorem Dev.arrival_fenced (hm : d.mpartAllowed (packetHeader pkt).mpart = false) :
    d.arrival n (packetHeader pkt).ptype pkt = .drop (d.fenceDrop n (packetHeader pkt)) := by
  simp [Dev.arrival, hl, ha, hm]

section
variable (hm : d.mpartAllowed (packetHeader pkt).mpart = true)
include hm

theorem Dev.arrival_malformed (hf : malformedPacket pkt = true) :
    d.arrival n (packetHeader pkt).ptype pkt = .drop (d.malformedDrop n (packetHeader pkt)) := by
  simp [Dev.arrival, hl, ha, hm, hf]

section
variable (hf : malformedPacket pkt = false)
include hf

theorem Dev.arrival_unbound (hb : d.boundTo (packetHeader pkt).mpart = none) :
    d.arrival n (packetHeader pkt).ptype pkt = .drop (d.answerIf n (packetHeader pkt) stNotAdmitted) := by
  simp [Dev.arrival, hl, ha, hm, hf, hb]

variable {p : Nat} (hb : d.boundTo (packetHeader pkt).mpart = some p)
include hb

theorem Dev.arrival_stale (he : (packetHeader pkt).epoch ≠ d.get (kPartEpoch p)) :
    d.arrival n (packetHeader pkt).ptype pkt = .drop (d.staleDrop (packetHeader pkt)) := by
  simp [Dev.arrival, hl, ha, hm, hf, hb, he]

theorem Dev.arrival_taken (he : (packetHeader pkt).epoch = d.get (kPartEpoch p)) :
    d.arrival n (packetHeader pkt).ptype pkt = .take p (packetHeader pkt) := by
  simp [Dev.arrival, hl, ha, hm, hf, hb, he]

end

end

end

end

end Sys2Proof.Machine

open Sys2Proof Sys2Proof.Machine

/-- Settles O54: a frame by how it came through and whether it was accepted before, a new one by the credits it takes; then each
judgement under those before it. -/
theorem packetsAreJudgedInOrder : Obligations.PacketsAreJudgedInOrder := by
  unfold Obligations.PacketsAreJudgedInOrder
  refine ⟨fun d n x hl => ⟨Dev.accept_crc hl, fun i l => Dev.accept_codeword hl, Dev.accept_again hl, fun hx hs => ?new⟩,
    fun d n pkt hl => ⟨Dev.arrival_notAdmitted hl, Dev.arrival_fenced hl, Dev.arrival_malformed hl, fun ha hm hf =>
      ⟨Dev.arrival_unbound hl ha hm hf, fun p => Dev.arrival_stale hl ha hm hf, fun p => Dev.arrival_taken hl ha hm hf⟩⟩⟩
  case new =>
    obtain ⟨e, he, hport⟩ := Dev.accept_new hl hx hs
    refine ⟨e, _, _, he, by omega, ?_⟩
    rw [hport]
    exact ⟨by rw [SMap.get_set_self]; omega, Nat.sub_add_cancel (Nat.min_le_right _ _), by omega,
      fun hp => Port.mem_acceptFrames_first x.seq.isLt _ (frameCount_pos _) (frameCount_le hp)⟩
end

section
/-! SUPPORT. Discovery and time: a port that trains, probes, identifies itself, waits for its neighbour, and tells the time. -/

namespace Sys2Proof.Machine

/-! The rows that a port performs of itself, on dies that run (R303 to R309, R314). -/

section
variable {s : State} {n : Fin 16} (hl : s.dev.live = true)
include hl

section
variable (ht : s.dev.portState n = poTraining)
include ht

/-- The split in force is the one staged where it fills the buffer, else the defaults (R287). -/
theorem exec_linkTrained_training : exec (.linkTrained n) s =
    let split := if splitOk s.dev.creditSplit then s.dev.creditSplit else [512, 512, 256, 512, 6400]
    .next (s.withDev (((s.dev.setPort n { s.dev.port n with waitFrom := s.dev.time, split := split }).movePort n poQuiet
      0).sendProbe n)) :=
  (onDie_live (fun d => d.linkTrained n) hl).trans
    (congrArg (fun d => Host.Outcome.next (s.withDev d)) (if_neg (not_not.mpr ht)))

theorem exec_trainingFailed_training : exec (.trainingFailed n) s = .next (s.withDev (s.dev.downPort n reTrainingFailed)) := by
  change execTrainingFailed n s = _
  rw [execTrainingFailed, onDie_live _ hl, if_pos ht]
  rfl

end

theorem exec_trainingRetry_due (hs : s.dev.portState n = poDown) (hd : s.dev.get (kPortDisable n) = 0)
    (ht : (s.dev.port n).downAt + 1000 * ms ≤ s.dev.time) :
    exec (.trainingRetry n) s = .next (s.withDev (s.dev.startTraining n)) := by
  change execTrainingRetry n s = _
  rw [execTrainingRetry, onDie_live _ hl, if_pos ⟨hs, hd, ht⟩]
  rfl

theorem exec_probeRetry_due (hk : s.dev.linked n = true) (hi : (s.dev.port n).ident = none)
    (ht : (s.dev.port n).lastProbe + 256 * ms ≤ s.dev.time) :
    exec (.probeRetry n) s = .next (s.withDev (s.dev.sendProbe n)) := by
  change execProbeRetry n s = _
  rw [execProbeRetry, onDie_live _ hl, if_pos ⟨hk, hi, ht⟩]
  rfl

theorem exec_identHoldoff_due {t : Nat} (hi : (s.dev.port n).identDue = some t) (ht : t ≤ s.dev.time)
    (hk : s.dev.linked n = true) :
    let d := s.dev.setPort n { s.dev.port n with identDue := none, lastIdent := some s.dev.time }
    exec (.identHoldoff n) s =
      .next (s.withDev (d.sendManagement n ptIdent (toBytes (identBits (d.ownIdent s.fuses n)) 64))) := by
  change execIdentHoldoff n s = _
  rw [execIdentHoldoff, onDieFused_live _ hl]
  have hdue : ¬ (s.dev.time < t ∨ s.dev.linked n = false) := by
    rw [hk]
    exact fun h => h.elim (Nat.not_lt.mpr ht) (by decide)
  simp only [hi, if_neg hdue]
  rfl

theorem exec_discoveryTimeout_live : exec (.discoveryTimeout n) s = .next (s.withDev (s.dev.discoveryTimeout n)) :=
  onDie_live (fun d => d.discoveryTimeout n) hl

theorem exec_timeTick_live : exec (.timeTick n) s = .next (s.withDev (s.dev.timeTick n)) :=
  onDie_live (fun d => d.timeTick n) hl

end

section
variable {d : Dev} {n : Nat}

theorem Dev.discoveryTimeout_noLight (hp : d.planned n = true) (hw : (d.port n).waitFrom + d.get kDiscoveryWait * ms ≤ d.time)
    (hs : d.portState n = poTraining) : d.discoveryTimeout n = d.downPort n reNoLight := by
  simp [Dev.discoveryTimeout, hp, Nat.not_lt.mpr hw, hs]

theorem Dev.discoveryTimeout_noNeighbour (hp : d.planned n = true)
    (hw : (d.port n).waitFrom + d.get kDiscoveryWait * ms ≤ d.time) (hs : d.portState n = poQuiet)
    (hi : (d.port n).ident = none) : d.discoveryTimeout n = d.downPort n reNoNeighbour := by
  have hne : poQuiet ≠ poTraining := by decide
  simp [Dev.discoveryTimeout, hp, Nat.not_lt.mpr hw, hs, hi, hne]

theorem Dev.timeTick_due (ha : d.portAdmitted n = true) (ht : ∀ t, (d.port n).timeSent = some t → t + ms ≤ d.time) :
    d.timeTick n = (d.setPort n { d.port n with timeSent := some d.time }).sendManagement n ptTime
      ((d.port n).timeBody d.time) := by
  cases hsent : (d.port n).timeSent with
  | none => simp [Dev.timeTick, ha, hsent]
  | some t => simp [Dev.timeTick, ha, hsent, ht t hsent]

end

/-! Messages that come in (R303, R304, R309, R314). -/

theorem Dev.management_accepted {d a : Dev} {n t : Nat} {x : Incoming} {c : Nat × Nat} (ha : d.accept n x = (a, some c))
    (ht : (packetHeader x.pkt).ptype = t) (hf : malformedPacket x.pkt = false) (f : Dev → Nat → Dev) :
    d.management n t x f = (f a (ofBytes x.pkt.payload)).leaveBuffer n (packetHeader x.pkt).vl c.1 c.2 := by
  rw [Dev.management, Dev.received_accepted ha]
  simp [ht, hf]

theorem managementRow_accepted {s : State} {a : Dev} {n t : Nat} {x : Incoming} {c : Nat × Nat} (hl : s.dev.live = true)
    (ha : s.dev.accept n x = (a, some c)) (hf : malformedPacket x.pkt = false) (ht : (packetHeader x.pkt).ptype = t)
    (f : Dev → Nat → Dev) : onDie (fun d => d.management n t x f) s =
      .next (s.withDev ((f a (ofBytes x.pkt.payload)).leaveBuffer n (packetHeader x.pkt).vl c.1 c.2)) := by
  rw [onDie_live _ hl, Dev.management_accepted ha ht hf]
  rfl

end Sys2Proof.Machine

open Sys2Proof Sys2Proof.Machine

/-- Settles O58: each row in the state in which it acts, and each message through what an accepted one of its TYPE does. -/
theorem portsDiscover : Obligations.PortsDiscover := by
  unfold Obligations.PortsDiscover
  refine fun s n hl => ⟨fun ht => ⟨?trained, exec_trainingFailed_training hl ht⟩, exec_trainingRetry_due hl,
    exec_probeRetry_due hl, fun t hi ht hk => exec_identHoldoff_due hl hi ht hk,
    fun hp hw => ⟨fun hs => ?noLight, fun hs hi => ?noNeighbour⟩, fun ha ht => ?tick,
    fun i a c ha hf => ⟨fun ht => ?probe, fun ht => ?ident, fun ht => ?time⟩⟩
  case trained =>
    rw [exec_linkTrained_training hl ht]
    simp only [splitOk, decide_eq_true_eq]
  case noLight => rw [exec_discoveryTimeout_live hl, Dev.discoveryTimeout_noLight hp hw hs]
  case noNeighbour => rw [exec_discoveryTimeout_live hl, Dev.discoveryTimeout_noNeighbour hp hw hs hi]
  case tick => rw [exec_timeTick_live hl, Dev.timeTick_due ha ht]; rfl
  case probe => exact managementRow_accepted hl ha hf ht (fun d _ => d.dueIdent n)
  case ident =>
    exact managementRow_accepted hl ha hf ht (fun d w =>
      ((d.setPort n { d.port n with ident := some w }).put (kNbrIdent n) w).comparePort n)
  case time => exact managementRow_accepted hl ha hf ht (fun d w => d.timeArrives n w)
end

section
/-! SUPPORT. Graders: a report is taken, joins the sums of its grader, and the last tile brings the decision. -/

namespace Sys2Proof.Machine

/-- The sums of a grader with one more report (R349). -/
def Grader.add (x : Grader) (r : Report) : Grader :=
  { x with tiles := x.tiles + 1, elements := x.elements + r.elements, clip := x.clip + r.clip
           uflow := x.uflow + r.uflow, amax := max x.amax r.amax, flags := x.flags ||| r.flags }

/-- The die once a report is no longer on its way. -/
def Dev.takeReport (d : Dev) (r : Report) : Dev :=
  { d with training := { d.training with reports := d.training.reports.erase r } }

section
variable {d : Dev} {p g : Nat} {r : Report}
  (hr : d.training.reports.find? (fun y => decide (y.p = p) && decide (y.g = g)) = some r)
include hr

/-- The oldest report for the grader is taken, which leaves the entry and the sums that the grader then reads. -/
theorem Dev.graderReport_found : d.graderReport p g =
    if (d.graderEntry p g).enable = false then d.takeReport r
    else if ((d.grader p g).add r).tiles < (d.graderEntry p g).expect
      then (d.takeReport r).setGrader p g ((d.grader p g).add r)
    else (d.takeReport r).decide_ p g (d.graderEntry p g) ((d.grader p g).add r) := by
  rw [Dev.graderReport, hr]
  rfl

theorem Dev.graderReport_disabled (he : (d.graderEntry p g).enable = false) : d.graderReport p g = d.takeReport r := by
  rw [Dev.graderReport_found hr, if_pos he]

theorem Dev.graderReport_short (he : (d.graderEntry p g).enable = true)
    (ht : ((d.grader p g).add r).tiles < (d.graderEntry p g).expect) :
    d.graderReport p g = (d.takeReport r).setGrader p g ((d.grader p g).add r) := by
  rw [Dev.graderReport_found hr, if_neg (by simp [he]), if_pos ht]

theorem Dev.graderReport_last (he : (d.graderEntry p g).enable = true)
    (ht : (d.graderEntry p g).expect ≤ ((d.grader p g).add r).tiles) :
    d.graderReport p g = (d.takeReport r).decide_ p g (d.graderEntry p g) ((d.grader p g).add r) := by
  rw [Dev.graderReport_found hr, if_neg (by simp [he]), if_neg (Nat.not_lt.mpr ht)]

end

theorem exec_graderReport_live {s : State} (hl : s.dev.live = true) (p : Fin 4) (g : Fin 64) :
    exec (.graderReport p g) s = .next { s with dev := s.dev.graderReport p g } :=
  onDie_live (fun d => d.graderReport p g) hl

end Sys2Proof.Machine

open Sys2Proof Sys2Proof.Machine

/-- Settles O44: the report found is taken, and the grader's ENABLE and its tiles against EXPECT_TILES decide the rest. -/
theorem gradersSum : Obligations.GradersSum := by
  unfold Obligations.GradersSum
  refine fun s p g r hl hr => ⟨fun he ht => ?short, fun he ht => ?last, fun he => ?disabled⟩
  case short => rw [exec_graderReport_live hl, Dev.graderReport_short hr he ht]; rfl
  case last => rw [exec_graderReport_live hl, Dev.graderReport_last hr he ht]; rfl
  case disabled => rw [exec_graderReport_live hl, Dev.graderReport_disabled hr he]; rfl
end

section
/-! SUPPORT. Shift requests and what SHIFT_CONFIRM, LOAD and ADMIT apply: the request's fields, and what the dictionary
applies at their entries. -/

namespace Sys2Proof.Machine

/-! *SHIFT_REQUEST fields*. -/

/-- A bit is the field of its place alone. -/
theorem bit_eq_fld (w i : Nat) : bit w i = (fld w i i == 1) := by simp [bit, fld]

theorem b2n_beq_one (b : Bool) : (b2n b == 1) = b := by cases b <;> rfl

theorem b2n_le_one (b : Bool) : b2n b ≤ 1 := by cases b <;> decide

theorem shiftReqBits_lt (x : ShiftReq) : shiftReqBits x < 2 ^ 32 := pack_lt _

theorem shiftReqOf_shiftReqBits {x : ShiftReq} (hp : x.p < 4) (ha : x.action < 5) (hm : x.mode < 8) (ht : x.tenancy < 16) :
    shiftReqOf (shiftReqBits x) = x := by
  have hfit : FieldsFit [(12, 0), (4, x.tenancy), (4, 0), (1, b2n x.confirm), (3, x.mode), (4, x.action), (2, 0), (2, x.p)] := by
    have ha : x.action < 16 := by omega
    simpa [FieldsFit, Nat.size_le] using ⟨ht, b2n_le_one _, hm, ha, hp⟩
  have e := unpack_pack (w := shiftReqBits x) rfl hfit
  simp [unpack, unpackFrom] at e
  simp [shiftReqOf, bit_eq_fld, e, b2n_beq_one]

/-! What is applied (R407, R409, R411). -/

section
variable (d : Dev) (f : Fuses)

theorem Dev.applyUnit_shiftRequest (x : ShiftReq) :
    d.applyUnit f 0x2010 1 (toBytes (shiftReqBits x) 4) = d.shift (shiftReqBits x) := by
  have hv : ofBytes (toBytes (shiftReqBits x) 4) = shiftReqBits x := by
    rw [ofBytes_toBytes]
    exact Nat.mod_eq_of_lt (shiftReqBits_lt x)
  calc d.applyUnit f 0x2010 1 (toBytes (shiftReqBits x) 4)
      = d.shift (ofBytes (toBytes (shiftReqBits x) 4)) := rfl
    _ = d.shift (shiftReqBits x) := by rw [hv]

theorem Dev.applyUnit_shiftConfirm (v : Byte) : d.applyUnit f 0x2010 3 (toBytes v.toNat 1) = d.release v.toNat := by
  calc d.applyUnit f 0x2010 3 (toBytes v.toNat 1)
      = d.release (ofBytes (toBytes v.toNat 1)) := rfl
    _ = d.release v.toNat := by rw [ofBytes_toBytes_toNat v rfl]

theorem Dev.applyUnit_partCtrl (p : Fin 4) (bs : List Byte) :
    d.applyUnit f (0x6010 + p) 2 bs = if ofBytes bs = 1 then d.loadPart p else d.admitPart p := by
  simp (disch := omega) only [Dev.applyUnit, among_iff, and_true, if_neg, if_pos, Nat.add_sub_cancel_left]

end

/-- A shift request of any action is a write of SHIFT_REQUEST. -/
theorem State.applies_shiftRequest {s : State} {c : Instr} {o : Origin} (x : ShiftReq)
    (he : exec c s = writeBytes o kShiftRequest (toBytes (shiftReqBits x) 4) s) :
    s.Applies c o kShiftRequest (toBytes (shiftReqBits x) 4) (fun d => d.shift (shiftReqBits x)) :=
  State.applies_entry (by omega) (by omega) he fun d => d.applyUnit_shiftRequest _ x

end Sys2Proof.Machine

open Sys2Proof Sys2Proof.Machine

/-- Settles O15: a request's fields are unpacked as they were packed; each row writes its entry, and the dictionary applies there
what the statement names. -/
theorem shiftWrites : Obligations.ShiftWrites := by
  unfold Obligations.ShiftWrites
  intro s o
  refine ⟨fun x hp ha hm ht => ⟨shiftReqBits_lt x, shiftReqOf_shiftReqBits hp ha hm ht⟩,
    fun p m c => State.applies_shiftRequest _ rfl, fun p m c n => State.applies_shiftRequest _ rfl,
    fun p m c => State.applies_shiftRequest _ rfl, fun p m c => State.applies_shiftRequest _ rfl,
    fun v => ?confirm, fun p => ?load, fun p => ?admission⟩
  case confirm => exact State.applies_entry (by omega) (by omega) rfl fun d => d.applyUnit_shiftConfirm _ v
  case load =>
    exact State.applies_entry (by omega) (by omega) rfl fun d => by rw [d.applyUnit_partCtrl, if_pos (by decide)]
  case admission =>
    exact State.applies_entry (by omega) (by omega) rfl fun d => by rw [d.applyUnit_partCtrl, if_neg (by decide)]
end

section
/-! SUPPORT. The end of a teardown and the turn of tenants: what a release leaves of its partition, and the conditions of
the rows. -/

namespace Sys2Proof.Machine

/-! Status entries, each its own. -/

theorem Dev.get_putRaise_self (d : Dev) (v k x : Nat) : (d.putRaise v k x).get k = x := by
  unfold Dev.putRaise
  split
  · assumption
  · rw [Dev.get_msix, Dev.get_put_self]

theorem Dev.get_putRaise_ne (d : Dev) (v x : Nat) {k j : Nat} (h : j ≠ k) : (d.putRaise v k x).get j = d.get j := by
  unfold Dev.putRaise
  split
  · rfl
  · rw [Dev.get_msix, Dev.get_put_ne _ _ h]

@[simp] theorem Dev.pState_setPState (d : Dev) (p v : Nat) : (d.setPState p v).pState p = v := d.get_putRaise_self 3 _ v

/-- SHIFT_STATUS is no partition's state. -/
@[simp] theorem Dev.pState_setShift (d : Dev) (p q v : Nat) : (d.setShift p v).pState q = d.pState q :=
  d.get_putRaise_ne 1 _ (by simp only [kPartState, kShiftStatus, key]; omega)

theorem Dev.part_congr {d e : Dev} (h : e.parts = d.parts) (p : Nat) : e.part p = d.part p := by simp [Dev.part, h]

/-! Release (R409). -/

section
variable {d : Dev} {p : Nat} {x : Teardown} (hx : (d.part p).teardown = some x)
include hx

theorem Dev.release_pState : (d.release p).pState p = x.endState := by
  rw [Dev.release, hx]
  exact (Dev.pState_setShift ..).trans (Dev.pState_setPState ..)

/-- The teardown and the shift request are over. -/
theorem Dev.release_teardown : ((d.release p).part p).teardown = none := by
  rw [Dev.release, hx]
  dsimp only
  rw [Dev.part_congr (Dev.setShift_parts ..), Dev.part_congr (Dev.setPState_parts ..), Dev.part_setPart]

/-- Only a RESHAPE keeps benches. -/
theorem Dev.release_hosts (he : x.endState ≠ psRestoring) : ((d.release p).part p).hosts = [] := by
  rw [Dev.release, hx]
  dsimp only
  rw [Dev.part_congr (Dev.setShift_parts ..), Dev.part_congr (Dev.setPState_parts ..), Dev.part_setPart, if_neg he,
    Dev.part_setPart]

end

/-- UNBOUND (R312): the three entries of a binding read 0. -/
theorem Dev.unbind_get (d : Dev) (p : Nat) :
    (d.unbind p).get (kPartMpart p) = 0 ∧ (d.unbind p).get (kPartEpoch p) = 0 ∧ (d.unbind p).get (kPartJoinStatus p) = 0 := by
  have hme : kPartMpart p ≠ kPartEpoch p := by simp only [kPartMpart, kPartEpoch, key]; omega
  have hmj : kPartMpart p ≠ kPartJoinStatus p := by simp only [kPartMpart, kPartJoinStatus, key]; omega
  have hej : kPartEpoch p ≠ kPartJoinStatus p := by simp only [kPartEpoch, kPartJoinStatus, key]; omega
  refine ⟨?_, ?_, Dev.get_put_self ..⟩
  · rw [Dev.unbind, Dev.get_put_ne _ _ hmj, Dev.get_put_ne _ _ hme, Dev.get_put_self]
  · rw [Dev.unbind, Dev.get_put_ne _ _ hej, Dev.get_put_self]

/-! Teardown (R409). -/

section
variable {d : Dev} {p : Nat} {x : Teardown} (hx : (d.part p).teardown = some x) (ht : x.torn = false)
include hx ht

theorem Dev.tornDown_begun : d.tornDown p =
    if (d.drainWork p).workDone p then (d.drainWork p).tearEnd p x else d.drainWork p := by
  rw [Dev.tornDown, hx]
  exact if_neg (by simp [ht])

theorem Dev.tornDown_busy (hw : (d.drainWork p).workDone p = false) : d.tornDown p = d.drainWork p := by
  rw [Dev.tornDown_begun hx ht, if_neg (by simp [hw])]

theorem Dev.tornDown_done (hw : (d.drainWork p).workDone p = true) : d.tornDown p = (d.drainWork p).tearEnd p x := by
  rw [Dev.tornDown_begun hx ht, if_pos hw]

theorem Dev.cutoff_due (hd : x.startedAt + cutoffNs ≤ d.time) : d.cutoff p =
    let c := ((d.stopCkpt p).cutEngines p).kickBed
    c.setPart p { c.part p with teardown := some { x with cutoff := true } } := by
  rw [Dev.cutoff, hx]
  exact if_neg (by simp [ht]; omega)

end

/-- The partition once its engines have stopped and what it held of the module beside its allocation is cleared. -/
def Dev.tornState (d : Dev) (p : Nat) (x : Teardown) : Dev :=
  let d := ((((d.abortEngines p 0xFF).unbind p).clearAllTallies p true).restartQueues p).setTrain p Train.start
  let d := d.setBed p { d.bed p with ckptDue := none }
  ((d.setPart p { d.part p with teardown := some { x with torn := true } }).setShift p 4).kickBed

/-- Torn down, the partition waits for SHIFT_CONFIRM or is released at once. -/
theorem Dev.tearEnd_eq (d : Dev) (p : Nat) (x : Teardown) :
    d.tearEnd p x = if x.confirm then d.tornState p x else (d.tornState p x).release p := rfl

theorem exec_tornDown_powered {s : State} (hs : s.dev.powered = true) (p : Fin 4) :
    exec (.tornDown p) s = .next (s.withDev (s.dev.tornDown p)) := onDev_powered (fun d => d.tornDown p) hs

theorem exec_teardownCutoff_powered {s : State} (hs : s.dev.powered = true) (p : Fin 4) :
    exec (.teardownCutoff p) s = .next (s.withDev (s.dev.cutoff p)) := onDev_powered (fun d => d.cutoff p) hs

/-! Tenants (R402 to R404). -/

/-- How many tenants a host has: those of its share that the partition's logical benches reach. -/
def Dev.tenantsOf (d : Dev) (p host : Nat) : Nat :=
  min (host * d.tenancy p + d.tenancy p) (d.get (kPartLogicalBenches p)) - host * d.tenancy p

/-- The tenant after the resident one, in turn. -/
def Dev.nextTenant (d : Dev) (p host : Nat) : Nat :=
  host * d.tenancy p + (d.residentOf p host - host * d.tenancy p + 1) % d.tenantsOf p host

/-- The next tenant stands in the bench, and the one that stood there is put away. -/
def Dev.tenantSwitched (d : Dev) (p host : Nat) : Dev :=
  let l := d.residentOf p host
  let next := d.nextTenant p host
  let b := d.hostBench p l
  let x := d.bench b
  let d' := ((d.saveWaits p l).moveBench b (imagePlace p l)).moveBench (imagePlace p next) b
  let d' := d'.setBench b { d'.bench b with faces := x.faces, vec := x.vec, ranPass := x.ranPass, replay := x.replay }
  let d' := d'.setPart p { d'.part p with resident := SMap.set (host * d.tenancy p) (d'.part p).resident host next }
  ((d'.restoreWaits p next).endMarked).kickBench b

section
variable {d : Dev} {p host : Nat}

theorem Dev.nextTenant_inShare (hn : 1 < d.tenantsOf p host) :
    host * d.tenancy p ≤ d.nextTenant p host ∧ d.nextTenant p host < host * d.tenancy p + d.tenantsOf p host :=
  ⟨Nat.le_add_right .., Nat.add_lt_add_left (Nat.mod_lt _ (by omega)) _⟩

/-- With more tenants than one, the resident one blocked and none of its grants pending, the switch takes place. -/
theorem Dev.tenantSwitch_due (hn : 1 < d.tenantsOf p host) (hh : host < (d.part p).hosts.length)
    (hb : d.tenantBlocked p (d.residentOf p host) = true)
    (hg : d.tallies.waits.any (fun x => d.benchWait p (d.residentOf p host) x.1 && x.2.latch) = false) :
    d.tenantSwitch p host = d.tenantSwitched p host := by
  have hturn : ¬ (d.tenantsOf p host ≤ 1 ∨ (d.part p).hosts.length ≤ host) := by omega
  have hfree : ¬ (d.tenantBlocked p (d.residentOf p host) = false ∨
      d.tallies.waits.any (fun x => d.benchWait p (d.residentOf p host) x.1 && x.2.latch) = true) := by simp [hb, hg]
  exact (if_neg hturn).trans (if_neg hfree)

end

theorem exec_tenantSwitch_live {s : State} (hl : s.dev.live = true) (p : Fin 4) (h : Fin 96) :
    exec (.tenantSwitch p h) s = .next { s with dev := s.dev.tenantSwitch p h } := onDie_live (fun d => d.tenantSwitch p h) hl

end Sys2Proof.Machine

open Sys2Proof Sys2Proof.Machine

/-- Settles O35: a teardown by whether work still runs and a confirmation is asked for; a release through what it writes of its
partition; a switch by its conditions, the next tenant within the host's share. -/
theorem teardownAndTenancy : Obligations.TeardownAndTenancy := by
  unfold Obligations.TeardownAndTenancy
  refine ⟨fun s p x hs hx ht => ⟨fun hw => ?busy, fun hw hc => ?confirm, fun hw hc => ?release, fun hd => ?cutoff⟩,
    fun d p x _ hx => ⟨Dev.release_pState hx, Dev.release_teardown hx, Dev.release_hosts hx, Dev.unbind_get d p⟩,
    fun s p h hl hn hh hb hg => ⟨?switch, Dev.nextTenant_inShare hn⟩⟩
  case busy => rw [exec_tornDown_powered hs, Dev.tornDown_busy hx ht hw]
  case confirm => rw [exec_tornDown_powered hs, Dev.tornDown_done hx ht hw, Dev.tearEnd_eq, if_pos hc]; rfl
  case release => rw [exec_tornDown_powered hs, Dev.tornDown_done hx ht hw, Dev.tearEnd_eq, if_neg (by simp [hc])]; rfl
  case cutoff => rw [exec_teardownCutoff_powered hs, Dev.cutoff_due hx ht hd]
  case switch => rw [exec_tenantSwitch_live hl, Dev.tenantSwitch_due hn hh hb hg]; rfl
end

section
/-! SUPPORT. Resets that end: what their records and their status leave alone, what the effect of each domain leaves standing, and
what a module reset leaves of the module. -/

namespace Sys2Proof.Machine

/-! Records, and the status of a reset (R446). -/

section
variable (d : Dev)

/-- Of recovery's state a record writes the log alone. -/
theorem Dev.record_faults (w : Where) (t c : Nat) (b : List (Nat × Nat)) :
    ∃ l, (d.record w t c b).faults = { d.faults with log := l } := by
  unfold Dev.record
  extract_lets
  split
  · exact ⟨_, by rw [Dev.notify_faults, Dev.msix_faults]; rfl⟩
  · exact ⟨_, rfl⟩

/-- The units of the dies and the stacks, security and the surroundings: what no report of a reset touches. -/
def Dev.unreported (d : Dev) : Seqs × Tallies × Mem × Security × Env := (d.seqs, d.tallies, d.mem, d.sec, d.env)

theorem Dev.startReset_run (r : ResetRun) : (d.startReset r).faults.run = some r := by
  simp [Dev.startReset, Dev.setResetStatus, Dev.setRun']

theorem Dev.startReset_status (r : ResetRun) : (d.startReset r).get kResetStatus = 2 := Dev.get_putRaise_self ..

end

/-- A reset once its records are written and its status is set, before one that ran beside it takes its place (log 148). -/
def Dev.resetReported (d : Dev) (r : ResetRun) (result : Nat) : Dev :=
  (((resetScopes r).foldl (fun d w => d.resetRecord r w result) d).countResets r).setRun' none
    |>.setResetStatus (if result = 0 then 3 else 4)

section
variable (d : Dev) (r : ResetRun) (result : Nat)

theorem Dev.resetReported_units : (d.resetReported r result).unreported = d.unreported := by
  have hrecord : ∀ (e : Dev) w t c b k v, ((e.record w t c b).put k v).unreported = e.unreported := by simp [Dev.unreported]
  have hrecords : ((resetScopes r).foldl (fun d w => d.resetRecord r w result) d).unreported = d.unreported :=
    foldl_field Dev.unreported _ (fun e w => hrecord e _ _ _ _ _ _) _ d
  have hcount : ∀ e : Dev, (e.countResets r).unreported = e.unreported := fun e => by
    unfold Dev.countResets
    (repeat' split) <;> rfl
  have hstatus : ∀ (e : Dev) v, (e.setRun' none |>.setResetStatus v).unreported = e.unreported := fun e v => by
    simp [Dev.setResetStatus, Dev.setRun', Dev.unreported]
  rw [Dev.resetReported, hstatus, hcount, hrecords]

theorem Dev.resetReported_next : (d.resetReported r result).faults.next = d.faults.next := by
  have hrecords : ((resetScopes r).foldl (fun d w => d.resetRecord r w result) d).faults.next = d.faults.next :=
    foldl_field (fun e => e.faults.next) _ (fun e w => by
      obtain ⟨l, hl⟩ := e.record_faults w 0x702 0 [(4, r.domain), (4, r.cause), (2, result), (64, e.time - r.startedAt)]
      rw [Dev.resetRecord, Dev.put_faults, hl]) _ d
  have hcount : ∀ e : Dev, (e.countResets r).faults = e.faults := fun e => by
    unfold Dev.countResets
    (repeat' split) <;> rfl
  rw [Dev.resetReported, Dev.setResetStatus, Dev.putRaise_faults, Dev.setRun', hcount, hrecords]

theorem Dev.resetReported_run : (d.resetReported r result).faults.run = none := by
  rw [Dev.resetReported, Dev.setResetStatus, Dev.putRaise_faults]; rfl

/-- An entry below the telemetry and the fault log keeps its value, but for RESET_STATUS and LAST_RESET. -/
theorem Dev.get_resetReported {k : Nat} (hk : k / 256 < 0x9000) (hr : k / 256 ≠ 0x2020) :
    (d.resetReported r result).get k = d.get k := by
  have hne : ∀ j, j / 256 = 0x2020 ∨ 0x9000 ≤ j / 256 → k ≠ j := by rintro j h rfl; omega
  have hrecords : ((resetScopes r).foldl (fun d w => d.resetRecord r w result) d).get k = d.get k :=
    foldl_field (fun e => e.get k) _ (fun e w => by
      rw [Dev.resetRecord, Dev.get_put_ne _ _ (hne kLastReset (by decide)),
        Dev.get_record _ _ _ _ _ (by omega) (by omega) (by omega)]) _ d
  have hcount : ∀ e : Dev, (e.countResets r).get k = e.get k := fun e => by
    unfold Dev.countResets
    split
    · exact Dev.get_bump_ne _ _ (hne kResetsEngine (by decide))
    · split
      · exact Dev.get_bump_ne _ _ (hne kResetsPartition (by decide))
      · split
        · exact Dev.get_bump_ne _ _ (hne kResetsModule (by decide))
        · rfl
  rw [Dev.resetReported, Dev.setResetStatus, Dev.get_putRaise_ne _ _ _ (hne kResetStatus (by decide))]
  exact (hcount _).trans hrecords

theorem Dev.endReset_alone (h : d.faults.next = none) : d.endReset r result = d.resetReported r result := by
  have hn := (d.resetReported_next r result).trans h
  unfold Dev.resetReported at hn
  rw [Dev.endReset]
  simp only [hn, Dev.resetReported]

theorem Dev.endReset_beside {n : ResetRun} (h : d.faults.next = some n) : d.endReset r result =
    Dev.startReset { d.resetReported r result with faults := { (d.resetReported r result).faults with next := none } } n := by
  have hn := (d.resetReported_next r result).trans h
  unfold Dev.resetReported at hn
  rw [Dev.endReset]
  simp only [hn, Dev.resetReported]

theorem Dev.endReset_units : (d.endReset r result).unreported = d.unreported := by
  cases h : d.faults.next with
  | none => rw [Dev.endReset_alone _ _ _ h, Dev.resetReported_units]
  | some n =>
    rw [Dev.endReset_beside _ _ _ h, ← d.resetReported_units r result]
    simp [Dev.startReset, Dev.setResetStatus, Dev.setRun', Dev.unreported]

/-- The reset in progress then is the one that ran beside it. -/
theorem Dev.endReset_run : (d.endReset r result).faults.run = d.faults.next := by
  cases h : d.faults.next with
  | none => rw [Dev.endReset_alone _ _ _ h, Dev.resetReported_run]
  | some n => rw [Dev.endReset_beside _ _ _ h, Dev.startReset_run]

theorem Dev.endReset_status : (d.endReset r result).get kResetStatus =
    if d.faults.next = none then (if result = 0 then 3 else 4) else 2 := by
  cases h : d.faults.next with
  | none => rw [Dev.endReset_alone _ _ _ h]; exact Dev.get_putRaise_self ..
  | some n => rw [Dev.endReset_beside _ _ _ h]; exact Dev.startReset_status ..

theorem Dev.get_endReset {k : Nat} (hk : k / 256 < 0x9000) (hr : k / 256 ≠ 0x2020) : (d.endReset r result).get k = d.get k := by
  cases h : d.faults.next with
  | none => rw [Dev.endReset_alone _ _ _ h, Dev.get_resetReported _ _ _ hk hr]
  | some n =>
    have hs : k ≠ kResetStatus := by rintro rfl; exact hr (by decide)
    rw [Dev.endReset_beside _ _ _ h, Dev.startReset, Dev.setResetStatus, Dev.get_putRaise_ne _ _ _ hs]
    exact d.get_resetReported r result hk hr

end

/-! What the effects leave standing. -/

/-- The reset that ran beside this one, and the armed token. -/
def Dev.standing (d : Dev) : Option ResetRun × Option Nat := (d.faults.next, d.sec.token)

theorem Dev.standing_congr {d e : Dev} (hf : e.faults = d.faults) (hs : e.sec = d.sec) : e.standing = d.standing := by
  rw [Dev.standing, hf, hs]; rfl

@[simp] theorem ite_standing (c : Prop) [Decidable c] (a b : Dev) :
    (if c then a else b).standing = if c then a.standing else b.standing := by split <;> rfl

section
variable (d : Dev)

@[simp] theorem Dev.put_standing (k v : Nat) : (d.put k v).standing = d.standing := rfl
@[simp] theorem Dev.bump_standing (k n : Nat) : (d.bump k n).standing = d.standing := rfl
@[simp] theorem Dev.setChan_standing (h ch : Nat) (x : Chan) : (d.setChan h ch x).standing = d.standing := rfl

@[simp] theorem Dev.postMem_standing (off : Nat) (bs : List Byte) : (d.postMem off bs).standing = d.standing := by
  have hold : ∀ what, (d.hold off bs.length what).standing = d.standing := fun _ => rfl
  simp [Dev.postMem, hold, Dev.standing_congr (d.writeMem_faults off bs false) (d.writeMem_sec off bs false)]

@[simp] theorem Dev.haulRecord_standing (e : HaulEnd) (p seq transpose : Nat) :
    (d.haulRecord e p seq transpose).standing = d.standing := by
  have hs : ∀ (q : Prop) [Decidable q] k v x off bs kt vt,
      ((if q then (d.put k v).setChan e.h e.ch x else d.postMem off bs).put kt vt).standing = d.standing := by simp
  exact hs _ _ _ _ _ _ _ _

/-- A record that a haul owes is written on its ring, or kept by its channel (R181, R450). -/
@[simp] theorem Dev.oweRecord_standing (c : Cmd) (e : HaulEnd) : (d.oweRecord c e).standing = d.standing := by
  simp [Dev.oweRecord]

@[simp] theorem Dev.payChain_standing (k : ChainId) (u : Nat) : (d.payChain k u).standing = d.standing :=
  foldl_field Dev.standing _ (fun _ _ => by simp [Dev.chanRest]) _ d

theorem Dev.idleChain_standing (k : ChainId) : (d.idleChain k).standing = d.standing := by
  have hcursors : ∀ e : Dev, ∀ u x, (e.setCursor k u x).standing = e.standing := fun _ _ _ => rfl
  have hgauge : ∀ e : Dev, (e.setGauge k []).standing = e.standing := fun _ => rfl
  rw [Dev.idleChain, hgauge]
  exact foldl_field Dev.standing _ (fun e u => by rw [hcursors, Dev.payChain_standing]) _ d

theorem Dev.clearForEngine_standing (p : Nat) : (d.clearForEngine p).standing = d.standing := by
  have htallies : (d.clearTallies p false).standing = d.standing := rfl
  have hgraders : ∀ e : Dev, (e.clearGraders p).standing = e.standing := fun e =>
    (foldl_field Dev.standing _ (fun _ _ => Dev.put_standing ..) _ _).trans rfl
  have htally : ∀ (e : Dev) t x, (e.setTally t x).standing = e.standing := fun _ _ _ => rfl
  unfold Dev.clearForEngine
  refine (foldl_field Dev.standing _ (fun e i => ?_) _ _).trans ?_
  · dsimp only
    split <;> simp [htally]
  · rw [Dev.setFlag, Dev.put_standing, hgraders, htallies]

end

/-! What a module reset leaves (R444). -/

/-- Chains, tallies and what device memory holds. -/
def Dev.contents (d : Dev) : Seqs × Tallies × Memory := (d.seqs, d.tallies, d.mem.hbm)

section
variable (d : Dev)

theorem Dev.startPorts_contents : d.startPorts.contents = d.contents :=
  foldl_field Dev.contents _ (fun e n => by dsimp only; (repeat' split) <;> simp [Dev.contents]) _ d

theorem Dev.startPorts_standing : d.startPorts.standing = d.standing :=
  foldl_field Dev.standing _ (fun e n => by dsimp only; (repeat' split) <;> simp [Dev.standing]) _ d

theorem Dev.wipe_contents : d.wipe.contents = (Seqs.reset, Tallies.reset, d.mem.hbm) := Dev.startPorts_contents _

theorem Dev.wipe_standing : d.wipe.standing = d.standing := Dev.startPorts_standing _

theorem Dev.hardRepairs_contents : d.hardRepairs.contents = d.contents :=
  foldl_field Dev.contents _ (fun e key => by rw [Dev.hardRepair]; dsimp only; split <;> rfl) _ d

theorem Dev.hardRepairs_standing : d.hardRepairs.standing = d.standing :=
  foldl_field Dev.standing _ (fun e key => by rw [Dev.hardRepair]; dsimp only; split <;> rfl) _ d

theorem Dev.raiseFor_contents (old : Dev) (v : Nat) (ks : List Nat) : (d.raiseFor old v ks).contents = d.contents := by
  unfold Dev.raiseFor
  split <;> simp [Dev.contents]

theorem Dev.raiseFor_standing (old : Dev) (v : Nat) (ks : List Nat) : (d.raiseFor old v ks).standing = d.standing := by
  unfold Dev.raiseFor
  split <;> simp [Dev.standing]

theorem Dev.get_raiseFor (old : Dev) (v : Nat) (ks : List Nat) (k : Nat) : (d.raiseFor old v ks).get k = d.get k := by
  unfold Dev.raiseFor
  split <;> simp

theorem Dev.moduleEnd_contents : d.moduleEnd.contents = (Seqs.reset, Tallies.reset, d.mem.hbm) := by
  have hput : ∀ (e : Dev) k v, (e.put k v).freshChallenge.contents = e.contents := fun _ _ _ => rfl
  have hpoints : ∀ (e : Dev) env, Dev.contents { e with env := env } = e.contents := fun _ _ => rfl
  rw [Dev.moduleEnd, hpoints, Dev.raiseFor_contents, Dev.raiseFor_contents, Dev.raiseFor_contents, hput,
    Dev.hardRepairs_contents, Dev.wipe_contents]

theorem Dev.moduleEnd_standing : d.moduleEnd.standing = d.standing := by
  have hput : ∀ (e : Dev) k v, (e.put k v).freshChallenge.standing = e.standing := fun _ _ _ => rfl
  have hpoints : ∀ (e : Dev) env, Dev.standing { e with env := env } = e.standing := fun _ _ => rfl
  rw [Dev.moduleEnd, hpoints, Dev.raiseFor_standing, Dev.raiseFor_standing, Dev.raiseFor_standing, hput,
    Dev.hardRepairs_standing, Dev.wipe_standing]

theorem Dev.moduleEnd_state :
    d.moduleEnd.get kModuleState = if d.env.fatalLow || d.env.shutAt.isSome then 4 else 1 := by
  have hput : ∀ (e : Dev) v, ((e.put kModuleState v).freshChallenge).get kModuleState = v := fun e v =>
    (Dev.get_put_ne _ _ (by decide : kModuleState ≠ kRefuseChallenge)).trans (e.get_put_self kModuleState v)
  have hpoints : ∀ (e : Dev) env k, Dev.get { e with env := env } k = e.get k := fun _ _ _ => rfl
  rw [Dev.moduleEnd, hpoints, Dev.get_raiseFor, Dev.get_raiseFor, Dev.get_raiseFor, hput]

/-! The effect of each domain (R438 to R444, R514). -/

section
variable (r : ResetRun)

theorem Dev.resetEffect_module (h : r.domain = 4) :
    d.resetEffect r = d.moduleEnd ∨ d.resetEffect r = d.moduleEnd.put kRefuseState 3 := by
  simp only [Dev.resetEffect, h]
  cases r.discarded <;> simp

theorem Dev.resetEffect_standing : (d.resetEffect r).standing = d.standing := by
  unfold Dev.resetEffect
  split
  · exact foldl_field Dev.standing _ (fun e x => e.idleChain_standing _) _ d
  · split
    · exact foldl_field Dev.standing _ (fun e x => by split <;> simp [Dev.clearForEngine_standing]) _ d
    · split
      · split <;> simp [Dev.moduleEnd_standing]
      · rfl

end

end

/-- A reset that has ended with its effect. -/
def Dev.resetEnded (d : Dev) (r : ResetRun) : Dev := (d.resetEffect r).endReset r 0

section
variable (d : Dev) (r : ResetRun)

theorem Dev.resetEnded_run : (d.resetEnded r).faults.run = d.faults.next :=
  (Dev.endReset_run ..).trans (congrArg Prod.fst (d.resetEffect_standing r))

theorem Dev.resetEnded_token : (d.resetEnded r).sec.token = d.sec.token :=
  have hsec : (d.resetEnded r).sec = (d.resetEffect r).sec := congrArg (fun x => x.2.2.2.1) (Dev.endReset_units _ r 0)
  (congrArg Security.token hsec).trans (congrArg Prod.snd (d.resetEffect_standing r))

theorem Dev.resetEnded_status : (d.resetEnded r).get kResetStatus = if d.faults.next = none then 3 else 2 := by
  have hnext : (d.resetEffect r).faults.next = d.faults.next := congrArg Prod.fst (d.resetEffect_standing r)
  rw [Dev.resetEnded, Dev.endReset_status, hnext]
  rfl

theorem Dev.endReset_contents (result : Nat) : (d.endReset r result).contents = d.contents :=
  congrArg (fun x => (x.1, x.2.1, x.2.2.1.hbm)) (d.endReset_units r result)

theorem Dev.resetEnded_contents (h : r.domain = 4) : (d.resetEnded r).contents = (Seqs.reset, Tallies.reset, d.mem.hbm) := by
  rw [Dev.resetEnded, Dev.endReset_contents, ← d.moduleEnd_contents]
  obtain he | he := d.resetEffect_module r h <;> rw [he]
  rfl

theorem Dev.resetEnded_state (h : r.domain = 4) :
    (d.resetEnded r).get kModuleState = if d.env.fatalLow || d.env.shutAt.isSome then 4 else 1 := by
  rw [Dev.resetEnded, Dev.get_endReset _ _ _ (by decide) (by decide), ← d.moduleEnd_state]
  obtain he | he := d.resetEffect_module r h <;> rw [he]
  exact Dev.get_put_ne _ _ (by decide)

end

/-! The armed token (R514). -/

/-- A repair changes face entries alone. -/
theorem Fuses.foldl_repair_frame (l : List Repair) (f : Fuses) :
    { l.foldl Fuses.repair f with faceRepair := f.faceRepair } = f := by
  induction l generalizing f with
  | nil => rfl
  | cons x l ih =>
    have hx : { f.repair x with faceRepair := f.faceRepair } = f := by
      unfold Fuses.repair
      split <;> rfl
    rw [List.foldl_cons]
    exact (congrArg (fun g : Fuses => { g with faceRepair := f.faceRepair }) (ih (f.repair x))).trans hx

section
variable (d : Dev) (f : Fuses)

theorem Dev.applyToken_none (h : d.sec.token = none) : d.applyToken f = (f, d) := by simp [Dev.applyToken, h]

theorem Dev.applyToken_fuses_armed {w : Nat} (h : d.sec.token = some w) : (d.applyToken f).1 =
    { (tokenOf w).words.foldl Fuses.repair f with
      levels := f.levels ||| (tokenOf w).levelsAdd, refuses := min (f.refuses + 1) 255 } := by
  have hf := Fuses.foldl_repair_frame (tokenOf w).words f
  have hlevels : ((tokenOf w).words.foldl Fuses.repair f).levels = f.levels := (congrArg Fuses.levels hf :)
  have hrefuses : ((tokenOf w).words.foldl Fuses.repair f).refuses = f.refuses := (congrArg Fuses.refuses hf :)
  simp [Dev.applyToken, h, hlevels, hrefuses]

theorem Dev.applyToken_faults : (d.applyToken f).2.faults = d.faults := by
  cases h : d.sec.token with
  | none => rw [d.applyToken_none f h]
  | some w =>
    have hfaces : ((tokenOf w).words.foldl Dev.clearFace d).faults = d.faults :=
      foldl_field (fun e => e.faults) _ (fun e x => by rw [Dev.clearFace]; dsimp only; (repeat' split) <;> rfl) _ d
    simp [Dev.applyToken, h, hfaces]

theorem Dev.applyToken_identity : (d.applyToken f).1.svnFloor = f.svnFloor ∧ (d.applyToken f).1.serial = f.serial := by
  cases h : d.sec.token with
  | none => rw [d.applyToken_none f h]; exact ⟨rfl, rfl⟩
  | some w =>
    have hf := Fuses.foldl_repair_frame (tokenOf w).words f
    rw [d.applyToken_fuses_armed f h]
    exact ⟨(congrArg Fuses.svnFloor hf :), (congrArg Fuses.serial hf :)⟩

end

/-! The rows (R446). -/

section
variable {s : State} {r : ResetRun} (hp : s.dev.powered = true) (hr : s.dev.faults.run = some r)
include hp hr

theorem exec_resetDone_ready (h : s.dev.resetReady r = true) (hf : r.refuse = false) :
    exec .resetDone s = .next { s with dev := s.dev.resetEnded r } := by
  have hrow : Dev.resetDone s.fuses s.dev = (s.fuses, s.dev.resetEnded r) := by simp [Dev.resetDone, hr, h, hf, Dev.resetEnded]
  exact (onAll_powered _ hp).trans (by rw [hrow])

theorem exec_resetDone_refuses (h : s.dev.resetReady r = true) (hf : r.refuse = true) :
    exec .resetDone s = .next { s with
      fuses := ((s.dev.resetEnded r).applyToken s.fuses).1, dev := ((s.dev.resetEnded r).applyToken s.fuses).2 } := by
  have hrow : Dev.resetDone s.fuses s.dev = (s.dev.resetEnded r).applyToken s.fuses := by
    simp [Dev.resetDone, hr, h, hf, Dev.resetEnded]
  exact (onAll_powered _ hp).trans (by rw [hrow])

/-- A reset that has exceeded its limit escalates by its domain. -/
theorem exec_resetEscalation_late (h : r.startedAt + s.dev.resetLimit r ≤ s.dev.time) :
    exec .resetEscalation s = .next (s.withDev
      (if r.domain = 4 then (s.dev.endReset r 1).resetFailed
       else if r.domain = 3 then s.dev.moduleReset rcEscalated
       else
         let d := s.dev.endReset r 1
         let p := ((r.parts.head?).map Prod.fst).getD 0
         if r.domain = 1 then (d.capture 2 p r.engine 0).engineReset p r.engine rcEscalated false d.captureId
         else (d.capture 3 p 0xFF 0).partitionReset p rcEscalated 0 0 d.captureId)) := by
  refine (onDev_powered Dev.resetEscalation hp).trans ?_
  rw [Dev.resetEscalation, hr]
  simp only [if_neg (Nat.not_lt.mpr h)]
  rfl

end

section
variable (d : Dev)

/-- A module reset that fails leaves the module FAILED until its power is cycled, and its chains as they stood. -/
theorem Dev.resetFailed_outcome : d.resetFailed.faults.run = none ∧ d.resetFailed.get kModuleState = 4 ∧
    d.resetFailed.env.fatalLow = true ∧ d.resetFailed.get kResetStatus = 5 ∧ d.resetFailed.seqs = d.seqs := by
  have henv : ∀ (e : Dev) env k, Dev.get { e with env := env } k = e.get k := fun _ _ _ => rfl
  refine ⟨?run, ?state, rfl, ?status, ?seqs⟩
  case run => simp [Dev.resetFailed, Dev.setResetStatus, Dev.setRun']
  case state => rw [Dev.resetFailed, henv, Dev.get_put_self]
  case status =>
    rw [Dev.resetFailed, henv, Dev.get_put_ne _ _ (by decide)]
    exact Dev.get_putRaise_self ..
  case seqs => simp [Dev.resetFailed, Dev.setResetStatus, Dev.setRun', Dev.draw]

end

end Sys2Proof.Machine

open Sys2Proof Sys2Proof.Machine

/-- Settles O33: the end of a reset through what its effect leaves standing and its report writes; its escalation by the domain. -/
theorem resetsEndOrEscalate : Obligations.ResetsEndOrEscalate := by
  unfold Obligations.ResetsEndOrEscalate
  refine ⟨fun s r hp hr hready => ⟨fun hf => ⟨exec_resetDone_ready hp hr hready hf, s.dev.resetEnded_run r,
      s.dev.resetEnded_status r, fun h4 => ⟨s.dev.resetEnded_state r h4, ?module⟩⟩, fun hf => ?refuse⟩,
    fun s r hp hr hlate => ⟨fun h4 => ?failed, fun h3 => ?toModule, fun h2 => ?toPartition, fun h1 => ?toEngine⟩⟩
  case module =>
    have hc := s.dev.resetEnded_contents r h4
    simp only [Dev.contents, Prod.mk.injEq] at hc
    exact hc
  case refuse =>
    have hid := (s.dev.resetEnded r).applyToken_identity s.fuses
    have htoken := s.dev.resetEnded_token r
    refine ⟨_, exec_resetDone_refuses hp hr hready hf, ?_, hid.1, hid.2, fun hw => ?_, fun w hw => ?_⟩
    · exact (congrArg Faults.run (Dev.applyToken_faults ..)).trans (s.dev.resetEnded_run r)
    · exact congrArg Prod.fst (Dev.applyToken_none _ _ (htoken.trans hw))
    · rw [Dev.applyToken_fuses_armed _ _ (htoken.trans hw)]
      exact ⟨rfl, rfl⟩
  case failed =>
    obtain ⟨hrun, hstate, hfatal, hstatus, hseqs⟩ := (s.dev.endReset r 1).resetFailed_outcome
    have hkept : (s.dev.endReset r 1).seqs = s.dev.seqs := congrArg Prod.fst (s.dev.endReset_units r 1)
    refine ⟨s.withDev (s.dev.endReset r 1).resetFailed, ?_, rfl, hrun, hstate, hfatal, hstatus, hseqs.trans hkept⟩
    rw [exec_resetEscalation_late hp hr hlate, if_pos h4]
  case toModule => simp [exec_resetEscalation_late hp hr hlate, h3]
  case toPartition => simp [exec_resetEscalation_late hp hr hlate, h2]
  case toEngine => simp [exec_resetEscalation_late hp hr hlate, h1]
end

section
/-! SUPPORT. Captures, and resets that come from outside the dictionary: what a capture leaves alone, a module reset as it begins,
and the partitions that a Function Level Reset takes. -/

namespace Sys2Proof.Machine

/-! Captures (R434 to R436). -/

section
variable (d : Dev)

/-- A record that the module writes for itself touches device memory alone. -/
theorem Dev.postMem_frame (off : Nat) (bs : List Byte) : { d.postMem off bs with mem := d.mem } = d := by
  unfold Dev.postMem
  split
  · rfl
  · split
    · rfl
    · simp

theorem Dev.get_postMem (off : Nat) (bs : List Byte) (k : Nat) : (d.postMem off bs).get k = d.get k :=
  Dev.get_congr (congrArg Dev.dict (d.postMem_frame off bs) :) k

/-- The four captures that are kept once another is taken. -/
def Faults.keepCapture (f : Faults) (c : Capture) : Faults := { f with captures := ((f.captures ++ [c]).reverse.take 4).reverse }

theorem Faults.keepCapture_ne_nil (f : Faults) (c : Capture) : (f.keepCapture c).captures ≠ [] := by simp [Faults.keepCapture]

section
variable (domain p engine faultSeq : Nat)

/-- A capture is kept, its identifier and its count move on, and a full one is posted to memory as well. -/
theorem Dev.capture_writes : ∃ c n off bs,
    let e := ({ d with draws := d.draws + 1, faults := d.faults.keepCapture c }.put kCaptureNext n).bump kCaptures 1
    d.capture domain p engine faultSeq = e ∨ d.capture domain p engine faultSeq = e.postMem off bs := by
  unfold Dev.capture
  extract_lets id full hdr draw c lanes
  refine ⟨c, if id = 65535 then 1 else id + 1, ?_⟩
  by_cases h : full = true
  · rw [if_pos h]
    exact ⟨_, _, .inr rfl⟩
  · rw [if_neg h]
    exact ⟨0, [], .inl rfl⟩

theorem Dev.capture_frame :
    { d.capture domain p engine faultSeq with draws := d.draws, dict := d.dict, mem := d.mem, faults := d.faults } = d := by
  obtain ⟨c, n, off, bs, h | h⟩ := d.capture_writes domain p engine faultSeq
  · rw [h]; rfl
  · rw [h]
    exact congrArg (fun e : Dev => { e with draws := d.draws, dict := d.dict, mem := d.mem, faults := d.faults })
      (Dev.postMem_frame _ off bs)

theorem Dev.capture_faults : ∃ c, (d.capture domain p engine faultSeq).faults = d.faults.keepCapture c := by
  obtain ⟨c, n, off, bs, h | h⟩ := d.capture_writes domain p engine faultSeq
  · exact ⟨c, by rw [h]; rfl⟩
  · exact ⟨c, by rw [h]; exact (congrArg Dev.faults (Dev.postMem_frame _ off bs) :)⟩

theorem Dev.get_capture {k : Nat} (hc : k / 256 ≠ 0xA010) (ht : k / 256 ≠ 0x9037) :
    (d.capture domain p engine faultSeq).get k = d.get k := by
  have hn : k ≠ kCaptureNext := by rintro rfl; exact hc (by decide)
  have hb : k ≠ kCaptures := by rintro rfl; exact ht (by decide)
  have hw : ∀ (e : Dev) v, ((e.put kCaptureNext v).bump kCaptures 1).get k = e.get k := fun e v => by
    rw [Dev.get_bump_ne _ _ hb, Dev.get_put_ne _ _ hn]
  obtain ⟨c, n, off, bs, h | h⟩ := d.capture_writes domain p engine faultSeq
  · rw [h, hw]; rfl
  · rw [h, Dev.get_postMem, hw]; rfl

end

end

/-! A module reset as it begins (R444). -/

section
variable (d : Dev)

theorem Dev.endRunning_idle (h : d.faults.run = none) : d.endRunning = d := by simp [Dev.endRunning, h]

/-- The module as a module reset finds it: held values committed, and an armed token discarded unless it is to be applied. -/
def Dev.resetFound (d : Dev) : Dev :=
  if decide (d.commitHeld.get kRefuseState = 1) && d.commitHeld.allEmpty then d.commitHeld else d.commitHeld.discardToken

/-- The reset that is then in progress. -/
def Dev.moduleRun (d : Dev) (cause : Nat) : ResetRun :=
  let armed := decide (d.commitHeld.get kRefuseState = 1)
  let refuse := armed && d.commitHeld.allEmpty
  { domain := 4, cause := cause, clear := false, refuse := refuse, discarded := armed && !refuse,
    parts := [(0, d.resetFound.captureId)], engine := 0xFF, chain := 0,
    startedAt := (((d.resetFound.capture 4 0 0 0).retainBeds).put kModuleState 3).time }

/-- A module reset in progress, before the partitions are reset. -/
def Dev.moduleBegun (d : Dev) (cause : Nat) : Dev :=
  (((d.resetFound.capture 4 0 0 0).retainBeds).put kModuleState 3).startReset (d.moduleRun cause)

theorem Dev.moduleReset_idle (cause : Nat) (h : d.faults.run = none) : d.moduleReset cause =
    (List.range 4).foldl (fun d p => if d.resettable p then d.resetPart p 0 0 else d) (d.moduleBegun cause) := by
  rw [Dev.moduleReset, d.endRunning_idle h, d.endRunning_idle h]
  rfl

theorem Dev.get_commitHeld {k : Nat} (h : k / 256 ≠ 0x1030) : d.commitHeld.get k = d.get k := by
  unfold Dev.commitHeld
  split
  · exact d.get_commit h
  · rfl

theorem Dev.get_discardToken {k : Nat} (h : k ≠ kRefuseState) : d.discardToken.get k = d.get k := by
  unfold Dev.discardToken
  split
  · exact d.get_put_ne 3 h
  · rfl

theorem Dev.get_retainBeds {k : Nat} (h : k / 256 < 0xA020) : d.retainBeds.get k = d.get k := by
  refine foldl_field (fun e => e.get k) _ (fun e p => ?_) _ d
  have hb : k ≠ kRetainedBed p := by rintro rfl; rw [kRetainedBed, key_div _ (by decide)] at h; omega
  have hs : k ≠ kRetainedState p := by rintro rfl; rw [kRetainedState, key_div _ (by decide)] at h; omega
  split
  · rfl
  · rw [Dev.get_put_ne _ _ hs, Dev.get_put_ne _ _ hb]

theorem Dev.commitHeld_time : d.commitHeld.time = d.time := by
  unfold Dev.commitHeld
  split <;> rfl

theorem Dev.discardToken_time : d.discardToken.time = d.time := by
  unfold Dev.discardToken
  split <;> rfl

theorem Dev.capture_time (domain p engine faultSeq : Nat) : (d.capture domain p engine faultSeq).time = d.time :=
  (congrArg Dev.time (d.capture_frame domain p engine faultSeq) :)

theorem Dev.retainBeds_time : d.retainBeds.time = d.time :=
  foldl_field Dev.time _ (fun e p => by
    split
    · rfl
    · rw [Dev.put_time, Dev.put_time]) _ d

section
variable (cause : Nat)

theorem Dev.resetFound_time : d.resetFound.time = d.time := by
  unfold Dev.resetFound
  split
  · exact d.commitHeld_time
  · exact (Dev.discardToken_time _).trans d.commitHeld_time

theorem Dev.get_resetFound {k : Nat} (hc : k / 256 ≠ 0x1030) (hr : k ≠ kRefuseState) : d.resetFound.get k = d.get k := by
  unfold Dev.resetFound
  split
  · exact d.get_commitHeld hc
  · exact (Dev.get_discardToken _ hr).trans (d.get_commitHeld hc)

theorem Dev.moduleRun_startedAt : (d.moduleRun cause).startedAt = d.time := by
  rw [Dev.moduleRun]
  dsimp only
  rw [Dev.put_time, Dev.retainBeds_time, Dev.capture_time, Dev.resetFound_time]

theorem Dev.moduleBegun_run : (d.moduleBegun cause).faults.run = some (d.moduleRun cause) := by
  rw [Dev.moduleBegun, Dev.startReset_run]

theorem Dev.moduleBegun_status : (d.moduleBegun cause).get kResetStatus = 2 := by
  rw [Dev.moduleBegun, Dev.startReset_status]

theorem Dev.get_startReset (r : ResetRun) {k : Nat} (h : k ≠ kResetStatus) : (d.startReset r).get k = d.get k :=
  Dev.get_putRaise_ne _ _ _ h

theorem Dev.moduleBegun_state : (d.moduleBegun cause).get kModuleState = 3 := by
  rw [Dev.moduleBegun, Dev.get_startReset _ _ (by decide), Dev.get_put_self]

theorem Dev.moduleBegun_pState (p : Fin 4) : (d.moduleBegun cause).pState p = d.pState p := by
  have hk : kPartState p / 256 = 0x6010 + p := key_div _ (by decide)
  have hne : ∀ j, j / 256 < 0x6010 ∨ 0x6014 ≤ j / 256 → kPartState p ≠ j := by rintro j h rfl; omega
  simp only [Dev.pState]
  rw [Dev.moduleBegun, Dev.get_startReset _ _ (hne _ (by decide)), Dev.get_put_ne _ _ (hne _ (by decide)),
    Dev.get_retainBeds _ (by omega), Dev.get_capture _ _ _ _ _ (by omega) (by omega),
    Dev.get_resetFound _ (by omega) (hne _ (by decide))]

theorem Dev.moduleBegun_resettable (p : Fin 4) : (d.moduleBegun cause).resettable p = d.resettable p := by
  simp only [Dev.resettable, Dev.loading, d.moduleBegun_pState cause p]

/-- With no partition to reset, the module reset stands as it began. -/
theorem Dev.moduleReset_empty (h : d.faults.run = none) (hn : ∀ p : Fin 4, d.resettable p = false) :
    d.moduleReset cause = d.moduleBegun cause := by
  have hskip : ∀ p : Fin 4, (if (d.moduleBegun cause).resettable p then (d.moduleBegun cause).resetPart p 0 0
      else d.moduleBegun cause) = d.moduleBegun cause := fun p => if_neg (by simp [d.moduleBegun_resettable cause p, hn p])
  have h0 := hskip 0
  have h1 := hskip 1
  have h2 := hskip 2
  have h3 := hskip 3
  rw [d.moduleReset_idle cause h, show List.range 4 = [((0 : Fin 4) : Nat), (1 : Fin 4), (2 : Fin 4), (3 : Fin 4)] from rfl]
  simp only [List.foldl_cons, List.foldl_nil, h0, h1, h2, h3]

end

end

/-! The rows (R443, R446, R531). -/

section
variable {s : State} (hp : s.dev.powered = true)
include hp

/-- An edge that qualifies is a module reset; in a module that is off or has failed none does. -/
theorem exec_trayResetN_edge (a b : BitVec 32) : exec (.trayResetN a b) s = .next (s.withDev
    (if 10 ≤ a.toNat ∧ 1 ≤ b.toNat ∧ s.dev.get kModuleState ≠ 0 ∧ s.dev.get kModuleState ≠ 4
     then s.dev.moduleResetLine rcTray else s.dev)) := by
  refine (onDev_powered _ hp).trans ?_
  simp only [hp, true_and]
  rfl

theorem exec_functionLevelReset_powered : exec .functionLevelReset s = .next (s.withDev s.dev.functionReset) :=
  onDev_powered Dev.functionReset hp

theorem exec_mgmtCoreRestart_silent (c : Fin 2) (n : BitVec 16) (h : 100 ≤ n.toNat) : exec (.mgmtCoreRestart c n) s =
    .next { s with dev := s.dev.record noWhere 0x704 0 [(1, c.val), (16, n.toNat)] } := by
  refine (onDev_powered (fun d => if n.toNat < 100 then d else d.record noWhere 0x704 0 [(1, c.val), (16, n.toNat)]) hp).trans ?_
  rw [if_neg (by omega)]

end

/-- The function's own registers are cleared (R443; log 8). -/
def Dev.functionCleared (d : Dev) : Dev :=
  { d.put kBar2Base 0 with mgmt := { d.mgmt with msixTable := [], msixPending := [], d3hot := false, busMaster := false } }

/-- The partitions in the states a partition reset acts in. -/
def Dev.resettables (d : Dev) : List Nat := (List.range 4).filter (fun p => d.resettable p)

/-- Partitions that are captured and then reset as one. -/
def Dev.functionStarted (d : Dev) (ps : List Nat) : Dev :=
  ps.foldl (fun d p => d.resetPart p 0 0) ((d.flrRun ps).1.startReset (d.flrRun ps).2)

section
variable (d : Dev)

theorem Dev.functionReset_empty (h : d.functionCleared.resettables = []) : d.functionReset = d.functionCleared := if_pos (.inl h)

theorem Dev.functionReset_alone (hn : d.functionCleared.resettables ≠ []) (hr : d.faults.run = none) :
    d.functionReset = d.functionCleared.functionStarted d.functionCleared.resettables := by
  have hrun : d.functionCleared.faults.run = none := hr
  have hmodule : ¬ (d.functionCleared.resettables = [] ∨
      d.functionCleared.faults.run.any (fun r => decide (r.domain = 4)) = true) := by simpa [hrun] using hn
  have hpart : ¬ d.functionCleared.faults.run.any (fun r => decide (r.domain = 3)) = true := by simp [hrun]
  refine (if_neg hmodule).trans ((if_neg hpart).trans ?_)
  exact congrArg (fun e : Dev => e.functionStarted d.functionCleared.resettables) (d.functionCleared.endRunning_idle hrun)

end

end Sys2Proof.Machine

open Sys2Proof Sys2Proof.Machine

/-- Settles O34: an edge by what qualifies it and by the reset in progress; a function-level reset by the partitions it finds. -/
theorem resetsFromOutside : Obligations.ResetsFromOutside := by
  unfold Obligations.ResetsFromOutside
  refine fun s hp => ⟨fun a b ha hb h0 h4 hr => ⟨?edge, fun hn => ?empty⟩, fun a b h => ?short, fun a b r hr hd => ?running,
    ⟨fun h => ?none, fun hn hr => ?parts⟩, exec_mgmtCoreRestart_silent hp⟩
  case edge => rw [exec_trayResetN_edge hp, if_pos ⟨ha, hb, h0, h4⟩, Dev.moduleResetLine, hr]
  case empty =>
    rw [s.dev.moduleReset_empty rcTray hr hn]
    exact ⟨s.dev.moduleBegun_state _, s.dev.moduleBegun_status _, s.dev.moduleRun rcTray, s.dev.moduleBegun_run _, rfl, rfl,
      s.dev.moduleRun_startedAt _⟩
  case short => rw [exec_trayResetN_edge hp, if_neg (by omega)]; rfl
  case running =>
    have hline : s.dev.moduleResetLine rcTray = s.dev := by simp [Dev.moduleResetLine, hr, hd]
    rw [exec_trayResetN_edge hp, hline, ite_self]
    rfl
  case none => rw [exec_functionLevelReset_powered hp, s.dev.functionReset_empty h]; rfl
  case parts => rw [exec_functionLevelReset_powered hp, s.dev.functionReset_alone hn hr]; rfl
end

section
/-! SUPPORT. Deadlines that pass: the segment that is marked, what is written of it, and the segment that hangs. -/

namespace Sys2Proof.Machine

/-- What every marked segment has, a segment of that number has afterwards. -/
theorem forall_mem_mapSeg {P : Seg → Prop} {f : Seg → Seg} (hf : ∀ x, P (f x)) (l : List Seg) (seq0 : Nat) :
    ∀ y ∈ mapSeg l seq0 f, y.seq0 = seq0 → P y := by
  intro y hy hq
  obtain ⟨x, -, rfl⟩ := List.mem_map.mp hy
  by_cases hx : x.seq0 = seq0
  · rw [if_pos hx]; exact hf x
  · rw [if_neg hx] at hq; exact absurd hq hx

theorem Dev.gauge_congr {d e : Dev} (h : e.seqs = d.seqs) (k : ChainId) : e.gauge k = d.gauge k := by simp [Dev.gauge, h]

/-! Misses (R422, R423, R262). -/

section
variable {d : Dev} {k : ChainId}

theorem Dev.deadlineMiss_held (h : d.memHolds = true) : d.deadlineMiss k = d := if_pos h

theorem Dev.deadlineMiss_passed {x : Seg} (hm : d.memHolds = false)
    (hx : (d.gauge k).find? (fun y => !y.missed && y.heldAt.isNone && decide (y.deadline ≤ d.time)) = some x) :
    d.deadlineMiss k = d.missSeg k x := by
  rw [Dev.deadlineMiss, if_neg (by simp [hm]), hx]

end

/-- The record of what happened to a segment keeps the cursors, and the mark that its gauge has. -/
theorem Dev.marked_recorded (d : Dev) (k : ChainId) (seq0 counter : Nat) {f : Seg → Seg} {P : Seg → Prop} (hf : ∀ x, P (f x))
    (w : Where) (t c : Nat) (b : List (Nat × Nat)) :
    let e := ((d.setGauge k (mapSeg (d.gauge k) seq0 f)).bump counter 1).record w t c b
    e.seqs.cursors = d.seqs.cursors ∧ ∀ y ∈ e.gauge k, y.seq0 = seq0 → P y := by
  intro e
  have he : e.seqs = (d.setGauge k (mapSeg (d.gauge k) seq0 f)).seqs := by simp [e]
  refine ⟨by rw [he]; rfl, ?_⟩
  rw [Dev.gauge_congr he, Dev.gauge_setGauge]
  exact forall_mem_mapSeg hf _ seq0

/-! Hung segments (R426). -/

section
variable {d : Dev} {k : ChainId} {x : Seg}

/-- Where HANG_ACTION asks for no reset, a segment that hangs is marked, captured, counted and recorded. -/
theorem Dev.segmentHung_reported
    (hx : (d.gauge k).find? (fun y => !y.hung && y.heldAt.isNone && decide (y.deadline + d.get (kHangAfter k.p) ≤ d.time)) =
      some x)
    (ha : d.get (kHangAction k.p) = 0) : ∃ w b,
    d.segmentHung k = (((d.setGauge k (mapSeg (d.gauge k) x.seq0 (fun y => { y with hung := true }))).capture 0 k.p 0xFF
      (d.get kFaultSeqNext)).bump kSegmentsHung 1).record w 0x106 3 b := by
  rw [Dev.segmentHung, hx]
  simp only [ha]
  exact ⟨_, _, ite_self _⟩

end

/-- A segment that is marked, captured, counted and recorded leaves the units alone, and a capture of it is kept. -/
theorem Dev.captured_recorded (d : Dev) (k : ChainId) (seq0 faultSeq counter : Nat) {f : Seg → Seg} {P : Seg → Prop}
    (hf : ∀ x, P (f x)) (w : Where) (t c : Nat) (b : List (Nat × Nat)) :
    let e := (((d.setGauge k (mapSeg (d.gauge k) seq0 f)).capture 0 k.p 0xFF faultSeq).bump counter 1).record w t c b
    e.seqs.cursors = d.seqs.cursors ∧ e.benches = d.benches ∧ e.haul = d.haul ∧ e.tallies = d.tallies ∧
      (∀ y ∈ e.gauge k, y.seq0 = seq0 → P y) ∧ e.faults.captures ≠ [] ∧ e.faults.run = d.faults.run := by
  intro e
  let marked := d.setGauge k (mapSeg (d.gauge k) seq0 f)
  have hframe := marked.capture_frame 0 k.p 0xFF faultSeq
  obtain ⟨capture, hcapture⟩ := marked.capture_faults 0 k.p 0xFF faultSeq
  obtain ⟨log, hlog⟩ := ((marked.capture 0 k.p 0xFF faultSeq).bump counter 1).record_faults w t c b
  have hseqs : e.seqs = marked.seqs := (Dev.record_seqs ..).trans (congrArg Dev.seqs hframe :)
  have hfaults : e.faults = { d.faults.keepCapture capture with log := log } := by
    rw [Dev.bump_faults, hcapture] at hlog
    exact hlog
  refine ⟨by rw [hseqs]; rfl, (Dev.record_benches ..).trans (congrArg Dev.benches hframe :),
    (Dev.record_haul ..).trans (congrArg Dev.haul hframe :), (Dev.record_tallies ..).trans (congrArg Dev.tallies hframe :),
    ?_, ?_, by rw [hfaults]; rfl⟩
  · rw [Dev.gauge_congr hseqs, Dev.gauge_setGauge]
    exact forall_mem_mapSeg hf _ seq0
  · rw [hfaults]
    exact d.faults.keepCapture_ne_nil capture

/-! The rows, on dies that run. -/

section
variable {s : State} (hl : s.dev.live = true) (k : ChainId)
include hl

theorem exec_deadlineMiss_live : exec (.deadlineMiss k) s = .next (s.withDev (s.dev.deadlineMiss k)) :=
  onDie_live (fun d => d.deadlineMiss k) hl

theorem exec_segmentHung_live : exec (.segmentHung k) s = .next (s.withDev (s.dev.segmentHung k)) :=
  onDie_live (fun d => d.segmentHung k) hl

end

end Sys2Proof.Machine

open Sys2Proof Sys2Proof.Machine

/-- Settles O32: a miss by the hold of memory, a hung segment through what is written of it; the marks through the gauge. -/
theorem missedSegments : Obligations.MissedSegments := by
  unfold Obligations.MissedSegments
  refine fun s k x hl => ⟨fun hm => ?held, fun hm hx => ⟨?missed, ?marked⟩, fun hx ha => ?hung⟩
  case held => rw [exec_deadlineMiss_live hl, Dev.deadlineMiss_held hm]; rfl
  case missed => rw [exec_deadlineMiss_live hl, Dev.deadlineMiss_passed hm hx]; rfl
  case marked =>
    exact s.dev.marked_recorded (P := fun y => y.missed = true) k x.seq0 kDeadlineMisses (fun _ => rfl) _ _ _ _
  case hung =>
    obtain ⟨w, b, he⟩ := Dev.segmentHung_reported hx ha
    refine ⟨_, exec_segmentHung_live hl k, rfl, ?_⟩
    rw [State.dev_withDev, he]
    exact s.dev.captured_recorded (P := fun y => y.hung = true) k x.seq0 _ kSegmentsHung (fun _ => rfl) w _ _ b
end

section
/-! SUPPORT. Proof blocks that end: what a block that ran leaves of its bench and its sequencer, and what follows from its
result. -/

namespace Sys2Proof.Machine

/-! What a block that ran leaves (R427, R428). -/

section
variable (d : Dev)

@[simp] theorem Dev.setStore_unit (pl a : Nat) (bs : List Byte) : (d.setStore pl a bs).benches.unit = d.benches.unit := by
  induction bs generalizing d a with
  | nil => rfl
  | cons v bs ih =>
    rw [Dev.setStore, ih]
    unfold Dev.setStoreByte
    split <;> rfl

@[simp] theorem Dev.writeStore_unit (pl a : Nat) (bs : List Byte) (p : Bool) :
    (d.writeStore pl a bs p).benches.unit = d.benches.unit := by
  have hmark : ∀ (e : Dev) l q, (e.markStore pl l q).benches.unit = e.benches.unit := fun e l q => by
    unfold Dev.markStore
    split <;> rfl
  refine (foldl_field (fun e => e.benches.unit) _ (fun e l => ?_) _ _).trans (d.setStore_unit pl a bs)
  (repeat' split) <;> simp [hmark]

/-- A block writes bench store, and counts the tiles of chain 255 anew. -/
theorem Dev.proofUsed_writes (pl : Nat) : ∃ addr bs, d.proofUsed pl =
    (({ d with draws := d.draws + 1 }.writeStore pl addr bs false).setTilesSent pl 255 0).setTilesRecv pl 255 0 := ⟨_, _, rfl⟩

theorem Dev.proofUsed_seqs (pl : Nat) : (d.proofUsed pl).seqs = d.seqs := by
  obtain ⟨addr, bs, h⟩ := d.proofUsed_writes pl
  have htiles : ∀ e : Dev, ((e.setTilesSent pl 255 0).setTilesRecv pl 255 0).seqs = e.seqs := fun _ => rfl
  rw [h, htiles, Dev.writeStore_seqs]

theorem Dev.bench_proofUsed (pl b : Nat) : (d.proofUsed pl).bench b = d.bench b := by
  obtain ⟨addr, bs, h⟩ := d.proofUsed_writes pl
  have htiles : ∀ e : Dev, ((e.setTilesSent pl 255 0).setTilesRecv pl 255 0).benches.unit = e.benches.unit := fun _ => rfl
  rw [Dev.bench, h, htiles, Dev.writeStore_unit]
  rfl

/-- The bench's proof is over and counted, and its sequencer goes on. -/
def Dev.proofRan (d : Dev) (k : ChainId) (u b : Nat) : Dev :=
  let d := (d.setBench b { d.bench b with proof := none }).proofUsed b
  (d.setCursor k u { d.cursor k u with proof := false }).bump kProofRuns 1

variable (k : ChainId) (u b : Nat)

/-- The sequencer stood where it did before the block ran. -/
theorem Dev.proofRan_eq : d.proofRan k u b = (((d.setBench b { d.bench b with proof := none }).proofUsed b).setCursor k u
    { d.cursor k u with proof := false }).bump kProofRuns 1 := by
  have h : ((d.setBench b { d.bench b with proof := none }).proofUsed b).cursor k u = d.cursor k u := by
    rw [Dev.cursor, Dev.proofUsed_seqs]
    rfl
  rw [Dev.proofRan, h]

theorem Dev.bench_proofRan : ((d.proofRan k u b).bench b).proof = none := by
  have hgoes : ∀ (e : Dev) x, ((e.setCursor k u x).bump kProofRuns 1).bench b = e.bench b := fun _ _ => rfl
  rw [Dev.proofRan, hgoes, Dev.bench_proofUsed, Dev.bench_setBench]

theorem Dev.cursor_proofRan : (d.proofRan k u b).cursor k u = { d.cursor k u with proof := false } := by
  have hcount : ∀ e : Dev, (e.bump kProofRuns 1).cursor k u = e.cursor k u := fun _ => rfl
  rw [Dev.proofRan_eq, hcount, Dev.cursor_setCursor]

theorem Dev.proofWhere_proofRan : (d.proofRan k u b).proofWhere k u b = d.proofWhere k u b := by
  simp only [Dev.proofWhere, Dev.cursor_proofRan]

end

/-! Its result (R429 to R431). -/

/-- What a block comes to: a poisoned image before all else, then its result, where the block can reach it (log 16). -/
inductive Dev.ProofOutcome (d : Dev) (f : Fuses) (k : ChainId) (u b step : Nat) : ProofResult → Dev → Prop
  | poisoned (r : ProofResult) (line : Nat) (h : d.proofPoison k.p = some line) : ProofOutcome d f k u b step r
      (((d.proofRan k u b).record (d.proofWhere k u b) 0x604 0 [(44, line)]).writeProofImage k.p)
  | pass (h : d.proofPoison k.p = none) : ProofOutcome d f k u b step .pass ((d.proofRan k u b).proofPass k.p b step)
  | fail (sub : Byte) (face : Fin 4) (element : BitVec 16) (expected found : Word64) (h : d.proofPoison k.p = none)
      (hs : d.subBlock k sub.toNat = true) : ProofOutcome d f k u b step (.fail sub face element expected found)
      (((d.proofRan k u b).markFace f b face).proofFail k u b sub.toNat face element.toNat expected.toNat found.toNat)
  | notRun (sub : Byte) (face : Fin 4) (element : BitVec 16) (expected found : Word64) (h : d.proofPoison k.p = none)
      (hs : d.subBlock k sub.toNat = false) : ProofOutcome d f k u b step (.fail sub face element expected found) d
  | inconclusive (addr : BitVec 44) (h : d.proofPoison k.p = none) : ProofOutcome d f k u b step (.inconclusive addr) d

section
variable {d : Dev} {b : Nat} {k : ChainId} {step a l : Nat} (hp : (d.bench b).proof = some (k, step))
  (ht : d.tenantAt b = some (a, l)) (f : Fuses)
include hp ht

theorem Dev.proofEnds_outcome (r : ProofResult) :
    d.ProofOutcome f k (l - d.liftFirst k.p k.e) b step r (d.proofEnds f b r) := by
  have same : ∀ {k' step' a' l'}, (d.bench b).proof = some (k', step') → d.tenantAt b = some (a', l') →
      k' = k ∧ step' = step ∧ l' = l := fun hp' ht' => by simp_all
  fun_cases Dev.proofEnds d f b r with
  | case1 r k' step' a' l' ht' hp' p u ran line h =>
    obtain ⟨rfl, rfl, rfl⟩ := same hp' ht'
    have hran : ran = d.proofRan k' u b := (d.proofRan_eq k' u b).symm
    rw [hran]
    exact .poisoned r line h
  | case2 k' step' a' l' ht' hp' p u ran h =>
    obtain ⟨rfl, rfl, rfl⟩ := same hp' ht'
    have hran : ran = d.proofRan k' u b := (d.proofRan_eq k' u b).symm
    rw [hran]
    exact .pass h
  | case3 k' step' a' l' ht' hp' p u ran sub face element expected found h hs =>
    obtain ⟨rfl, rfl, rfl⟩ := same hp' ht'
    have hran : ran = d.proofRan k' u b := (d.proofRan_eq k' u b).symm
    rw [hran]
    exact .fail sub face element expected found h hs
  | case4 k' step' a' l' ht' hp' p sub face element expected found h hs =>
    obtain ⟨rfl, rfl, rfl⟩ := same hp' ht'
    exact .notRun sub face element expected found h (by simpa using hs)
  | case5 k' step' a' l' ht' hp' p addr h =>
    obtain ⟨rfl, rfl, rfl⟩ := same hp' ht'
    exact .inconclusive addr h
  | case6 r hno => exact (hno k step a l hp ht).elim

theorem Dev.proofEnds_poisoned (r : ProofResult) {line : Nat} (h : d.proofPoison k.p = some line) : d.proofEnds f b r =
    let e := d.proofRan k (l - d.liftFirst k.p k.e) b
    (e.record (e.proofWhere k (l - d.liftFirst k.p k.e) b) 0x604 0 [(44, line)]).writeProofImage k.p := by
  have ho := Dev.proofEnds_outcome hp ht f r
  dsimp only
  rw [Dev.proofWhere_proofRan]
  generalize d.proofEnds f b r = e at ho ⊢
  cases ho with
  | poisoned r line' h' =>
    obtain rfl : line' = line := Option.some.inj (h'.symm.trans h)
    rfl
  | pass h' => exact absurd (h'.symm.trans h) (by simp)
  | fail sub face element expected found h' => exact absurd (h'.symm.trans h) (by simp)
  | notRun sub face element expected found h' => exact absurd (h'.symm.trans h) (by simp)
  | inconclusive addr h' => exact absurd (h'.symm.trans h) (by simp)

variable (h : d.proofPoison k.p = none)
include h

theorem Dev.proofEnds_pass : d.proofEnds f b .pass = (d.proofRan k (l - d.liftFirst k.p k.e) b).proofPass k.p b step := by
  have ho := Dev.proofEnds_outcome hp ht f .pass
  generalize d.proofEnds f b .pass = e at ho ⊢
  cases ho with
  | poisoned _ line h' => exact absurd (h'.symm.trans h) (by simp)
  | pass => rfl

theorem Dev.proofEnds_inconclusive (addr : BitVec 44) : d.proofEnds f b (.inconclusive addr) = d := by
  have ho := Dev.proofEnds_outcome hp ht f (.inconclusive addr)
  generalize d.proofEnds f b (.inconclusive addr) = e at ho ⊢
  cases ho with
  | poisoned _ line h' => exact absurd (h'.symm.trans h) (by simp)
  | inconclusive => rfl

theorem Dev.proofEnds_fail (sub : Byte) (face : Fin 4) (element : BitVec 16) (expected found : Word64) :
    d.proofEnds f b (.fail sub face element expected found) = if d.subBlock k sub.toNat
      then ((d.proofRan k (l - d.liftFirst k.p k.e) b).markFace f b face).proofFail k (l - d.liftFirst k.p k.e) b sub.toNat face
        element.toNat expected.toNat found.toNat
      else d := by
  have ho := Dev.proofEnds_outcome hp ht f (.fail sub face element expected found)
  generalize d.proofEnds f b (.fail sub face element expected found) = e at ho ⊢
  cases ho with
  | poisoned _ line h' => exact absurd (h'.symm.trans h) (by simp)
  | fail _ _ _ _ _ _ hs => rw [if_pos hs]
  | notRun _ _ _ _ _ _ hs => rw [if_neg (by simp [hs])]

end

theorem exec_proofBlock_live {s : State} (hl : s.dev.live = true) (b : Fin 96) (r : ProofResult) :
    exec (.proofBlock b r) s = .next { s with dev := s.dev.proofEnds s.fuses b r } :=
  onDieFused_live (fun f d => d.proofEnds f b r) hl

end Sys2Proof.Machine

open Sys2Proof Sys2Proof.Machine

/-- Settles O36: a poisoned image decides before the words do, and of a clean one the result. -/
theorem proofBlocksEnd : Obligations.ProofBlocksEnd := by
  unfold Obligations.ProofBlocksEnd
  refine fun s b r k step a l hl hp ht => ⟨s.dev.bench_proofRan k _ b, ?cursor, fun line h => ?poisoned, fun h =>
    ⟨?pass, fun addr => ?inconclusive, fun sub face element expected found => ⟨fun hs => ?fail, fun hs => ?notRun⟩⟩⟩
  case cursor => exact congrArg Cursor.proof (s.dev.cursor_proofRan k _ b)
  case poisoned => rw [exec_proofBlock_live hl, Dev.proofEnds_poisoned hp ht _ _ h]; rfl
  case pass => rw [exec_proofBlock_live hl, Dev.proofEnds_pass hp ht _ h]; rfl
  case inconclusive => rw [exec_proofBlock_live hl, Dev.proofEnds_inconclusive hp ht _ h]
  case fail => rw [exec_proofBlock_live hl, Dev.proofEnds_fail hp ht _ h, if_pos hs]; rfl
  case notRun => rw [exec_proofBlock_live hl, Dev.proofEnds_fail hp ht _ h, if_neg (by simp [hs])]
end

section
/-! SUPPORT. The state after reset: what its empty tables read. -/

namespace Sys2Proof.Machine

/-- The fuses of a module as it is made are legal. -/
theorem Fuses.made_legal : Fuses.made.Legal := ⟨by decide, by decide, by decide, by decide, rfl⟩

/-- No partition of the module after reset holds anything. -/
theorem Dev.reset_pState (p : Fin 4) : Dev.reset.pState p = psEmpty := by
  revert p
  decide

theorem Dev.reset_memByte (a : Nat) : Dev.reset.memByte a = 0#8 := SMap.get_nil _ (Dev.reset.byteKey a)

end Sys2Proof.Machine

open Sys2Proof Sys2Proof.Machine

/-- Settles O8: the entries that differ from their defaults are read, and every table is empty. -/
theorem resetState : Obligations.ResetState := by
  unfold Obligations.ResetState
  refine ⟨Fuses.made_legal, rfl, by decide, Dev.reset_pState, fun k u => ?cursor, fun t => SMap.get_nil _ _,
    reset_memory_wf.1, Dev.reset_memByte, fun b => SMap.get_nil _ _, rfl, rfl⟩
  case cursor => exact congrArg Cursor.state (SMap.get_nil Cursor.idle _)
end

section
/-! SUPPORT. Writes that reset, repair, test, install, attest and unlock: what the dictionary applies at each entry. -/

namespace Sys2Proof.Machine

section
variable (d : Dev) (f : Fuses) (bs : List Byte)

/-! Resets and benches (R118, R438 to R444). -/

theorem resetReqBits_lt (x : ResetReq) : resetReqBits x < 2 ^ 32 := pack_lt _

theorem Dev.applyUnit_resetRequest (x : ResetReq) :
    d.applyUnit f 0x2020 1 (toBytes (resetReqBits x) 4) = d.requestReset (resetReqBits x) := by
  have hv : ofBytes (toBytes (resetReqBits x) 4) = resetReqBits x := by
    rw [ofBytes_toBytes]
    exact Nat.mod_eq_of_lt (resetReqBits_lt x)
  calc d.applyUnit f 0x2020 1 (toBytes (resetReqBits x) 4)
      = d.requestReset (ofBytes (toBytes (resetReqBits x) 4)) := rfl
    _ = d.requestReset (resetReqBits x) := by rw [hv]

theorem Dev.applyUnit_benchUnfence : d.applyUnit f 0x6104 3 bs = d.unfence (ofBytes bs) := rfl

/-! Stacks (R261, R269, R270). -/

theorem Dev.applyUnit_retrainRequest (n : Fin 12) : d.applyUnit f (0x4010 + n) 6 bs = d.retrain (12 * ofBytes bs + n) := by
  simp (disch := omega) only [Dev.applyUnit, among_iff, if_true, if_neg, if_pos, Nat.add_sub_cancel_left]

theorem Dev.applyUnit_reliefClear (n : Fin 12) : d.applyUnit f (0x4010 + n) 7 bs = d.reliefClear n := by
  simp (disch := omega) only [Dev.applyUnit, among_iff, if_neg, if_pos, Nat.add_sub_cancel_left]

theorem Dev.applyUnit_tgCtrl (n : Fin 12) :
    d.applyUnit f (0x4300 + n) 5 bs = if ofBytes bs = 1 then d.tgStart n else d.tgStop n := by
  simp (disch := omega) only [Dev.applyUnit, Dev.writeTg, among_iff, if_true, if_neg, if_pos, Nat.add_sub_cancel_left]

/-! Recovery (R420, R434, R447). -/

theorem Dev.applyUnit_faultLogClear : d.applyUnit f 0xA000 6 bs = d.clearLog := rfl

theorem Dev.applyUnit_captureRequest : d.applyUnit f 0xA010 6 bs = d.capture 0 0 0xFF 0 := rfl

theorem Dev.applyUnit_retainedAdopt (p : Fin 4) : d.applyUnit f (0xA020 + p) 2 bs = d.adopt p := by
  simp (disch := omega) only [Dev.applyUnit, among_iff, if_neg, if_pos, Nat.add_sub_cancel_left]

/-! Firmware, attestation and tokens (R506, R507, R510, R513, R515). -/

theorem Dev.applyUnit_firmware (j : Nat) : d.applyUnit f 0x8010 j bs = d.writeFirmware f j bs := by
  simp [Dev.applyUnit, among_iff, Dev.applyModule]

theorem Dev.applyUnit_fwStageData : d.applyUnit f 0x8010 5 bs = d.stageData bs := by
  simp [Dev.applyUnit_firmware, Dev.writeFirmware]

theorem Dev.applyUnit_fwStageFrom : d.applyUnit f 0x8010 6 bs = d.stageFrom (ofBytes bs) := by
  simp [Dev.applyUnit_firmware, Dev.writeFirmware]

theorem Dev.applyUnit_fwInstall : d.applyUnit f 0x8010 7 bs = d.install f := by
  simp [Dev.applyUnit_firmware, Dev.writeFirmware]

theorem Dev.applyUnit_attestNonce : d.applyUnit f 0x8020 1 bs = d.attest f (ofBytes bs) := rfl

theorem Dev.applyUnit_refuseToken : d.applyUnit f 0x8030 3 bs = d.armToken bs := rfl

theorem Dev.applyUnit_debugToken : d.applyUnit f 0x8030 5 bs = d.unlockDebug bs := rfl

end

section
variable {s : State} {c : Instr} {o : Origin}

/-- A reset of any domain is a write of RESET_REQUEST. -/
theorem State.applies_resetRequest (x : ResetReq)
    (he : exec c s = writeBytes o kResetRequest (toBytes (resetReqBits x) 4) s) :
    s.Applies c o kResetRequest (toBytes (resetReqBits x) 4) (fun d => d.requestReset (resetReqBits x)) :=
  State.applies_entry (by omega) (by omega) he fun d => d.applyUnit_resetRequest _ x

/-- The firmware's entries but for FW_CONFIRM, which alone blows fuses. -/
theorem State.applies_firmware {j : Nat} {bs : List Byte} {eff : Dev → Dev} (hj : j < 10)
    (he : exec c s = writeBytes o (key 0x8010 j) bs s) (ha : ∀ d : Dev, d.applyUnit s.fuses 0x8010 j bs = eff d) :
    s.Applies c o (key 0x8010 j) bs eff :=
  have hm : key 0x8010 j % 256 = j := key_mod _ (by omega)
  State.applies_of he (by omega) (by rw [key_div _ (by omega), hm]; exact ha _)

end

end Sys2Proof.Machine

open Sys2Proof Sys2Proof.Machine

/-- Settles O16: each row writes its entry, and the dictionary applies there what the statement names. -/
theorem recoveryAndFirmwareWrites : Obligations.RecoveryAndFirmwareWrites := by
  unfold Obligations.RecoveryAndFirmwareWrites
  intro s o
  refine ⟨fun k => State.applies_resetRequest _ rfl, fun p e c => State.applies_resetRequest _ rfl,
    fun p => State.applies_resetRequest _ rfl, fun w hw => ?moduleReset, fun v => ?unfence, fun n v => ?retrain,
    fun n v => ?reliefClear, fun n => ?tgStart, fun n => ?tgStop, fun v => ?clearLog, fun v => ?capture, fun p v => ?adopt,
    fun data => ?stageData, fun v => ?stageFrom, fun v => ?install, fun v => ?nonce, fun data => ?refuse, fun data => ?debug⟩
  case moduleReset => subst hw; exact State.applies_resetRequest _ rfl
  case unfence =>
    exact State.applies_entry (by omega) (by omega) rfl fun d => by
      rw [d.applyUnit_benchUnfence, ofBytes_toBytes_toNat v rfl]
  case retrain =>
    exact State.applies_entry (by omega) (by omega) rfl fun d => by
      rw [d.applyUnit_retrainRequest, ofBytes_toBytes_toNat v rfl]
  case reliefClear => exact State.applies_entry (by omega) (by omega) rfl fun d => d.applyUnit_reliefClear _ _ n
  case tgStart => exact State.applies_entry (by omega) (by omega) rfl fun d => by rw [d.applyUnit_tgCtrl, if_pos (by decide)]
  case tgStop => exact State.applies_entry (by omega) (by omega) rfl fun d => by rw [d.applyUnit_tgCtrl, if_neg (by decide)]
  case clearLog => exact State.applies_entry (by omega) (by omega) rfl fun d => d.applyUnit_faultLogClear _ _
  case capture => exact State.applies_entry (by omega) (by omega) rfl fun d => d.applyUnit_captureRequest _ _
  case adopt => exact State.applies_entry (by omega) (by omega) rfl fun d => d.applyUnit_retainedAdopt _ _ p
  case stageData => exact State.applies_firmware (by omega) rfl fun d => d.applyUnit_fwStageData _ _
  case stageFrom =>
    exact State.applies_firmware (by omega) rfl fun d => by rw [d.applyUnit_fwStageFrom, ofBytes_toBytes_toNat v rfl]
  case install => exact State.applies_firmware (by omega) rfl fun d => d.applyUnit_fwInstall _ _
  case nonce =>
    exact State.applies_entry (by omega) (by omega) rfl fun d => by
      rw [d.applyUnit_attestNonce, ofBytes_toBytes_toNat v (by decide)]
  case refuse => exact State.applies_entry (by omega) (by omega) rfl fun d => d.applyUnit_refuseToken _ _
  case debug => exact State.applies_entry (by omega) (by omega) rfl fun d => d.applyUnit_debugToken _ _
end

section
/-! SUPPORT. Commands beside the queue and without power: whatever a meaning does, a guard on the module lets it happen, it sees
the fuses and the module alone, and it puts back the queue as it was. -/

namespace Sys2Proof.Machine

/-- Every lift of a meaning in one form: where the guard lets it, the module and its fuses change, and nothing else. -/
def guarded (g : Dev → Bool) (F : Fuses → Dev → Fuses × Dev) (s : State) : Host.Outcome State Fault Refusal :=
  .next (if g s.dev then { s with fuses := (F s.fuses s.dev).1, dev := (F s.fuses s.dev).2 } else s)

theorem guarded_queue {g : Dev → Bool} {F : Fuses → Dev → Fuses × Dev} {s t : State} (h : guarded g F s = .next t) :
    t.pending = s.pending ∧ ∀ q, guarded g F { s with pending := q } = .next { t with pending := q } := by
  unfold guarded at h ⊢
  cases h
  cases hg : g s.dev <;> simp [hg]

theorem guarded_closed {g : Dev → Bool} (F : Fuses → Dev → Fuses × Dev) {s : State} (h : g s.dev = false) :
    guarded g F s = .next s := by
  simp [guarded, h]

theorem onDie_guarded (f : Dev → Dev) : onDie f = guarded Dev.live (fun fs d => (fs, f d)) := rfl

/-- A module that lives is powered; so no guard of a lift lets a meaning act without power. -/
def NeedsPower (g : Dev → Bool) : Prop := ∀ d : Dev, d.powered = false → g d = false

theorem needsPower_powered : NeedsPower Dev.powered := fun _ h => h

theorem needsPower_live : NeedsPower Dev.live := fun _ => Dev.not_live_of_off

/-- What a command can do: a guarded change that needs power, a power-up, or an access that faults beyond the last position. -/
inductive Meaning (c : Instr) : Prop where
  | guarded (g : Dev → Bool) (F : Fuses → Dev → Fuses × Dev) (hg : NeedsPower g) (h : ∀ s, exec c s = guarded g F s)
  | power (x : BitVec 4) (h : c = .powerUp x)
  | access (pos : Nat) (f : Dev → Dev)
      (h : ∀ s, exec c s = if positions ≤ pos then .fault .noSuchPosition else onDie f s)

theorem Meaning.of_all {c : Instr} {F : Fuses → Dev → Fuses × Dev} (h : ∀ s, exec c s = onAll F s) : Meaning c :=
  .guarded Dev.powered F needsPower_powered h

theorem exec_meaning (c : Instr) : Meaning c := by
  cases exec_shape c with
  | dev f h => exact .guarded Dev.powered (fun fs d => (fs, f d)) needsPower_powered h
  | fused f h => exact .guarded Dev.powered (fun fs d => (fs, f fs d)) needsPower_powered h
  | die f h => exact .guarded Dev.live (fun fs d => (fs, f d)) needsPower_live h
  | dieFused f h => exact .guarded Dev.live (fun fs d => (fs, f fs d)) needsPower_live h
  | write o k bs h => exact .of_all h
  | request o rq w hw h => exact .of_all h
  | writeSeg o x g l bs h => subst h; exact .of_all (exec_writeSeg o x g l bs)
  | reset h => subst h; exact .of_all (F := Dev.resetDone) fun _ => rfl
  | power x h => exact .power x h
  | access pos f h => exact .access pos f h

theorem powerUp_guarded (x : BitVec 4) :
    exec (.powerUp x) = guarded (fun _ => true) (fun fs d => (fs, d.powerUp x.toNat)) := rfl

end Sys2Proof.Machine

open Sys2Proof Sys2Proof.Machine

/-- Settles O1: a step on a queue with a command at its front takes it. -/
theorem stepRunsFront : Obligations.StepRunsFront := by
  unfold Obligations.StepRunsFront
  intro c q s
  exact step_front (s := { s with pending := c :: q }) rfl

/-- Settles O3: a guarded change leaves the queue alone, and a power-up is one without a guard. -/
theorem queueUntouched : Obligations.QueueUntouched := by
  unfold Obligations.QueueUntouched
  intro c s t h
  cases exec_meaning c with
  | guarded g F _ hc =>
    rw [hc] at h
    exact ⟨(guarded_queue h).1, fun q => (hc _).trans ((guarded_queue h).2 q)⟩
  | power x hc =>
    subst hc
    rw [powerUp_guarded] at h ⊢
    exact guarded_queue h
  | access pos f hc =>
    simp only [hc] at h ⊢
    by_cases hp : positions ≤ pos
    · simp [hp] at h
    · simp only [if_neg hp, onDie_guarded] at h ⊢
      exact guarded_queue h

/-- Settles O4: without power no guard is open, but that of POWER_UP. -/
theorem noPowerNoEffect : Obligations.NoPowerNoEffect := by
  unfold Obligations.NoPowerNoEffect
  intro c s hoff hc
  cases exec_meaning c with
  | guarded g F hg h => exact .inl ((h s).trans (guarded_closed F (hg _ hoff)))
  | power x h => exact absurd h (hc x)
  | access pos f h =>
    rw [h]
    by_cases hp : positions ≤ pos
    · exact .inr (if_pos hp)
    · exact .inl ((if_neg hp).trans (onDie_dead f (Dev.not_live_of_off hoff)))
end

section
/-! SUPPORT. The dictionary's services: a request that is executed is answered with what its work replies, what a transfer that opens
leaves alone, and the segments that carry a value. -/

namespace Sys2Proof.Machine

/-! A request that is executed. -/

section
variable {s : State} {o : Origin} {rq : DictReq}

/-- The row of a service, where its request is executed, is what its work does to the module the request has reached. -/
theorem onAll_executed (h : Executed s o rq) {work : Fuses → Dev → DictReply × Fuses × Dev} {r : DictReply} {f : Fuses} {d : Dev}
    (hw : work s.fuses (s.dev.receive o rq) = (r, f, d)) :
    onAll (fun f d => d.serveReq f o rq (work f)) s = .next { s with fuses := f, dev := d.answerReq o rq r } := by
  obtain ⟨hp, hs, hf⟩ := h
  rw [onAll_powered _ hp]
  simp [Dev.serveReq, hs, hf, hw]

end

/-! Transfers that open. -/

/-- A module that a request has reached: what transfers are open, and all that the service itself does not keep, as it was. -/
structure Dev.Reached (d e : Dev) : Prop where
  transfers : e.mgmt.transfers = d.mgmt.transfers
  nextTransfer : e.mgmt.nextTransfer = d.mgmt.nextTransfer
  time : e.time = d.time
  units : e.units = d.units
  gets : ∀ k, k / 256 ≠ 0x9038 → e.get k = d.get k

theorem Dev.reached_receive (d : Dev) (o : Origin) (rq : DictReq) : d.Reached (d.receive o rq) where
  transfers := by cases o with | clelliul => rfl | mailbox => simp only [Dev.receive]; split <;> rfl
  nextTransfer := by cases o with | clelliul => rfl | mailbox => simp only [Dev.receive]; split <;> rfl
  time := d.receive_time o rq
  units := d.units_receive o rq
  gets _ hk := d.get_receive o rq hk

theorem Dev.msix_transfers (d : Dev) (v : Nat) : (d.msix v).mgmt.transfers = d.mgmt.transfers := by
  unfold Dev.msix; split <;> rfl

theorem Dev.sendT1s_transfers (d : Dev) (c : Client) (h : Nat) (bs : List Byte) :
    (d.sendT1s c h bs).mgmt.transfers = d.mgmt.transfers := by
  unfold Dev.sendT1s; split <;> rfl

/-- An answer opens and closes no transfer. -/
theorem Dev.answerReq_transfers (d : Dev) (o : Origin) (rq : DictReq) (r : DictReply) :
    (d.answerReq o rq r).mgmt.transfers = d.mgmt.transfers := by
  cases o with
  | clelliul => simp only [Dev.answerReq, Dev.sendAnswer, Dev.sendT1s_transfers]; split <;> rfl
  | mailbox => simp only [Dev.answerReq, Dev.mbxDone, Dev.msix_transfers]; split <;> rfl

/-- A transfer that opens takes the next identifier and the time, and is all that changes beside the answer (R470, R471). -/
theorem Dev.Reached.opens {d e : Dev} (h : d.Reached e) (t : Transfer) (o : Origin) (rq : DictReq) (r : DictReply) :
    let a := (e.openTransfer t).2.answerReq o rq r
    a.mgmt.transfers = d.mgmt.transfers ++ [{ t with id := d.mgmt.nextTransfer, heard := d.time }] ∧ a.units = d.units ∧
      ∀ k, k / 256 ≠ 0x9038 → a.get k = d.get k := by
  refine ⟨?_, (Dev.units_answerReq ..).trans h.units, fun k hk => (Dev.get_answerReq _ o rq r hk).trans (h.gets k hk)⟩
  rw [Dev.answerReq_transfers, ← h.transfers, ← h.nextTransfer, ← h.time]
  rfl

/-! What the checks of an opening read: never the length and the CRC that the mailbox shows of a transfer. -/

/-- MBX_XFER as the opening of a transfer writes it. -/
def Dev.withXfer (d : Dev) (x : Nat) : Dev := { d with mgmt := { d.mgmt with mbxXfer := x } }

section
variable (d : Dev) (f : Fuses) (host : Bool) (i j n x : Nat)

theorem Dev.formRefused_withXfer : (d.withXfer x).formRefused host i j n = d.formRefused host i j n := rfl

theorem Dev.gateRefused_withXfer (g : Gate) : (d.withXfer x).gateRefused g = d.gateRefused g := by cases g <;> rfl

theorem Dev.moduleRules_withXfer : (d.withXfer x).moduleRules f i j none = d.moduleRules f i j none := by
  simp only [Dev.moduleRules, Option.map_none, Option.bind_none]
  rfl

theorem Dev.unitRules_withXfer : (d.withXfer x).unitRules f i j none = d.unitRules f i j none := by
  unfold Dev.unitRules
  rw [Dev.moduleRules_withXfer]
  rfl

theorem Dev.openRefused_withXfer : (d.withXfer x).openRefused f host i j n = d.openRefused f host i j n := by
  unfold Dev.openRefused Dev.stateRefused
  rw [Dev.unitRules_withXfer, Dev.formRefused_withXfer, Dev.gateRefused_withXfer]
  rfl

end

theorem Dev.Reached.withXfer {d e : Dev} (h : d.Reached e) (x : Nat) : d.Reached (e.withXfer x) :=
  ⟨h.transfers, h.nextTransfer, h.time, h.units, h.gets⟩

/-! READ (R470). -/

section
variable {f : Fuses} {o : Origin} {i j : Nat} {d : Dev}

theorem Dev.workRead_refused {code : Nat} (h : d.readRefused i j = some code) :
    Dev.workRead f o i j d = (replyAbort code, f, d) := by
  simp [Dev.workRead, h]

theorem Dev.workRead_whole (h : d.readRefused i j = none) (hl : (d.valueOf f i j).length ≤ messageBytes o) :
    Dev.workRead f o i j d = (replyWith (d.valueOf f i j), f, d) := by
  simp [Dev.workRead, h, hl]

theorem Dev.workRead_busy (h : d.readRefused i j = none) (hl : messageBytes o < (d.valueOf f i j).length)
    (hb : d.buffersFull (ownerOf o) = true) : Dev.workRead f o i j d = (replyAbort d.abTransferBusy, f, d) := by
  simp [Dev.workRead, h, Nat.not_le.mpr hl, hb]

/-- The transfer that a READ opens of a value. -/
def readTransfer (o : Origin) (i j : Nat) (v : List Byte) : Transfer := newTransfer o false i j v v.length (crc32 v)

theorem Dev.workRead_opens (h : d.readRefused i j = none) (hl : messageBytes o < (d.valueOf f i j).length)
    (hb : d.buffersFull (ownerOf o) = false) : ∃ r, Dev.workRead f o i j d =
      (r, f, (d.openTransfer (readTransfer o i j (d.valueOf f i j))).2) := by
  simp [Dev.workRead, h, Nat.not_le.mpr hl, hb, readTransfer]

end

/-! The segments of a read (R470). -/

/-- Pieces of `m` bytes, one after another, are the bytes up to the end of the last. -/
theorem flatMap_pieces {α : Type} (l : List α) (m n : Nat) :
    (List.range n).flatMap (fun k => (l.drop (m * k)).take m) = l.take (m * n) := by
  induction n with
  | zero => simp
  | succ n ih => simp [List.range_succ, ih, Nat.mul_succ, List.take_add]

/-- By the mailbox, segments of 64 KiB make up the value. -/
theorem flatMap_segPart_mailbox (t : Transfer) (h : t.length = t.data.length) :
    (List.range (segCount .mailbox false t.length)).flatMap (segPart .mailbox t) = t.data := by
  have hn : segCount .mailbox false t.length = (t.data.length + 65535) / 65536 := by simp [segCount, viaHost, messageBytes, h]
  rw [hn, show segPart .mailbox t = fun k => (t.data.drop (65536 * k)).take 65536 from rfl, flatMap_pieces]
  exact List.take_of_length_le (by omega)

section
variable (c : Client) (magic : Byte) (version kind : BitVec 4) (seq : BitVec 16) (short : Bool) (t : Transfer)

/-- By Clelliul, the first segment has its CRC and 1,020 bytes of the value, every later one 1,024. -/
theorem flatMap_segPart_clelliul (h : t.length = t.data.length) :
    (List.range (segCount (.clelliul c magic version kind seq short) false t.length)).flatMap
      (segPart (.clelliul c magic version kind seq short) t) = toBytes t.crc 4 ++ t.data := by
  obtain ⟨n, hn, hlast⟩ : ∃ n, segCount (.clelliul c magic version kind seq short) false t.length = n + 1 ∧
      t.data.length ≤ 1020 + 1024 * n := by
    refine ⟨(t.data.length + 1027) / 1024 - 1, ?_, by omega⟩
    simp only [segCount, viaHost, messageBytes, h, Bool.or_self, Bool.false_eq_true, if_false]
    omega
  have hlater : ∀ k, segPart (.clelliul c magic version kind seq short) t (k + 1) =
      ((t.data.drop 1020).drop (1024 * k)).take 1024 := fun k => by
    rw [List.drop_drop]; simp [segPart]
  rw [hn, List.range_succ_eq_map, List.flatMap_cons, List.flatMap_map]
  simp only [hlater, flatMap_pieces]
  have hrest : (t.data.drop 1020).take (1024 * n) = t.data.drop 1020 :=
    List.take_of_length_le (by rw [List.length_drop]; omega)
  rw [hrest, show segPart (.clelliul c magic version kind seq short) t 0 = toBytes t.crc 4 ++ t.data.take 1020 from rfl,
    List.append_assoc, List.take_append_drop]

end

/-! Transfers at work (R470 to R472). -/

section
variable {f : Fuses} {o : Origin} {id n : Nat} {d : Dev} {t : Transfer} (ht : d.transferOf (ownerOf o) id = some t)
include ht

theorem Dev.workReadSeg_part (hw : t.write = false) (hn : n < segCount o false t.length) : Dev.workReadSeg f o id n d =
    ({ replyWith (segPart o t n) with last := decide (n + 1 = segCount o false t.length) }, f,
      d.putTransfer { t with heard := d.time }) := by
  simp [Dev.workReadSeg, ht, hw, Nat.not_le.mpr hn]

/-- A write transfer with one more segment held. -/
def Transfer.holding (t : Transfer) (time n : Nat) (last : Bool) (bs : List Byte) : Transfer :=
  { t with heard := time, got := NSet.add t.got n, segs := SMap.set [] t.segs n bs
           lastSeg := if last then some n else t.lastSeg }

section
variable {last : Bool} {bs : List Byte} (hw : t.write = true) (hn : n < segCount o true t.length)
include hw hn

theorem Dev.workWriteSeg_held (h : (t.holding d.time n last bs).whole = none) :
    Dev.workWriteSeg f o id n last bs d = (replyWith [], f, d.putTransfer (t.holding d.time n last bs)) := by
  unfold Transfer.holding at h ⊢
  simp only [Dev.workWriteSeg, ht, if_neg (ne_false_of_eq_true hw), if_neg (Nat.not_le.mpr hn), h]

theorem Dev.workWriteSeg_whole {v : List Byte} (h : (t.holding d.time n last bs).whole = some v) :
    Dev.workWriteSeg f o id n last bs d =
      (d.putTransfer (t.holding d.time n last bs)).finishWrite f o (t.holding d.time n last bs) v := by
  unfold Transfer.holding at h ⊢
  simp only [Dev.workWriteSeg, ht, if_neg (ne_false_of_eq_true hw), if_neg (Nat.not_le.mpr hn), h]

end

theorem Dev.workEnd_closes : Dev.workEnd f o id d = (replyWith [], f, d.closeTransfer t.id) := by
  simp [Dev.workEnd, ht]

end

/-- A value with the length and the CRC of its opening, that R459 accepts, is applied and its transfer closed (log 59). -/
theorem Dev.finishWrite_accepted {d : Dev} {f : Fuses} {o : Origin} {t : Transfer} {v : List Byte} (hl : v.length = t.length)
    (hc : crc32 v = t.crc) (hr : d.writeRefused f (viaHost o) t.index t.subindex v = none) : d.finishWrite f o t v =
      (replyWith [], (d.applyWrite f t.index t.subindex v).1, (d.applyWrite f t.index t.subindex v).2.closeTransfer t.id) := by
  simp [Dev.finishWrite, hl, hc, Dev.write, hr]

/-- The module as an opening finds it: by the mailbox, MBX_XFER has been written (R477). -/
def Dev.initOn (d : Dev) (o : Origin) (x : Nat) : Dev := if viaHost o then d.withXfer x else d

section
variable {d : Dev} (o : Origin) (x : Nat)

theorem Dev.Reached.initOn {e : Dev} (h : d.Reached e) : d.Reached (e.initOn o x) := by
  unfold Dev.initOn
  split
  · exact h.withXfer x
  · exact h

theorem Dev.openRefused_initOn (f : Fuses) (host : Bool) (i j n : Nat) :
    (d.initOn o x).openRefused f host i j n = d.openRefused f host i j n := by
  unfold Dev.initOn
  split
  · exact d.openRefused_withXfer f host i j n x
  · rfl

theorem Dev.buffersFull_initOn (c : Option Client) : (d.initOn o x).buffersFull c = d.buffersFull c := by
  unfold Dev.initOn
  split
  · cases c <;> rfl
  · rfl

theorem Dev.transfers_initOn : (d.initOn o x).mgmt.transfers = d.mgmt.transfers := by
  unfold Dev.initOn
  split <;> rfl

end

/-- An opening that the early checks accept, with a buffer free and no other write at work on the entry (R471, R472). -/
theorem Dev.workInit_opens {f : Fuses} {o : Origin} {i j length crc : Nat} {d : Dev}
    (hr : d.openRefused f (viaHost o) i j length = none) (hb : d.buffersFull (ownerOf o) = false)
    (ht : d.mgmt.transfers.any (fun t => t.write && decide (t.index = i ∧ t.subindex = j)) = false) :
    let e := d.initOn o (pack [(32, crc), (32, length)])
    Dev.workInit f o i j length crc d =
      ({ replyWith [] with transfer := e.mgmt.nextTransfer }, f, (e.openTransfer (newTransfer o true i j [] length crc)).2) := by
  intro e
  have hr' : e.openRefused f (viaHost o) i j length = none := (d.openRefused_initOn ..).trans hr
  have hb' : e.buffersFull (ownerOf o) = false := (d.buffersFull_initOn ..).trans hb
  have ht' : e.mgmt.transfers.any (fun t => t.write && decide (t.index = i ∧ t.subindex = j)) = false := by
    rw [Dev.transfers_initOn, ht]
  simp only [e, Dev.initOn, Dev.withXfer] at hr' hb' ht' ⊢
  simp only [Dev.workInit, hr', hb', ht', Bool.false_eq_true, or_self, if_false]
  rfl

theorem Dev.workDescribe_described {f : Fuses} {i j : Nat} {d : Dev} (hm : d.missing i j = none) (hb : d.bootRefused i = none) :
    Dev.workDescribe f i j d = (replyWith (toBytes (d.describeBits f i j) 16), f, d) := by
  simp [Dev.workDescribe, hm, hb, firstSome]

end Sys2Proof.Machine

open Sys2Proof Sys2Proof.Machine

/-- Settles O21: READ is answered by the first of its cases that its value meets. -/
theorem readAnswers : Obligations.ReadAnswers := by
  unfold Obligations.ReadAnswers
  intro s o i j h rq d v
  have hread : ∀ {r e}, Dev.workRead s.fuses o i.toNat j.toNat d = (r, s.fuses, e) →
      exec (.read o i j) s = .next { s with dev := e.answerReq o rq r } :=
    fun hw => onAll_executed h (work := fun f => Dev.workRead f o i.toNat j.toNat) hw
  refine ⟨fun code hc => hread (Dev.workRead_refused hc), fun hr hl => hread (Dev.workRead_whole hr hl),
    fun hr hl hb => hread (Dev.workRead_busy hr hl hb), fun hr hl hb => ?_⟩
  obtain ⟨r, hw⟩ := Dev.workRead_opens hr hl hb
  obtain ⟨htransfers, hunits, hgets⟩ := (s.dev.reached_receive o rq).opens (readTransfer o i.toNat j.toNat v) o rq r
  exact ⟨_, hread hw, htransfers, hunits, rfl, hgets⟩

/-- Settles O22: the segments are pieces of the value one after another, and READ_SEG answers the one it names. -/
theorem segmentsMakeTheValue : Obligations.SegmentsMakeTheValue := by
  unfold Obligations.SegmentsMakeTheValue
  refine ⟨fun o t h => ?_, ?_⟩
  · cases o with
    | clelliul c magic version kind seq short => exact flatMap_segPart_clelliul c magic version kind seq short t h
    | mailbox => exact flatMap_segPart_mailbox t h
  · intro s o id n t rq hx ht hw hn r d
    have htime : d = (s.dev.receive o rq).putTransfer { t with heard := (s.dev.receive o rq).time } := by
      rw [Dev.receive_time]
    rw [htime]
    exact onAll_executed hx (work := fun f => Dev.workReadSeg f o id.toNat n.toNat) (Dev.workReadSeg_part ht hw hn)

/-- Settles O23: an opening adds a transfer, a segment is held, the last one has the value applied, and an end closes. -/
theorem segmentedWriteApplies : Obligations.SegmentedWriteApplies := by
  unfold Obligations.SegmentedWriteApplies
  refine ⟨?opens, ?segment, ?ends⟩
  case opens =>
    intro s o i j length crc rq d hx hr hb ht
    let x := pack [(32, crc.toNat), (32, length.toNat)]
    obtain ⟨htransfers, hunits, hgets⟩ := ((s.dev.reached_receive o rq).initOn o x).opens
      (newTransfer o true i.toNat j.toNat [] length.toNat crc.toNat) o rq
      { replyWith [] with transfer := (d.initOn o x).mgmt.nextTransfer }
    exact ⟨_, onAll_executed hx (work := fun f => Dev.workInit f o i.toNat j.toNat length.toNat crc.toNat)
      (Dev.workInit_opens hr hb ht), htransfers, hunits, rfl, hgets⟩
  case segment =>
    intro s o id n last data t rq d t' hx ht hw hn
    have hseg : ∀ {r f e}, Dev.workWriteSeg s.fuses o id.toNat n.toNat last data d = (r, f, e) →
        exec (.writeSeg o id n last data) s = .next { s with fuses := f, dev := e.answerReq o rq r } :=
      fun hw => onAll_executed hx (work := fun f => Dev.workWriteSeg f o id.toNat n.toNat last data) hw
    have hholding : t.holding d.time n.toNat last data = t' := by rw [Dev.receive_time]; rfl
    refine ⟨fun hnone => hseg ?_, fun v hv hl hc hacc => hseg ?_⟩
    · rw [← hholding] at hnone ⊢
      exact Dev.workWriteSeg_held ht hw hn hnone
    · rw [← hholding] at hv hacc ⊢
      exact (Dev.workWriteSeg_whole ht hw hn hv).trans (Dev.finishWrite_accepted hl hc hacc)
  case ends =>
    intro s o id t rq hx ht
    exact onAll_executed hx (work := fun f => Dev.workEnd f o id.toNat) (Dev.workEnd_closes ht)

/-- Settles O24: each of the three answers, and its work is the module as its request has reached it. -/
theorem descriptionsAnswer : Obligations.DescriptionsAnswer := by
  unfold Obligations.DescriptionsAnswer
  intro s o i j
  refine ⟨fun hx hm hb => ?_, fun hx => ?_, fun hx => ?_⟩
  · exact onAll_executed hx (work := fun f => Dev.workDescribe f i.toNat j.toNat) (Dev.workDescribe_described hm hb)
  · exact onAll_executed hx (work := fun f d => (replyWith (toBytes (d.nextKey i.toNat j.toNat) 4), f, d)) rfl
  · exact onAll_executed hx (work := fun f d => (replyWith (toBytes (d.identifyBits f) 48), f, d)) rfl
end

section
/-! SUPPORT. Writes of any entry, of the CONFIG area and of FW_CONFIRM: what the dictionary applies there, and what of the area is
committed. -/

namespace Sys2Proof.Machine

/-! An entry with no behaviour of its own. -/

theorem plainEntry_iff {i : Nat} : plainEntry i = true ↔
    0x6200 ≤ i ∧ i < 0x6204 ∨ 0x6330 ≤ i ∧ i < 0x6334 ∨ 0x5020 ≤ i ∧ i < 0x5024 ∨ 0x6020 ≤ i ∧ i < 0x6024 ∨
    0x4020 ≤ i ∧ i < 0x4024 ∨ 0x7030 ≤ i ∧ i < 0x7034 ∨ 0x7010 ≤ i ∧ i < 0x7014 ∨ 0x6110 ≤ i ∧ i < 0x6114 ∨ i = 0x2040 := by
  simp only [plainEntry, Bool.or_eq_true, among_iff, decide_eq_true_eq]
  omega

theorem Dev.applyUnit_plain (d : Dev) (f : Fuses) {i : Nat} (h : plainEntry i = true) (j : Nat) (bs : List Byte) :
    d.applyUnit f i j bs = d.putStored (key i j) (ofBytes bs) := by
  obtain h | h | h | h | h | h | h | h | h := plainEntry_iff.mp h <;>
    simp (disch := omega) only [Dev.applyUnit, Dev.applyModule, among_iff, if_neg]

/-- The entry is put, and the CONFIG area's own entries alone may follow (R484). -/
theorem Dev.get_putStored (d : Dev) (k v : Nat) {j : Nat} (hj : j / 256 ≠ 0x1030) :
    (d.putStored k v).get j = (d.put k v).get j := by
  unfold Dev.putStored
  split
  · exact Dev.get_stored _ hj
  · rfl

/-! The entries of the CONFIG area. -/

theorem cardOf_covers {k : Nat} {c : Card} (h : cardOf k = some c) : c ∈ cards ∧ c.covers (k / 256) = true := by
  unfold cardOf cardAt at h
  have hc := List.find?_some h
  simp only [Bool.and_eq_true] at hc
  exact ⟨List.mem_of_find?_eq_some h, hc.1.1⟩

/-- No entry of the CONFIG area is one of the area's own or a counter of the services. -/
theorem inConfig_index {k : Nat} (h : inConfig k = true) : k / 256 ≠ 0x1030 ∧ k / 256 ≠ 0x9038 := by
  have hcards : ∀ c ∈ cards, c.inConfig = true → c.covers 0x1030 = false ∧ c.covers 0x9038 = false := by decide +kernel
  unfold inConfig at h
  split at h
  · next c hc =>
    obtain ⟨hmem, hcov⟩ := cardOf_covers hc
    obtain ⟨harea, hservice⟩ := hcards c hmem h
    refine ⟨fun hk => ?_, fun hk => ?_⟩
    · rw [hk, harea] at hcov; cases hcov
    · rw [hk, hservice] at hcov; cases hcov
  · cases h

/-- What the area's entries hold is changed by no write outside it. -/
theorem Dev.configNow_put (d : Dev) {k : Nat} (v : Nat) (h : inConfig k = false) : (d.put k v).configNow = d.configNow :=
  SMap.filter_set d.dict (q := fun x => inConfig x.1) (fun _ => h) _ v

/-- The two slots of the area: that in force, their sequence numbers and their values. -/
def Dev.slots (d : Dev) : Nat × SMap Nat × SMap (SMap Nat) := (d.mgmt.confSlot, d.mgmt.confSeq, d.mgmt.confBody)

theorem Dev.slots_msix (d : Dev) (v : Nat) : (d.msix v).slots = d.slots := by unfold Dev.msix; split <;> rfl

theorem Dev.slots_sendT1s (d : Dev) (c : Client) (h : Nat) (bs : List Byte) : (d.sendT1s c h bs).slots = d.slots := by
  unfold Dev.sendT1s; split <;> rfl

theorem Dev.slots_receive (d : Dev) (o : Origin) (rq : DictReq) : (d.receive o rq).slots = d.slots := by
  cases o with
  | clelliul => rfl
  | mailbox => simp only [Dev.receive]; split <;> rfl

theorem Dev.slots_answerReq (d : Dev) (o : Origin) (rq : DictReq) (r : DictReply) : (d.answerReq o rq r).slots = d.slots := by
  cases o with
  | clelliul => simp only [Dev.answerReq, Dev.sendAnswer, Dev.slots_sendT1s]; split <;> rfl
  | mailbox => simp only [Dev.answerReq, Dev.mbxDone, Dev.slots_msix]; split <;> rfl

theorem Dev.configNow_receive (d : Dev) (o : Origin) (rq : DictReq) : (d.receive o rq).configNow = d.configNow := by
  cases o with
  | clelliul => exact d.configNow_put _ (by decide +kernel)
  | mailbox => simp only [Dev.receive]; split <;> rfl

section
variable (s : State) (o : Origin) (k : Nat) (bs : List Byte)

theorem State.slots_arrived : (s.arrived o k bs).slots = s.dev.slots := by
  unfold State.arrived; split <;> exact Dev.slots_receive ..

theorem State.configNow_arrived : (s.arrived o k bs).configNow = s.dev.configNow := by
  unfold State.arrived; split <;> exact Dev.configNow_receive ..

theorem State.units_written (d : Dev) : (s.written o k bs d).dev.units = d.units := Dev.units_answerReq ..

theorem State.get_written (d : Dev) {j : Nat} (h : j / 256 ≠ 0x9038) : (s.written o k bs d).dev.get j = d.get j :=
  Dev.get_answerReq _ _ _ _ h

theorem State.slots_written (d : Dev) : (s.written o k bs d).dev.slots = d.slots := Dev.slots_answerReq ..

end

/-! Commits (R481, R485). -/

section
variable (d : Dev)

theorem Dev.commit_slots : d.commit.mgmt.confSlot = 1 - d.mgmt.confSlot ∧
    SMap.get [] d.commit.mgmt.confBody d.commit.mgmt.confSlot = d.configNow :=
  ⟨rfl, SMap.get_set_self _ _ _ _⟩

theorem Dev.commit_state : d.commit.get kConfigState = 0 := Dev.get_put_self ..

theorem Dev.commit_seq : d.commit.get kConfigSeq = d.slotSeq d.mgmt.confSlot % 2 ^ 32 :=
  (Dev.get_put_ne _ _ (by decide)).trans (Dev.get_put_self ..)

theorem Dev.commit_hold : d.commit.get kConfigHold = d.get kConfigHold :=
  (Dev.get_put_ne _ _ (by decide)).trans ((Dev.get_put_ne _ _ (by decide)).trans (Dev.get_put_ne _ _ (by decide)))

theorem Dev.commitHeld_hold : d.commitHeld.get kConfigHold = d.get kConfigHold := by
  unfold Dev.commitHeld
  split
  · exact d.commit_hold
  · rfl

theorem Dev.units_commitHeld : d.commitHeld.units = d.units := by
  unfold Dev.commitHeld
  split <;> rfl

/-- CONFIG_HOLD set, or with nothing held, only takes its value (R484). -/
theorem Dev.writeHold_defers {v : Nat} (h : v ≠ 0 ∨ d.get kConfigState ≠ 1) : d.writeHold v = d.put kConfigHold v := by
  have hs : (d.put kConfigHold v).get kConfigState = d.get kConfigState := Dev.get_put_ne _ _ (by decide)
  unfold Dev.writeHold Dev.commitHeld
  by_cases hv : v = 0
  · rw [if_pos hv, hs, if_neg (h.resolve_left (not_not.mpr hv))]
  · rw [if_neg hv]

/-- CONFIG_HOLD cleared commits what is held (R484). -/
theorem Dev.writeHold_commits (h : d.get kConfigState = 1) : d.writeHold 0 = (d.put kConfigHold 0).commit := by
  have hs : (d.put kConfigHold 0).get kConfigState = d.get kConfigState := Dev.get_put_ne _ _ (by decide)
  unfold Dev.writeHold Dev.commitHeld
  rw [if_pos rfl, hs, if_pos h]

theorem Dev.writeHold_hold (v : Nat) : (d.writeHold v).get kConfigHold = v := by
  have hput : (d.put kConfigHold v).get kConfigHold = v := Dev.get_put_self ..
  unfold Dev.writeHold
  split
  · exact (Dev.commitHeld_hold _).trans hput
  · exact hput

theorem Dev.get_writeHold (v : Nat) {k : Nat} (h : k / 256 ≠ 0x1030) : (d.writeHold v).get k = d.get k := by
  have hput : (d.put kConfigHold v).get k = d.get k := Dev.get_put_ne _ _ (by rintro rfl; exact h (by decide))
  unfold Dev.writeHold
  split
  · exact (Dev.get_commitHeld _ h).trans hput
  · exact hput

theorem Dev.units_writeHold (v : Nat) : (d.writeHold v).units = d.units := by
  unfold Dev.writeHold
  split
  · exact Dev.units_commitHeld _
  · rfl

/-! CONFIG_DEFAULTS (R487). -/

/-- Every entry of the area at its default, before that is committed or held. -/
def Dev.atDefaults : Dev := { d with dict := SMap.keep (fun k => !inConfig k) d.dict }

theorem Dev.configDefaults_eq : d.configDefaults = d.atDefaults.stored := rfl

theorem Dev.get_atDefaults (k : Nat) : d.atDefaults.get k = if inConfig k then dfltOf k else d.get k := by
  unfold Dev.atDefaults Dev.get
  rw [SMap.get_keep]
  cases inConfig k <;> rfl

theorem Dev.configNow_atDefaults : d.atDefaults.configNow = [] := by
  have hkept : ∀ x ∈ SMap.keep (fun k => !inConfig k) d.dict, ¬ inConfig x.1 = true := fun x hx => by
    simpa using (List.mem_filter.mp hx).2
  exact List.filter_eq_nil_iff.mpr hkept

theorem Dev.stored_held (h : d.get kConfigHold = 1) : d.stored = d.put kConfigState 1 := if_pos h

theorem Dev.stored_commits (h : d.get kConfigHold ≠ 1) : d.stored = d.commit := if_neg h

theorem Dev.hold_atDefaults : d.atDefaults.get kConfigHold = d.get kConfigHold :=
  (d.get_atDefaults _).trans (if_neg (by decide +kernel))

theorem Dev.configDefaults_state : d.configDefaults.get kConfigState = if d.get kConfigHold = 1 then 1 else 0 := by
  rw [Dev.configDefaults_eq, ← d.hold_atDefaults]
  by_cases h : d.atDefaults.get kConfigHold = 1
  · rw [Dev.stored_held _ h, if_pos h, Dev.get_put_self]
  · rw [Dev.stored_commits _ h, if_neg h, Dev.commit_state]

theorem Dev.get_configDefaults {k : Nat} (h : inConfig k = true) : d.configDefaults.get k = dfltOf k := by
  rw [Dev.configDefaults_eq, Dev.get_stored _ (inConfig_index h).1, Dev.get_atDefaults, if_pos h]

theorem Dev.configDefaults_slots (h : d.get kConfigHold ≠ 1) : d.configDefaults.mgmt.confSlot = 1 - d.mgmt.confSlot ∧
    SMap.get [] d.configDefaults.mgmt.confBody d.configDefaults.mgmt.confSlot = [] := by
  obtain ⟨hslot, hbody⟩ := d.atDefaults.commit_slots
  rw [Dev.configDefaults_eq, Dev.stored_commits _ (by rwa [Dev.hold_atDefaults])]
  exact ⟨hslot, hbody.trans d.configNow_atDefaults⟩

theorem Dev.units_configDefaults : d.configDefaults.units = d.units := Dev.units_stored _

/-- Where no port was held, restoring the defaults starts none (R316). -/
theorem Dev.restoreDefaults_unheld (h : ∀ n : Fin 16, d.get (kPortDisable n) ≠ 1) : d.restoreDefaults = d.configDefaults := by
  have hround : ∀ (e : Dev), ∀ n ∈ List.range 16, (if d.get (kPortDisable n) = 1 then e.startTraining n else e) = e :=
    fun e n hn => if_neg (h ⟨n, List.mem_range.mp hn⟩)
  exact (List.foldl_ext _ (fun e _ => e) d.configDefaults hround).trans (List.foldl_fixed _)

end

section
variable (d : Dev) (f : Fuses) (bs : List Byte)

theorem Dev.applyUnit_configHold : d.applyUnit f 0x1030 3 bs = d.writeHold (ofBytes bs) := rfl

theorem Dev.applyUnit_configDefaults : d.applyUnit f 0x1030 4 bs = d.restoreDefaults := rfl

end

section
variable (s : State) (o : Origin) (v : Byte)

theorem State.applies_configHold :
    s.Applies (.configHold o v) o kConfigHold (toBytes v.toNat 1) (fun d => d.writeHold v.toNat) :=
  State.applies_entry (by omega) (by omega) rfl fun d => by rw [d.applyUnit_configHold, ofBytes_toBytes_toNat v rfl]

theorem State.applies_configDefaults :
    s.Applies (.configDefaults o v) o kConfigDefaults (toBytes v.toNat 1) Dev.restoreDefaults :=
  State.applies_entry (by omega) (by omega) rfl fun d => d.applyUnit_configDefaults _ _

end

end Sys2Proof.Machine

open Sys2Proof Sys2Proof.Machine

/-- Settles O19: the checks decide, and either the whole effect or what the refusal leaves is answered. -/
theorem entryWriteIsWhole : Obligations.EntryWriteIsWhole := by
  unfold Obligations.EntryWriteIsWhole
  intro s o i j bs
  have hdiv : key i.toNat j.toNat / 256 = i.toNat := key_div _ j.isLt
  have hmod : key i.toNat j.toNat % 256 = j.toNat := key_mod _ j.isLt
  refine ⟨fun h => ?_, fun code h hr => ?_⟩
  · have hw := writeBytes_accepted h
    rwa [hdiv, hmod] at hw
  · have hw := writeBytes_reaches h
    rw [hdiv, hmod] at hw
    refine hw.trans ?_
    simp only [Dev.workWrite, Dev.write, hr]

/-- Settles O20: such an entry is put, and committed or held where it is of the CONFIG area. -/
theorem plainEntryTakesItsValue : Obligations.PlainEntryTakesItsValue := by
  unfold Obligations.PlainEntryTakesItsValue
  intro s o i j bs hi h
  have hindex : i.toNat ≠ 0x8010 ∧ i.toNat ≠ 0x1030 ∧ i.toNat ≠ 0x9038 := by rw [plainEntry_iff] at hi; omega
  obtain ⟨hfw, harea, hservice⟩ := hindex
  have hk : key i.toNat j.toNat / 256 = i.toNat := key_div _ j.isLt
  refine ⟨_, State.applies_entry j.isLt hfw rfl (fun d => d.applyUnit_plain s.fuses hi j.toNat bs) h, ?_, rfl,
    fun k hne hka hks => ?_, ?_⟩
  · rw [State.get_written _ _ _ _ _ (by omega), Dev.get_putStored _ _ _ (by omega), Dev.get_put_self]
  · rw [State.get_written _ _ _ _ _ hks, Dev.get_putStored _ _ _ hka, Dev.get_put_ne _ _ hne, State.get_arrived _ _ _ _ hks]
  · rw [State.units_written, Dev.units_putStored, State.units_arrived]

/-- Settles O18: by the cases of what CONFIG_HOLD finds held, and of what CONFIG_DEFAULTS finds deferred. -/
theorem configCommitsAndDefaults : Obligations.ConfigCommitsAndDefaults := by
  unfold Obligations.ConfigCommitsAndDefaults
  refine ⟨fun s o v h => ?hold, fun s o v h => ?defaults⟩
  case hold =>
    let a := s.arrived o kConfigHold (toBytes v.toNat 1)
    have hstate : a.get kConfigState = s.dev.get kConfigState := s.get_arrived _ _ _ (by decide)
    have hslots : a.slots = s.dev.slots := s.slots_arrived ..
    let t := s.written o kConfigHold (toBytes v.toNat 1) (a.writeHold v.toNat)
    have hwritten : ∀ {k}, k / 256 ≠ 0x9038 → t.dev.get k = (a.writeHold v.toNat).get k := fun hk => s.get_written _ _ _ _ hk
    have hkept : t.dev.slots = (a.writeHold v.toNat).slots := s.slots_written ..
    refine ⟨t, s.applies_configHold o v h, ?hold, fun hv => ?defers, fun hv hs => ?commits, fun k hk => ?others, rfl, ?units⟩
    case hold => exact (hwritten (by decide)).trans (a.writeHold_hold _)
    case defers =>
      have hd : a.writeHold v.toNat = a.put kConfigHold v.toNat :=
        a.writeHold_defers (hv.imp (fun h e => h (BitVec.eq_of_toNat_eq e)) (fun h => hstate ▸ h))
      have hs : t.dev.slots = s.dev.slots := by rw [hkept, hd]; exact hslots
      refine ⟨?_, congrArg (fun x => x.2.2) hs, congrArg Prod.fst hs⟩
      rw [hwritten (by decide), hd, Dev.get_put_ne _ _ (by decide), hstate]
    case commits =>
      subst hv
      have hd : a.writeHold (0#8).toNat = (a.put kConfigHold 0).commit := a.writeHold_commits (hstate.trans hs)
      have hnow : (a.put kConfigHold 0).configNow = s.dev.configNow :=
        (a.configNow_put _ (by decide +kernel)).trans (s.configNow_arrived ..)
      obtain ⟨hslot, hbody⟩ := (a.put kConfigHold 0).commit_slots
      have hseq : (a.put kConfigHold 0).commit.get kConfigSeq = s.dev.slotSeq s.dev.mgmt.confSlot % 2 ^ 32 :=
        (Dev.commit_seq _).trans (congrArg (fun x => SMap.get 0 x.2.1 x.1 % 2 ^ 32) hslots)
      rw [hd] at hkept
      simp only [hd] at hwritten
      refine ⟨(hwritten (by decide)).trans (Dev.commit_state _), ?_, (hwritten (by decide)).trans hseq, ?_⟩
      · exact (congrArg Prod.fst hkept).trans (hslot.trans (congrArg (fun x => 1 - x.1) hslots))
      · exact (congrArg (fun x => SMap.get [] x.2.2 x.1) hkept).trans (hbody.trans hnow)
    case others =>
      obtain ⟨harea, hservice⟩ := inConfig_index hk
      rw [hwritten hservice, Dev.get_writeHold _ _ harea, s.get_arrived _ _ _ hservice]
    case units => exact (s.units_written ..).trans ((a.units_writeHold _).trans (s.units_arrived ..))
  case defaults =>
    intro d
    refine ⟨_, s.applies_configDefaults o v h, rfl, fun hn => ?_⟩
    have hports : ∀ n : Fin 16, d.get (kPortDisable n) ≠ 1 := fun n => by
      have hk : kPortDisable n / 256 ≠ 0x9038 := by rw [kPortDisable, key_div _ (by omega)]; omega
      rw [s.get_arrived _ _ _ hk]
      exact hn n
    have hhold : d.get kConfigHold = s.dev.get kConfigHold := s.get_arrived _ _ _ (by decide)
    have hkept : (s.written o kConfigDefaults (toBytes v.toNat 1) d.configDefaults).dev.slots = d.configDefaults.slots :=
      s.slots_written ..
    rw [d.restoreDefaults_unheld hports]
    refine ⟨fun k hk => ?_, ?_, fun hc => ?_, rfl, ?_⟩
    · rw [s.get_written _ _ _ _ (inConfig_index hk).2, d.get_configDefaults hk]
    · rw [s.get_written _ _ _ _ (by decide), d.configDefaults_state, hhold]
    · obtain ⟨hslot, hbody⟩ := d.configDefaults_slots (by rwa [hhold])
      exact ⟨(congrArg Prod.fst hkept).trans (hslot.trans (congrArg (fun x => 1 - x.1) (s.slots_arrived ..))),
        (congrArg (fun x => SMap.get [] x.2.2 x.1) hkept).trans hbody⟩
    · exact (s.units_written ..).trans (d.units_configDefaults.trans (s.units_arrived ..))
end

section
/-! SUPPORT. FW_CONFIRM: the fuses it blows, the slot it brings into force, and the other slot where its image is too old. -/

namespace Sys2Proof.Machine

section
variable (d : Dev) (f : Fuses)

/-- A confirmation before the other slot is looked at: FW_STATE is IDLE and the running slot is in force, with none pending. -/
def Dev.inForce : Dev :=
  { (d.put kFwState fwIdle) with sec := { d.sec with slotInForce := d.sec.runningSlot, pendingValid := false } }

/-- The slot that does not run. -/
def Dev.otherSlot : Bool := !d.sec.runningSlot

theorem Dev.confirm_kept (h : ¬ (imageDescOf (d.slotDesc d.otherSlot)).svn < (d.confirm f).1.svnFloor) :
    (d.confirm f).2 = d.inForce := if_neg h

theorem Dev.confirm_erased (h : (imageDescOf (d.slotDesc d.otherSlot)).svn < (d.confirm f).1.svnFloor) :
    (d.confirm f).2 = d.inForce.eraseDesc d.otherSlot := if_pos h

/-- Beside its fuses a confirmation writes FW_STATE, the boot control record and the image area alone. -/
theorem Dev.confirm_writes : ∃ images, (d.confirm f).2 = { d.inForce with sec := { d.inForce.sec with images := images } } := by
  by_cases h : (imageDescOf (d.slotDesc d.otherSlot)).svn < (d.confirm f).1.svnFloor
  · exact ⟨_, d.confirm_erased f h⟩
  · exact ⟨d.sec.images, d.confirm_kept f h⟩

theorem Dev.confirm_state : (d.confirm f).2.get kFwState = 0 := by
  obtain ⟨images, h⟩ := d.confirm_writes f
  rw [h]
  exact d.get_put_self kFwState fwIdle

theorem Dev.confirm_record : (d.confirm f).2.sec.slotInForce = d.sec.runningSlot ∧ (d.confirm f).2.sec.pendingValid = false := by
  obtain ⟨images, h⟩ := d.confirm_writes f
  rw [h]
  exact ⟨rfl, rfl⟩

theorem Dev.confirm_units (x : Security) : Dev.units { (d.confirm f).2 with sec := x } = Dev.units { d with sec := x } := by
  obtain ⟨images, h⟩ := d.confirm_writes f
  rw [h]
  rfl

theorem Dev.confirm_otherDesc (h : (imageDescOf (d.slotDesc d.otherSlot)).svn < (d.confirm f).1.svnFloor) :
    (d.confirm f).2.slotDesc d.otherSlot = (d.eraseDesc d.otherSlot).slotDesc d.otherSlot := by
  rw [d.confirm_erased f h]
  rfl

end

theorem State.sec_arrived (s : State) (o : Origin) (k : Nat) (bs : List Byte) : (s.arrived o k bs).sec = s.dev.sec := by
  unfold State.arrived; split <;> exact Dev.receive_sec ..

/-- Modules with the same units have the same units beside the security area. -/
theorem Dev.units_withSec_congr {d e : Dev} (h : e.units = d.units) (x : Security) :
    Dev.units { e with sec := x } = Dev.units { d with sec := x } :=
  congrArg (fun u => (u.1, u.2.1, u.2.2.1, u.2.2.2.1, x, u.2.2.2.2.2)) h

/-- What a slot holds is part of the image area. -/
theorem Dev.slotDesc_congr {d e : Dev} (h : e.sec = d.sec) (slot : Bool) : e.slotDesc slot = d.slotDesc slot := by
  simp only [Dev.slotDesc, Dev.slotRead, h]

theorem Dev.slotDesc_eraseDesc_congr {d e : Dev} (h : e.sec = d.sec) (slot : Bool) :
    (e.eraseDesc slot).slotDesc slot = (d.eraseDesc slot).slotDesc slot := by
  simp only [Dev.eraseDesc, Dev.slotWrite, Dev.slotDesc, Dev.slotRead, h]

/-- An accepted write of FW_CONFIRM is a confirmation of the module as the request found it. -/
theorem exec_fwConfirm_accepted {s : State} {o : Origin} {v : Byte} (h : s.Accepts o kFwConfirm (toBytes v.toNat 1)) :
    exec (.fwConfirm o v) s =
      (let r := (s.arrived o kFwConfirm (toBytes v.toNat 1)).confirm s.fuses
       .next { s.written o kFwConfirm (toBytes v.toNat 1) r.2 with fuses := r.1 }) := writeBytes_accepted h

end Sys2Proof.Machine

open Sys2Proof Sys2Proof.Machine

/-- Settles O17: the accepted write is the confirmation, and its answer leaves the security area and the units alone. -/
theorem confirmBlowsFuses : Obligations.ConfirmBlowsFuses := by
  unfold Obligations.ConfirmBlowsFuses
  intro s o v h x
  let a := s.arrived o kFwConfirm (toBytes v.toNat 1)
  have hsec : a.sec = s.dev.sec := s.sec_arrived ..
  obtain ⟨hforce, hpending⟩ := a.confirm_record s.fuses
  let t := { s.written o kFwConfirm (toBytes v.toNat 1) (a.confirm s.fuses).2 with fuses := (a.confirm s.fuses).1 }
  have htsec : t.dev.sec = (a.confirm s.fuses).2.sec := Dev.answerReq_sec ..
  have hfuses : t.fuses = { s.fuses with
      svnFloor := max s.fuses.svnFloor (min x.svnFloor 128), keysRevoked := s.fuses.keysRevoked ||| x.revoke } := by
    show (a.confirm s.fuses).1 = _
    simp only [Dev.confirm, hsec, x]
  have hother : a.otherSlot = !s.dev.sec.runningSlot := by rw [Dev.otherSlot, hsec]
  refine ⟨t, exec_fwConfirm_accepted h, hfuses, ?state, ?inForce, ?pending, fun hold => ?other, ?units⟩
  case state => exact (s.get_written _ _ _ _ (by decide)).trans (a.confirm_state _)
  case inForce => rw [htsec, hforce, hsec]
  case pending => rw [htsec, hpending]
  case other =>
    rw [← hother, ← Dev.slotDesc_congr hsec] at hold
    rw [← hother, Dev.slotDesc_congr htsec, a.confirm_otherDesc s.fuses hold, Dev.slotDesc_eraseDesc_congr hsec]
  case units =>
    have hwritten : t.dev.units = (a.confirm s.fuses).2.units := s.units_written ..
    exact (Dev.units_withSec_congr hwritten _).trans ((a.confirm_units s.fuses _).trans
      (Dev.units_withSec_congr (s.units_arrived ..) _))
end

section
/-! SUPPORT. Notices that are sent again or given up, transfers and clients that fall silent, and the T1S segment. -/

namespace Sys2Proof.Machine

/-! Notices (R473). -/

section
variable {d : Dev} {q r left sentAt : Nat}

/-- The notice as it goes to its target. -/
def Dev.resend (d : Dev) (q r : Nat) : Dev :=
  d.sendT1s (Machine.targetOf (d.get kNoticeTarget)) (clHeader 3 0x0A q 0xA000 3 128 0 0 false false) (toBytes r 128)

theorem Dev.resend_frame (q r : Nat) : (d.resend q r).time = d.time ∧ (d.resend q r).mgmt.notices = d.mgmt.notices := by
  unfold Dev.resend Dev.sendT1s
  split <;> exact ⟨rfl, rfl⟩

/-- While the module may send, the notice stands among what it has sent. -/
theorem Dev.resend_out (h : d.get kT1sState = 2) (q r : Nat) : (d.resend q r).mgmt.out = d.mgmt.out ++
    [.t1s (Machine.targetOf (d.get kNoticeTarget)) (clHeader 3 0x0A q 0xA000 3 128 0 0 false false) (toBytes r 128)] := by
  rw [Dev.resend, Dev.sendT1s, if_pos h]
  rfl

section
variable (hf : d.mgmt.notices.find? (fun x => decide (x.1 = q)) = some (q, r, left, sentAt))
  (ht : sentAt + 1000000 * d.get kNoticeRetryMs ≤ d.time)
include hf ht

theorem Dev.retryNotice_resent (hl : 0 < left) : d.retryNotice q =
    { d.resend q r with mgmt := { (d.resend q r).mgmt with
        notices := d.mgmt.notices.map (fun x => if x.1 = q then (q, r, left - 1, d.time) else x) } } := by
  obtain ⟨htime, hnotices⟩ := d.resend_frame q r
  simp only [Dev.retryNotice, hf, if_neg (Nat.not_lt.mpr ht), if_neg (Nat.pos_iff_ne_zero.mp hl)]
  rw [← Dev.resend, htime, hnotices]

theorem Dev.retryNotice_givenUp (hl : left = 0) : d.retryNotice q =
    ({ d with mgmt := { d.mgmt with notices := d.mgmt.notices.filter (fun x => decide (x.1 ≠ q)) } }).bump kNoticesDropped 1 := by
  simp only [Dev.retryNotice, hf, if_neg (Nat.not_lt.mpr ht), if_pos hl]

theorem Dev.retryNotice_units : (d.retryNotice q).units = d.units := by
  obtain hl | hl := Nat.eq_zero_or_pos left
  · rw [Dev.retryNotice_givenUp hf ht hl]
    rfl
  · rw [Dev.retryNotice_resent hf ht hl]
    exact d.units_sendT1s _ _ _

end

end

/-! Transfers that are idle (R472). -/

theorem Dev.timeoutTransfer_idle {d : Dev} {id : Nat} {t : Transfer}
    (hf : d.mgmt.transfers.find? (fun t => decide (t.id = id)) = some t) (ht : t.heard + 2000000000 ≤ d.time) :
    d.timeoutTransfer id = { (d.closeTransfer id).bump kTransferTimeouts 1 with
      mgmt := { (d.closeTransfer id).mgmt with timedOut := d.mgmt.timedOut ++ [(t.owner, id)] } } := by
  simp only [Dev.timeoutTransfer, hf, if_neg (Nat.not_lt.mpr ht)]
  rfl

/-! The rows of a powered module. -/

section
variable {s : State} (hp : s.dev.powered = true)
include hp

theorem exec_noticeRetry_powered (q : BitVec 16) :
    exec (.noticeRetry q) s = .next { s with dev := s.dev.retryNotice q.toNat } :=
  onDev_powered (fun d => d.retryNotice q.toNat) hp

theorem exec_transferTimeout_powered (id : BitVec 16) :
    exec (.transferTimeout id) s = .next { s with dev := s.dev.timeoutTransfer id.toNat } :=
  onDev_powered (fun d => d.timeoutTransfer id.toNat) hp

theorem exec_notice_answered {c : Client} (hc : c = targetOf (s.dev.get kNoticeTarget)) (q : BitVec 16) :
    exec (.notice c q) s = .next { s with dev := { s.dev with mgmt := { s.dev.mgmt with
      notices := s.dev.mgmt.notices.filter (fun x => decide (x.1 ≠ q.toNat)) } } } := by
  rw [exec, execNotice, onDev_powered _ hp, if_pos hc]

theorem exec_clientExpiry_powered (c : Client) :
    exec (.clientExpiry c) s = .next { s with dev := { s.dev with mgmt := { s.dev.mgmt with
      clients := s.dev.mgmt.clients.filter (fun x => decide (x.c ≠ c) || decide (s.dev.time < x.heard + 10000000000)) } } } := by
  rw [exec, execClientExpiry, onDev_powered _ hp]

theorem exec_clientAbort_open {c : Client} {id : BitVec 16} {x : Transfer} (hx : s.dev.transferOf (some c) id.toNat = some x) :
    exec (.clientAbort c id) s = .next { s with dev := s.dev.closeTransfer x.id } := by
  rw [exec, execClientAbort, onDev_powered _ hp]
  simp only [hx]

/-- Strap 0 is off the segment; any other node follows the beacon (R463). -/
theorem exec_beacon_powered : exec .beacon s =
    .next { s with dev := if s.dev.get kT1sNodeId = 0 then s.dev else s.dev.put kT1sState 2 } := by
  rw [exec, execBeacon, onDev_powered _ hp]

theorem exec_beaconLoss_powered : exec .beaconLoss s =
    .next { s with dev := if s.dev.get kT1sNodeId = 0 then s.dev else s.dev.put kT1sState 1 } := by
  rw [exec, execBeaconLoss, onDev_powered _ hp]

theorem exec_neighborSolicitation_answered {src target : BitVec 128}
    (h : target.toNat = s.fuses.linkLocal ∧ s.dev.get kT1sState = 2) :
    exec (.neighborSolicitation src target) s = .next { s with dev := s.dev.send (.neighborAdvert src) } := by
  rw [exec, execNeighborSolicitation, onFused_powered _ hp, if_pos h]

theorem exec_echoRequest_answered {src dst : BitVec 128} {data : List Byte}
    (h : (dst.toNat = s.fuses.linkLocal ∨ dst.toNat = allNodes) ∧ s.dev.get kT1sState = 2) :
    exec (.echoRequest src dst data) s = .next { s with dev := s.dev.send (.echoReply src data) } := by
  rw [exec, execEchoRequest, onFused_powered _ hp, if_pos h]

end

end Sys2Proof.Machine

open Sys2Proof Sys2Proof.Machine

/-- Settles O25: row by row, each in the case that its hypotheses name. -/
theorem noticesAndSegment : Obligations.NoticesAndSegment := by
  unfold Obligations.NoticesAndSegment
  refine ⟨fun s hp => ⟨fun c q hc => exec_notice_answered hp hc q, fun q r left sentAt hf ht => ?retry,
    fun id x hf ht => ?timeout, fun c => exec_clientExpiry_powered hp c, fun c id x hx => exec_clientAbort_open hp hx⟩,
    fun s hp => ?segment⟩
  case retry =>
    refine ⟨_, exec_noticeRetry_powered hp q, rfl, Dev.retryNotice_units hf ht, fun hl => ?_, fun hl => ?_⟩
    · rw [Dev.retryNotice_resent hf ht hl]
      exact ⟨rfl, fun h => Dev.resend_out h _ _⟩
    · rw [Dev.retryNotice_givenUp hf ht hl]
      exact ⟨rfl, Dev.get_bump_self ..⟩
  case timeout =>
    refine ⟨_, exec_transferTimeout_powered hp id, rfl, ?_⟩
    rw [Dev.timeoutTransfer_idle hf ht]
    exact ⟨rfl, rfl, Dev.get_bump_self ..⟩
  case segment =>
    refine ⟨fun h => ?_, fun h => ?_, fun h => ⟨?_, ?_⟩, fun src target h ha => exec_neighborSolicitation_answered hp ⟨h, ha⟩,
      fun src dst data h ha => exec_echoRequest_answered hp ⟨h, ha⟩, fun c h bs ha => if_neg ha⟩
    · rw [exec_beaconLoss_powered hp, if_neg h]
    · rw [exec_beacon_powered hp, if_neg h]
    · rw [exec_beaconLoss_powered hp, if_pos h]
    · rw [exec_beacon_powered hp, if_pos h]
end

section
/-! SUPPORT. Power-up and the PCIe reset line: what of the module outlives the application of 44 V, what of the dictionary stage 0
writes, and what the reset of the endpoint leaves alone. -/

namespace Sys2Proof.Machine

/-! Entries written one after another with one value. -/

section
variable {β : Type} (k : β → Nat) (v : Nat)

/-- Such writes change the dictionary alone. -/
theorem Dev.foldl_put_writes (l : List β) (d : Dev) : ∃ dict, l.foldl (fun d b => d.put (k b) v) d = { d with dict := dict } := by
  induction l generalizing d with
  | nil => exact ⟨d.dict, rfl⟩
  | cons b l ih =>
    obtain ⟨dict, h⟩ := ih (d.put (k b) v)
    exact ⟨dict, h⟩

theorem Dev.get_foldl_put_ne (l : List β) (d : Dev) {j : Nat} (h : ∀ b ∈ l, k b ≠ j) :
    (l.foldl (fun d b => d.put (k b) v) d).get j = d.get j := by
  induction l generalizing d with
  | nil => rfl
  | cons b l ih =>
    rw [List.forall_mem_cons] at h
    exact (ih (d.put (k b) v) h.2).trans (Dev.get_put_ne _ _ h.1.symm)

theorem Dev.get_foldl_put_kept (l : List β) {d : Dev} {j : Nat} (h : d.get j = v) :
    (l.foldl (fun d b => d.put (k b) v) d).get j = v := by
  induction l generalizing d with
  | nil => exact h
  | cons b l ih =>
    by_cases hj : j = k b
    · exact ih (by rw [hj, Dev.get_put_self])
    · exact ih (by rw [Dev.get_put_ne _ _ hj, h])

theorem Dev.get_foldl_put_mem {l : List β} (d : Dev) {b : β} (h : b ∈ l) :
    (l.foldl (fun d b => d.put (k b) v) d).get (k b) = v := by
  induction h generalizing d with
  | head l => exact Dev.get_foldl_put_kept k v l (Dev.get_put_self ..)
  | tail c _ ih => exact ih (d.put (k c) v)

end

/-! The application of 44 V (R20, R490, R491, R494). -/

section
variable (d : Dev) (straps : Nat)

/-- What power-up leaves of the module beside its dictionary. -/
def Dev.unplugged : Dev :=
  { d with
    powered := true, time := 0
    seqs := Seqs.reset, benches := { Benches.reset with unrepaired := d.benches.unrepaired }
    haul := [], haulStop := [], tallies := Tallies.reset, mem := d.powerMem, fabric := Fabric.reset
    training := Training.reset, parts := []
    faults := { Faults.reset with log := d.faults.log, captures := d.faults.captures }
    mgmt := { Mgmt.reset with
      confSlot := d.mgmt.confSlot, confSeq := d.mgmt.confSeq, confBody := d.mgmt.confBody, pcieLink := false, perst := true }
    sec := { d.sec with
      staged := false, identityLocked := false, attestLocked := false, aliasCert := [], report := [], token := none
      bootFailed := none }
    env := { Env.reset with uptime := d.env.uptime, marginal := d.env.marginal, energy := d.env.energy } }

/-- Stage 0 before the ports are seen to be dark. -/
def Dev.stageZero : Dev :=
  (((d.powerLoss.hubRails.freshChallenge).put kT1sNodeId straps).put kT1sState (if straps = 0 then 0 else 1)).put kBootStage bsRom

theorem Dev.powerUp_eq : d.powerUp straps = (List.range 16).foldl (fun d n => d.put (kPortState n) poDown) (d.stageZero straps) :=
  rfl

theorem Dev.powerUp_writes : ∃ dict draws, d.powerUp straps = { d.unplugged with dict := dict, draws := draws } := by
  obtain ⟨dict, hloss⟩ := Dev.foldl_put_writes kRelievedPc 0xFF d.mem.reliefClear
    { d.unplugged with dict := d.dict.filter (fun x => outlasts x.1) }
  have hpower : d.powerLoss = { d.unplugged with dict := dict } := hloss
  obtain ⟨dict', hports⟩ := Dev.foldl_put_writes kPortState poDown (List.range 16) (d.stageZero straps)
  refine ⟨dict', d.draws + 1, ?_⟩
  rw [Dev.powerUp_eq, hports, Dev.stageZero, hpower]
  rfl

theorem kPortState_ne {n k : Nat} (h : k / 256 ≠ 0x5010 + n) : kPortState n ≠ k := by
  rintro rfl; exact h (kPortState_div n)

theorem Dev.get_powerUp {k : Nat} (h : k / 256 < 0x5010 ∨ 0x5020 ≤ k / 256) :
    (d.powerUp straps).get k = (d.stageZero straps).get k :=
  Dev.get_foldl_put_ne kPortState poDown _ _ fun n hn => kPortState_ne (by rw [List.mem_range] at hn; omega)

theorem Dev.stageZero_entries : (d.stageZero straps).get kBootStage = 0 ∧ (d.stageZero straps).get kT1sNodeId = straps ∧
    (d.stageZero straps).get kT1sState = if straps = 0 then 0 else 1 := by
  refine ⟨Dev.get_put_self .., ?_, ?_⟩
  · exact (Dev.get_put_ne _ _ (by decide)).trans ((Dev.get_put_ne _ _ (by decide)).trans (Dev.get_put_self ..))
  · exact (Dev.get_put_ne _ _ (by decide)).trans (Dev.get_put_self ..)

theorem Dev.powerUp_portState (n : Fin 16) : (d.powerUp straps).get (kPortState n) = poDown :=
  Dev.get_foldl_put_mem kPortState poDown _ (List.mem_range.mpr n.isLt)

end

/-! PCIE_PERST_N (R496, R530). -/

/-- The endpoint reset, its BARs and its link with it; the Clelliul transfers stay. -/
def Dev.endpointReset (d : Dev) : Dev :=
  { d.put kBar2Base 0 with mgmt := { d.mgmt with
      perst := true, pcieLink := false, msixTable := [], msixPending := [], doe := [], d3hot := false, busMaster := false
      transfers := d.mgmt.transfers.filter (fun t => t.owner.isSome) } }

section
variable {s : State} (hp : s.dev.powered = true)
include hp

theorem exec_pciePerstN_powered : exec .pciePerstN s = .next { s with dev := s.dev.endpointReset } := by
  rw [exec, execPciePerstN, onDev_powered _ hp]
  rfl

theorem exec_perstRelease_powered : exec .perstRelease s = .next { s with dev := { s.dev with mgmt := { s.dev.mgmt with
    perst := false, pcieLink := if bsIdentity < s.dev.bootStage then true else s.dev.mgmt.pcieLink } } } := by
  have hstage : Dev.bootStage { s.dev with mgmt := { s.dev.mgmt with perst := false } } = s.dev.bootStage := rfl
  rw [exec, execPerstRelease, onDev_powered _ hp]
  simp only [hstage]
  split <;> rfl

end

end Sys2Proof.Machine

open Sys2Proof Sys2Proof.Machine

/-- Settles O26: power-up rebuilds the module around what the flash keeps, and stage 0 writes its entries last. -/
theorem powerUpStartsStageZero : Obligations.PowerUpStartsStageZero := by
  unfold Obligations.PowerUpStartsStageZero
  intro x s
  obtain ⟨dict, draws, h⟩ := s.dev.powerUp_writes x.toNat
  obtain ⟨hstage, hnode, hstate⟩ := s.dev.stageZero_entries x.toNat
  have hstraps : x.toNat = 0 ↔ x = 0#4 := by rw [← BitVec.toNat_inj]; rfl
  have hentries : ∀ {k}, k / 256 < 0x5010 ∨ 0x5020 ≤ k / 256 → (s.dev.powerUp x.toNat).get k = (s.dev.stageZero x.toNat).get k :=
    s.dev.get_powerUp x.toNat
  have hports := s.dev.powerUp_portState x.toNat
  have hstage' := (hentries (by decide)).trans hstage
  have hnode' := (hentries (by decide)).trans hnode
  have hstate' := (hentries (by decide)).trans hstate
  simp only [hstraps] at hstate'
  refine ⟨_, rfl, rfl, rfl, ?_⟩
  rw [h] at hports hstage' hnode' hstate' ⊢
  exact ⟨rfl, rfl, hstage', hnode', hstate', rfl, rfl, rfl, rfl, rfl, rfl, rfl, rfl, rfl, rfl, rfl, rfl, rfl, rfl, rfl, rfl, rfl,
    hports⟩

/-- Settles O28: the endpoint's own registers are written, and the link follows the boot stage. -/
theorem endpointReset : Obligations.EndpointReset := by
  unfold Obligations.EndpointReset
  intro s hp
  refine ⟨⟨_, exec_pciePerstN_powered hp, rfl, rfl, s.dev.get_put_self kBar2Base 0, fun k hk => s.dev.get_put_ne 0 hk, rfl, rfl,
    rfl, rfl, rfl, fun x => ?_⟩, exec_perstRelease_powered hp⟩
  exact List.mem_filter.trans (and_congr_right fun _ => Option.isSome_iff_ne_none)
end

section
/-! SUPPORT. The boot: what each stage leaves of chains, transfers and tallies, the stage that follows it, and stages that
overrun. -/

namespace Sys2Proof.Machine

/-! Chains, haul channels and tallies, which no stage of the boot touches. -/

def Dev.working (d : Dev) : Seqs × SMap Chan × Tallies := (d.seqs, d.haul, d.tallies)

section
variable (d : Dev)

@[simp] theorem Dev.put_working (k v : Nat) : (d.put k v).working = d.working := rfl

@[simp] theorem Dev.setRail_working (k v : Nat) : (d.setRail k v).working = d.working := rfl

@[simp] theorem Dev.enterStage_working (n : Nat) : (d.enterStage n).working = d.working := rfl

@[simp] theorem Dev.securityEvent_working (sub detail : Nat) : (d.securityEvent sub detail).working = d.working := by
  simp [Dev.securityEvent, Dev.working]

@[simp] theorem Dev.envelopeNow_working : d.envelopeNow.working = d.working := by
  unfold Dev.envelopeNow
  split <;> rfl

@[simp] theorem Dev.chooseImage_working : d.chooseImage.working = d.working := by
  unfold Dev.chooseImage
  dsimp only
  (repeat' split) <;> simp [Dev.working, Dev.securityEvent]

@[simp] theorem Dev.slotFails_working (code : Nat) : (d.slotFails code).working = d.working := by
  unfold Dev.slotFails
  dsimp only
  (repeat' split) <;> simp [Dev.working, Dev.securityEvent, Dev.enterStage]

@[simp] theorem Dev.acceptImage_working : d.acceptImage.working = d.working := rfl

@[simp] theorem Dev.verifyImage_working (f : Fuses) : (d.verifyImage f).working = d.working := by
  unfold Dev.verifyImage
  dsimp only
  (repeat' split) <;> simp [Dev.acceptImage_working, Dev.slotFails_working]

@[simp] theorem Dev.trainPcie_working : d.trainPcie.working = d.working := rfl

@[simp] theorem Dev.takeVersion_working : d.takeVersion.working = d.working := by
  unfold Dev.takeVersion
  dsimp only
  (repeat' split) <;> rfl

@[simp] theorem Dev.deriveKeys_working (f : Fuses) : (d.deriveKeys f).working = d.working := Dev.takeVersion_working _

@[simp] theorem Dev.readConfig_working : d.readConfig.working = d.working := by
  unfold Dev.readConfig
  split
  · rfl
  · have hslot : ∀ (e : Dev) m, Dev.working { e with mgmt := m } = e.working := fun _ _ => rfl
    rw [Dev.put_working, hslot]
    exact foldl_field Dev.working (fun e (x : Nat × Nat) => e.put x.1 x.2) (fun _ _ => rfl) _ d

@[simp] theorem Dev.readAreas_working : d.readAreas.working = d.working := d.readConfig_working

@[simp] theorem Dev.enableStep_working (n : Nat) : (d.enableStep n).working = d.working :=
  foldl_field Dev.working _ (fun e k => by split <;> rfl) _ d

@[simp] theorem Dev.railsEnd_working : d.railsEnd.working = d.working := by
  unfold Dev.railsEnd
  split
  · rfl
  · exact (Dev.enterStage_working ..).trans (foldl_field Dev.working
      (fun e k => if 4 ≤ k ∧ railStep k ≤ 7 then e.setRail k 2 else e) (fun e k => by split <;> rfl) _ d)

@[simp] theorem Dev.hardRepairs_working : d.hardRepairs.working = d.working :=
  foldl_field Dev.working _ (fun e key => by rw [Dev.hardRepair]; dsimp only; split <;> rfl) _ d

@[simp] theorem Dev.startPorts_working : d.startPorts.working = d.working :=
  foldl_field Dev.working _ (fun e n => by dsimp only; (repeat' split) <;> simp [Dev.working]) _ d

@[simp] theorem Dev.openPorts_working : d.openPorts.working = d.working :=
  (Dev.startPorts_working _).trans (foldl_field Dev.working _ (fun e k => by split <;> rfl) _ d)

@[simp] theorem Dev.bootDone_working : d.bootDone.working = d.working := by
  unfold Dev.bootDone
  dsimp only
  split <;> rfl

end

/-! The end of a stage, by the stage that ends (R490). -/

section
variable {d : Dev} (f : Fuses) (hs : d.env.shutAt = none)
include hs

theorem Dev.bootStageEnd_rom (h : d.get kBootStage = 0) : d.bootStageEnd f = d.chooseImage.enterStage bsImage := by
  simp [Dev.bootStageEnd, Dev.bootStage, hs, h, bsRom]

theorem Dev.bootStageEnd_image (h : d.get kBootStage = 1) : d.bootStageEnd f = d.verifyImage f := by
  simp [Dev.bootStageEnd, Dev.bootStage, hs, h, bsRom, bsImage]

theorem Dev.bootStageEnd_identity (h : d.get kBootStage = 2) :
    d.bootStageEnd f = ((d.deriveKeys f).trainPcie).enterStage bsWeighbridge := by
  simp [Dev.bootStageEnd, Dev.bootStage, hs, h, bsRom, bsImage, bsIdentity]

theorem Dev.bootStageEnd_weighbridge (h : d.get kBootStage = 3) :
    d.bootStageEnd f = (d.readAreas.enterStage bsEnvelope).envelopeNow := by
  simp [Dev.bootStageEnd, Dev.bootStage, hs, h, bsRom, bsImage, bsIdentity, bsWeighbridge]

theorem Dev.bootStageEnd_envelope (h : d.get kBootStage = 4) : d.bootStageEnd f =
    if d.outside then d.envelopeNow else ((d.enterStage bsRails).enableStep 1).envelopeNow := by
  simp [Dev.bootStageEnd, Dev.bootStage, hs, h, bsRom, bsImage, bsIdentity, bsWeighbridge, bsEnvelope]

theorem Dev.bootStageEnd_rails (h : d.get kBootStage = 5) : d.bootStageEnd f = d.railsEnd := by
  simp [Dev.bootStageEnd, Dev.bootStage, hs, h, bsRom, bsImage, bsIdentity, bsWeighbridge, bsEnvelope, bsRails]

theorem Dev.bootStageEnd_dies (h : d.get kBootStage = 6) : d.bootStageEnd f = d.enterStage bsMemory := by
  simp [Dev.bootStageEnd, Dev.bootStage, hs, h, bsRom, bsImage, bsIdentity, bsWeighbridge, bsEnvelope, bsRails, bsDies]

theorem Dev.bootStageEnd_memory (h : d.get kBootStage = 7) : d.bootStageEnd f = (d.hardRepairs.enterStage bsPorts).openPorts := by
  simp [Dev.bootStageEnd, Dev.bootStage, hs, h, bsRom, bsImage, bsIdentity, bsWeighbridge, bsEnvelope, bsRails, bsDies, bsMemory]

theorem Dev.bootStageEnd_ports (h : d.get kBootStage = 8) : d.bootStageEnd f = d.bootDone := by
  simp [Dev.bootStageEnd, Dev.bootStage, hs, h, bsRom, bsImage, bsIdentity, bsWeighbridge, bsEnvelope, bsRails, bsDies, bsMemory,
    bsPorts]

end

theorem Dev.bootStageEnd_working (d : Dev) (f : Fuses) : (d.bootStageEnd f).working = d.working := by
  unfold Dev.bootStageEnd
  dsimp only
  (repeat' split) <;> simp

/-! BOOT_STAGE, which a stage's own work leaves. -/

section
variable (d : Dev)

@[simp] theorem Dev.bootStage_enterStage (n : Nat) : (d.enterStage n).get kBootStage = n := Dev.get_put_self ..

@[simp] theorem Dev.bootStage_envelopeNow : d.envelopeNow.get kBootStage = d.get kBootStage := by
  unfold Dev.envelopeNow
  split
  · rfl
  · exact Dev.get_put_ne _ _ (by decide)

@[simp] theorem Dev.bootStage_setRail (k v : Nat) : (d.setRail k v).get kBootStage = d.get kBootStage :=
  Dev.get_put_ne _ _ (by decide)

@[simp] theorem Dev.bootStage_securityEvent (sub detail : Nat) : (d.securityEvent sub detail).get kBootStage = d.get kBootStage :=
  Dev.get_record _ _ _ _ _ (by decide) (by decide) (by decide)

theorem Dev.bootStage_setPortState {n : Nat} (hn : n < 16) (v r : Nat) :
    (d.setPortState n v r).get kBootStage = d.get kBootStage := by
  have hboot : kBootStage = 0x803001 := rfl
  have hstate : kBootStage ≠ kPortState n := by rw [hboot, kPortState, key]; omega
  have hreason : kBootStage ≠ kPortReason n := by rw [hboot, kPortReason, key]; omega
  rw [Dev.setPortState, Dev.get_put_ne _ _ hreason, Dev.get_putRaise_ne _ _ _ hstate]

@[simp] theorem Dev.bootStage_startPorts : d.startPorts.get kBootStage = d.get kBootStage := by
  refine List.foldlRecOn (motive := fun e : Dev => e.get kBootStage = d.get kBootStage) _ _ rfl fun e he n hn => ?_
  have hport := fun v r => Dev.bootStage_setPortState
    (e.setPort n { Port.fresh with trainedAt := e.time, waitFrom := e.time }) (List.mem_range.mp hn) v r
  dsimp only
  (repeat' split) <;> simp [hport, he]

theorem Dev.bootStage_setRails (p : Nat → Prop) [DecidablePred p] (v : Nat) (ks : List Nat) :
    (ks.foldl (fun e k => if p k then e.setRail k v else e) d).get kBootStage = d.get kBootStage := by
  refine foldl_field (fun e => e.get kBootStage) _ (fun e k => ?_) ks d
  split
  · exact e.bootStage_setRail k v
  · rfl

@[simp] theorem Dev.bootStage_openPorts : d.openPorts.get kBootStage = d.get kBootStage := by
  rw [Dev.openPorts, Dev.bootStage_startPorts, Dev.bootStage_setRails]

@[simp] theorem Dev.bootStage_enableStep (n : Nat) : (d.enableStep n).get kBootStage = d.get kBootStage := by
  have htime : ∀ (e : Dev) k v a, Dev.get { e.setRail k v with env := a } kBootStage = e.get kBootStage :=
    fun e k v a => (Dev.get_congr rfl _).trans (e.bootStage_setRail k v)
  unfold Dev.enableStep
  refine foldl_field (fun e => e.get kBootStage) _ (fun e k => ?_) _ d
  dsimp only
  split
  · rw [htime]
  · rfl

end

/-! The stage that follows (R490). -/

section
variable {d : Dev} (f : Fuses)

theorem Dev.verifyImage_passed (h : d.imageCheck f d.sec.bootSlot = 0) : d.verifyImage f = d.acceptImage := by
  simp [Dev.verifyImage, h]

theorem Dev.railsEnd_ready (h : ∀ k : Fin 33, d.railState k ≠ 3) : d.railsEnd.get kBootStage = bsDies := by
  have hany : (List.range 33).any (fun k => decide (d.railState k = 3)) = false := by
    rw [List.any_eq_false]
    exact fun k hk => by simpa using h ⟨k, List.mem_range.mp hk⟩
  rw [Dev.railsEnd, hany]
  exact Dev.bootStage_enterStage ..

theorem Dev.bootDone_entries : d.bootDone.get kBootStage = bsDone ∧ d.bootDone.get kModuleState = 1 := by
  have hdict : d.bootDone.dict = ((d.enterStage bsDone).put kModuleState 1).dict := by
    unfold Dev.bootDone
    dsimp only
    split <;> rfl
  rw [Dev.get_congr hdict, Dev.get_congr hdict, Dev.get_put_self, Dev.get_put_ne _ _ (by decide)]
  exact ⟨Dev.bootStage_enterStage .., rfl⟩

end

/-! Stages that overrun (R493). -/

section
variable {d : Dev}

/-- The halt of a power-up: its record, MODULE_STATE FAILED and MOD_FATAL_N low. -/
def Dev.bootHalted (d : Dev) : Dev :=
  let r := d.record noWhere 0x703 5 [(4, 0), (8, d.bootStage)]
  { (r.put kBootStage bsHalted).put kModuleState 4 with env := { r.env with fatalLow := true } }

/-- The record of a slot that fails, which is then no longer pending. -/
def Dev.slotRefused (d : Dev) (code : Nat) : Dev :=
  let r := d.securityEvent 0x0001 (256 * code + b2n d.sec.bootSlot)
  if d.sec.pendingValid ∧ d.sec.pendingSlot = d.sec.bootSlot then { r with sec := { d.sec with pendingValid := false } } else r

theorem Dev.slotRefused_writes (code : Nat) : (d.slotRefused code).mem = d.mem ∧
    (d.slotRefused code).get kBootStage = d.get kBootStage := by
  have hrecord := d.bootStage_securityEvent 1 (256 * code + b2n d.sec.bootSlot)
  unfold Dev.slotRefused
  dsimp only
  split
  · exact ⟨Dev.record_mem .., (Dev.get_congr rfl _).trans hrecord⟩
  · exact ⟨Dev.record_mem .., hrecord⟩

theorem Dev.slotFails_other (h : d.sec.bootFailed = none) (code : Nat) : d.slotFails code = { d.slotRefused code with sec :=
    { (d.slotRefused code).sec with bootSlot := !d.sec.bootSlot, bootFailed := some code } } := by
  have hsec : ∀ a b, (d.securityEvent a b).sec = d.sec := fun _ _ => Dev.record_sec ..
  by_cases hp : d.sec.pendingValid = true ∧ d.sec.pendingSlot = d.sec.bootSlot
  · simp only [Dev.slotFails, Dev.slotRefused, hsec, if_pos hp, h]
  · simp only [Dev.slotFails, Dev.slotRefused, hsec, if_neg hp, h]

theorem Dev.slotFails_recovery {c : Nat} (h : d.sec.bootFailed = some c) (code : Nat) : d.slotFails code =
    ((d.slotRefused code).securityEvent 0x0002 (if d.sec.bootSlot then 256 * c + code else 256 * code + c)).enterStage
      bsRecovery := by
  have hsec : ∀ a b, (d.securityEvent a b).sec = d.sec := fun _ _ => Dev.record_sec ..
  by_cases hp : d.sec.pendingValid = true ∧ d.sec.pendingSlot = d.sec.bootSlot
  · simp only [Dev.slotFails, Dev.slotRefused, hsec, if_pos hp, h]
  · simp only [Dev.slotFails, Dev.slotRefused, hsec, if_neg hp, h]

theorem Dev.bootHalted_entries (d : Dev) : d.bootHalted.get kBootStage = bsHalted ∧ d.bootHalted.get kModuleState = 4 := by
  have hput : d.bootHalted.dict = (((d.record noWhere 0x703 5 [(4, 0), (8, d.bootStage)]).put kBootStage bsHalted).put
    kModuleState 4).dict := rfl
  rw [Dev.get_congr hput, Dev.get_congr hput, Dev.get_put_self, Dev.get_put_ne _ _ (by decide), Dev.get_put_self]
  exact ⟨rfl, rfl⟩

theorem Dev.chooseImage_mem : d.chooseImage.mem = d.mem := by
  unfold Dev.chooseImage
  dsimp only
  (repeat' split) <;> simp [Dev.securityEvent]

theorem Dev.slotFails_mem (code : Nat) : (d.slotFails code).mem = d.mem := by
  obtain ⟨hmem, -⟩ := d.slotRefused_writes code
  cases h : d.sec.bootFailed with
  | none =>
    rw [Dev.slotFails_other h]
    exact hmem
  | some c =>
    rw [Dev.slotFails_recovery h]
    exact (Dev.record_mem ..).trans hmem

theorem Dev.slotFails_first (h : d.sec.bootFailed = none) (code : Nat) :
    (d.slotFails code).get kBootStage = d.get kBootStage ∧ (d.slotFails code).sec.bootSlot = !d.sec.bootSlot := by
  obtain ⟨-, hstage⟩ := d.slotRefused_writes code
  rw [Dev.slotFails_other h]
  exact ⟨(Dev.get_congr rfl _).trans hstage, rfl⟩

theorem Dev.slotFails_second (h : d.sec.bootFailed ≠ none) (code : Nat) : (d.slotFails code).get kBootStage = bsRecovery := by
  obtain ⟨c, hc⟩ := Option.ne_none_iff_exists'.mp h
  rw [Dev.slotFails_recovery hc]
  exact Dev.bootStage_enterStage ..

section
variable {limit : Nat} (hl : d.stageLimit = some limit) (ht : d.env.stageAt + limit ≤ d.time)
include hl ht

theorem Dev.stageOverrun_late (h : 2 < d.get kBootStage) : d.stageOverrun = d.bootHalted := by
  have hstage : ¬ d.bootStage ≤ bsIdentity := Nat.not_le.mpr h
  simp only [Dev.stageOverrun, hl, if_neg (Nat.not_lt.mpr ht), if_neg hstage]
  rfl

theorem Dev.stageOverrun_early (h : d.get kBootStage ≤ 2) : d.stageOverrun =
    (let e := (if d.bootStage = bsRom then d.chooseImage else d).slotFails 0
     if e.bootStage = bsRecovery then e else e.enterStage bsImage) := by
  simp only [Dev.stageOverrun, hl, if_neg (Nat.not_lt.mpr ht), if_pos (show d.bootStage ≤ bsIdentity from h)]

theorem Dev.stageOverrun_first (h₁ : 1 ≤ d.get kBootStage) (h₂ : d.get kBootStage ≤ 2) (hb : d.sec.bootFailed = none) :
    d.stageOverrun = (d.slotFails 0).enterStage bsImage := by
  have hrom : ¬ d.bootStage = bsRom := Nat.ne_of_gt h₁
  obtain ⟨hstage, -⟩ := d.slotFails_first hb 0
  have hsame : ¬ (d.slotFails 0).bootStage = bsRecovery := by
    rw [Dev.bootStage, hstage, bsRecovery]
    omega
  simp only [Dev.stageOverrun_early hl ht h₂, if_neg hrom, if_neg hsame]

theorem Dev.stageOverrun_second (h₁ : 1 ≤ d.get kBootStage) (h₂ : d.get kBootStage ≤ 2) (hb : d.sec.bootFailed ≠ none) :
    d.stageOverrun = d.slotFails 0 := by
  have hrom : ¬ d.bootStage = bsRom := Nat.ne_of_gt h₁
  have hrecovery : (d.slotFails 0).bootStage = bsRecovery := d.slotFails_second hb 0
  simp only [Dev.stageOverrun_early hl ht h₂, if_neg hrom, if_pos hrecovery]

theorem Dev.stageOverrun_frame : d.stageOverrun.seqs = d.seqs ∧ d.stageOverrun.mem = d.mem := by
  by_cases h : 2 < d.get kBootStage
  · rw [Dev.stageOverrun_late hl ht h]
    exact ⟨Dev.record_seqs .., Dev.record_mem ..⟩
  · have hseqs : ∀ e : Dev, (e.slotFails 0).seqs = e.seqs := fun e => congrArg Prod.fst (e.slotFails_working 0)
    have hchosen : d.chooseImage.seqs = d.seqs ∧ d.chooseImage.mem = d.mem :=
      ⟨congrArg Prod.fst d.chooseImage_working, d.chooseImage_mem⟩
    rw [Dev.stageOverrun_early hl ht (Nat.not_lt.mp h)]
    dsimp only
    (repeat' split) <;> simp [Dev.enterStage, Dev.slotFails_mem, hseqs, hchosen]

end
end

end Sys2Proof.Machine

open Sys2Proof Sys2Proof.Machine

/-- Settles O27: each stage's work leaves BOOT_STAGE to its end, and a late stage ends by what remains to boot. -/
theorem bootStagesAndOverruns : Obligations.BootStagesAndOverruns := by
  unfold Obligations.BootStagesAndOverruns
  refine ⟨fun s hp hs => ?_, fun s limit hp hl ht => ?_⟩
  · obtain ⟨hseqs, hhaul, htallies⟩ : (s.dev.bootStageEnd s.fuses).seqs = s.dev.seqs ∧
        (s.dev.bootStageEnd s.fuses).haul = s.dev.haul ∧ (s.dev.bootStageEnd s.fuses).tallies = s.dev.tallies := by
      simpa [Dev.working] using s.dev.bootStageEnd_working s.fuses
    refine ⟨_, onFused_powered (fun f d => d.bootStageEnd f) hp, rfl, hseqs, hhaul, htallies, fun h => ?_, fun h himage => ?_,
      fun h => ?_, fun h => ?_, fun h hout => ?_, fun h hout => ?_, fun h hrails => ?_, fun h => ?_, fun h => ?_, fun h => ?_⟩ <;> dsimp only
    · rw [Dev.bootStageEnd_rom _ hs h, Dev.bootStage_enterStage, bsImage]
    · rw [Dev.bootStageEnd_image _ hs h, Dev.verifyImage_passed _ himage]
      exact ⟨Dev.bootStage_enterStage .., rfl⟩
    · rw [Dev.bootStageEnd_identity _ hs h]
      exact ⟨Dev.bootStage_enterStage .., rfl⟩
    · rw [Dev.bootStageEnd_weighbridge _ hs h, Dev.bootStage_envelopeNow, Dev.bootStage_enterStage, bsEnvelope]
    · rw [Dev.bootStageEnd_envelope _ hs h, if_pos hout, Dev.bootStage_envelopeNow, h]
    · rw [Dev.bootStageEnd_envelope _ hs h, hout]
      simp [bsRails]
    · rw [Dev.bootStageEnd_rails _ hs h, Dev.railsEnd_ready hrails, bsDies]
    · rw [Dev.bootStageEnd_dies _ hs h, Dev.bootStage_enterStage, bsMemory]
    · rw [Dev.bootStageEnd_memory _ hs h, Dev.bootStage_openPorts, Dev.bootStage_enterStage, bsPorts]
    · rw [Dev.bootStageEnd_ports _ hs h]
      exact Dev.bootDone_entries
  · obtain ⟨hseqs, hmem⟩ := Dev.stageOverrun_frame hl ht
    refine ⟨_, onDev_powered Dev.stageOverrun hp, rfl, hseqs, hmem, fun h => ?_, fun h₁ h₂ hb => ?_,
      fun h₁ h₂ hb => ?_⟩ <;> dsimp only
    · rw [Dev.stageOverrun_late hl ht h]
      obtain ⟨hstage, hstate⟩ := s.dev.bootHalted_entries
      exact ⟨hstage, hstate, rfl, Dev.record_sec ..⟩
    · obtain ⟨-, hslot⟩ := s.dev.slotFails_first hb 0
      rw [Dev.stageOverrun_first hl ht h₁ h₂ hb]
      exact ⟨Dev.bootStage_enterStage .., hslot⟩
    · rw [Dev.stageOverrun_second hl ht h₁ h₂ hb, Dev.slotFails_second hb, bsRecovery]
end

section
/-! SUPPORT. BAR2: the access that finds its lines free, and the read's answer. -/

namespace Sys2Proof.Machine

/-- Bytes an access moves. -/
def barBytes : Bar2Op → Nat
  | .read n => n.toNat
  | .write l => l.length

section
variable (d : Dev) (off n : Nat)

/-- Whether a read's answer is marked: a line it carries or holds is poisoned. -/
def Dev.hostBad : Bool :=
  decide ((d.carry .host (off / 64 * 64) (off + n - off / 64 * 64)).1 ≠ []) || (d.poisonIn off n).isSome

/-- A read answered: what the lines carried is taken, and a marked answer counts in AER. -/
def Dev.hostRead : Dev :=
  let e := (d.carry .host (off / 64 * 64) (off + n - off / 64 * 64)).2.send (.bar2 (d.readMem off n) (d.hostBad off n))
  { e with mgmt := { e.mgmt with aer := e.mgmt.aer + if d.hostBad off n = true then 1 else 0 } }

theorem Dev.hostBad_of_poison (h : (d.poisonIn off n).isSome = true) : d.hostBad off n = true := by
  rw [Dev.hostBad, h, Bool.or_true]

theorem Dev.hostBad_uncarried (h : d.mem.carried = []) : d.hostBad off n = (d.poisonIn off n).isSome := by
  rw [Dev.hostBad, Dev.carry_of_empty h]
  rfl

theorem Dev.hostAccess_lost (h : (d.lostIn off n).isSome = true) (op : Bar2Op) :
    d.hostAccess off n op = d.send .bar2Unsupported := by simp [Dev.hostAccess, h]

theorem Dev.hostAccess_write (l : List Byte) (h : d.lostIn off n = none) :
    d.hostAccess off n (.write l) = d.writeMem off l false := by
  simp [Dev.hostAccess, h]

theorem Dev.hostAccess_read (b : BitVec 13) (h : d.lostIn off n = none) : d.hostAccess off n (.read b) = d.hostRead off n := by
  have hbad : (decide ((d.carry .host (off / 64 * 64) (off + n - off / 64 * 64)).1 ≠ []) || (d.poisonIn off n).isSome) =
    d.hostBad off n := rfl
  unfold Dev.hostAccess Dev.hostRead
  rw [if_neg (by simp [h])]
  dsimp only
  rw [hbad]
  cases d.hostBad off n <;> rfl

end

section
variable {s : State} (off : Word32) (op : Bar2Op) (hlink : s.dev.mgmt.pcieLink = true) (hopen : s.dev.bar2Open = true)
include hlink hopen

theorem exec_bar2Access_open : exec (.bar2Access off op) s = .next { s with dev :=
    (let a := s.dev.get kBar2Base + off.toNat
     if s.dev.workingBytes < a + barBytes op then s.dev.send .bar2Unsupported
     else if s.dev.blocked a (barBytes op) then s.dev.hold a (barBytes op) (.host op)
     else s.dev.hostAccess a (barBytes op) op) } := by
  have hlive : s.dev.live = true := by
    simp only [Dev.bar2Open, Bool.and_eq_true] at hopen
    exact hopen.1.1
  rw [exec, execBar2Access, onDev_powered _ (Dev.powered_of_live hlive)]
  simp only [hlink, if_true, Dev.bar2Access, hopen, Bool.true_eq_false, false_or]
  cases op <;> rfl

end

/-! DOE (R511). -/

/-- The mailbox with the report and both certificates in it. -/
def Dev.reportFormed (d : Dev) (f : Fuses) (nonce : Nat) : Dev :=
  let doe := d.reportBytes f nonce ++ fitBytes blockBytes d.sec.aliasCert ++ fitBytes blockBytes d.sec.deviceCert
  { d with mgmt := { d.mgmt with doe := doe } }

theorem exec_doeAttest_served {s : State} (nonce : BitVec 256) (h : s.dev.doeServed = true) :
    exec (.doeAttest nonce) s = .next { s with dev := s.dev.reportFormed s.fuses nonce.toNat } := by
  have hp : s.dev.powered = true := by
    simp only [Dev.doeServed, Bool.and_eq_true] at h
    exact h.1.1.1
  rw [exec, execDoeAttest, onFused_powered _ hp]
  simp [h, Dev.reportFormed]

theorem exec_doeAbort_powered {s : State} (hp : s.dev.powered = true) :
    exec .doeAbort s = .next { s with dev := { s.dev with mgmt := { s.dev.mgmt with doe := [] } } } := by
  rw [exec, execDoeAbort, onDev_powered _ hp]

end Sys2Proof.Machine

open Sys2Proof Sys2Proof.Machine

/-- Settles O29: the bound, the held lines and the LOST channel are judged in that order, and what passes is the access itself. -/
theorem bar2ReachesMemory : Obligations.Bar2ReachesMemory := by
  unfold Obligations.Bar2ReachesMemory
  intro s off hlink hopen a
  have hrun := fun op => exec_bar2Access_open off op hlink hopen
  have hbeyond : ∀ op, s.dev.workingBytes < a + barBytes op →
      exec (.bar2Access off op) s = .next { s with dev := s.dev.send .bar2Unsupported } := fun op h => by rw [hrun, if_pos h]
  have hheld : ∀ op, a + barBytes op ≤ s.dev.workingBytes → s.dev.blocked a (barBytes op) = true →
      exec (.bar2Access off op) s = .next { s with dev := s.dev.hold a (barBytes op) (.host op) } := fun op h hb => by
    rw [hrun, if_neg (Nat.not_lt.mpr h), if_pos hb]
  have hfree : ∀ op, a + barBytes op ≤ s.dev.workingBytes → s.dev.blocked a (barBytes op) = false →
      exec (.bar2Access off op) s = .next { s with dev := s.dev.hostAccess a (barBytes op) op } := fun op h hb => by
    rw [hrun, if_neg (Nat.not_lt.mpr h), hb, if_neg Bool.false_ne_true]
  refine ⟨fun n hn hb hl => ⟨{ s with dev := s.dev.hostRead a n.toNat }, s.dev.hostBad a n.toNat, ?_, rfl,
      s.dev.hostBad_of_poison a _, s.dev.hostBad_uncarried a _, rfl, rfl, rfl, rfl, rfl, rfl, rfl, rfl⟩,
    fun l hn hb hl => ?_, fun op => ?_, fun op h => hbeyond op (by cases op <;> exact h)⟩
  · exact (hfree (.read n) hn hb).trans (by rw [barBytes, Dev.hostAccess_read _ _ _ n hl])
  · exact (hfree (.write l) hn hb).trans (by rw [barBytes, Dev.hostAccess_write _ _ _ l hl])
  · have hwithin : a + barBytes op ≤ s.dev.workingBytes → _ ∧ _ := fun hn => And.intro (hheld op hn) fun hb hl =>
      (hfree op hn hb).trans (by rw [Dev.hostAccess_lost _ _ _ hl op])
    cases op <;> exact hwithin

/-- Settles O30: the report is formed by the request's own step, and the abort empties the mailbox. -/
theorem doeReports : Obligations.DoeReports := by
  unfold Obligations.DoeReports
  exact fun s nonce => ⟨fun h => ⟨_, exec_doeAttest_served nonce h, rfl, rfl, rfl, rfl, rfl⟩, exec_doeAbort_powered⟩
end

section
/-! SUPPORT. Rails and measurements: bytes of a rail word, what the darkening leaves of the entries, and a trip. -/

namespace Sys2Proof.Machine

/-! A field of a word after a write of one. -/

section
variable (w v : Nat) {hi lo : Nat}

theorem setFld_split (h : lo ≤ hi + 1) :
    setFld w hi lo v = 2 ^ lo * (2 ^ (hi + 1 - lo) * (w / 2 ^ (hi + 1)) + v % 2 ^ (hi + 1 - lo)) + w % 2 ^ lo := by
  have hpow : 2 ^ (hi + 1) = 2 ^ lo * 2 ^ (hi + 1 - lo) := by rw [← Nat.pow_add]; congr 1; omega
  have hlow := Nat.div_add_mod w (2 ^ lo)
  have hhigh := Nat.div_add_mod (w / 2 ^ lo) (2 ^ (hi + 1 - lo))
  rw [Nat.div_div_eq_div_mul, ← hpow, ← fld_eq] at hhigh
  have hw : w = 2 ^ lo * (2 ^ (hi + 1 - lo) * (w / 2 ^ (hi + 1)) + fld w hi lo) + w % 2 ^ lo := by rw [hhigh, hlow]
  have hsplit := Nat.mul_add (2 ^ lo) (2 ^ (hi + 1 - lo) * (w / 2 ^ (hi + 1)))
  rw [setFld, hsplit]
  rw [hsplit] at hw
  rw [Nat.mul_comm (fld w hi lo), Nat.mul_comm (v % 2 ^ (hi + 1 - lo))]
  omega

theorem testBit_setFld (h : lo ≤ hi + 1) (i : Nat) : (setFld w hi lo v).testBit i =
    if i < lo then w.testBit i else if i ≤ hi then v.testBit (i - lo) else w.testBit i := by
  have hv := Nat.mod_lt v (Nat.two_pow_pos (hi + 1 - lo))
  rw [setFld_split w v h, Nat.testBit_two_pow_mul_add _ (Nat.mod_lt _ (Nat.two_pow_pos lo)), Nat.testBit_two_pow_mul_add _ hv]
  by_cases h₁ : i < lo
  · simp [h₁]
  · by_cases h₂ : i ≤ hi
    · simp [h₁, h₂, show i - lo < hi + 1 - lo by omega]
    · have hup : hi + 1 + (i - lo - (hi + 1 - lo)) = i := by omega
      simp [h₁, h₂, show ¬ i - lo < hi + 1 - lo by omega, Nat.testBit_div_two_pow, Nat.add_comm, hup]

theorem fld_setFld_self (h : lo ≤ hi + 1) : fld (setFld w hi lo v) hi lo = v % 2 ^ (hi + 1 - lo) := by
  refine Nat.eq_of_testBit_eq fun i => ?_
  simp only [fld, Nat.testBit_mod_two_pow, Nat.testBit_shiftRight, testBit_setFld w v h]
  by_cases hi' : i < hi + 1 - lo
  · simp [hi', show lo + i ≤ hi by omega]
  · simp [hi']

theorem fld_setFld_apart (h : lo ≤ hi + 1) {hi' lo' : Nat} (hd : hi < lo' ∨ hi' < lo) :
    fld (setFld w hi lo v) hi' lo' = fld w hi' lo' := by
  refine fld_congr fun i h₁ h₂ => ?_
  rw [testBit_setFld w v h]
  split
  · rfl
  · rw [if_neg (by omega)]

end

/-! The rails switched off (R539). -/

section
variable (d : Dev)

theorem Dev.railState_congr {d e : Dev} (h : e.get kRailState = d.get kRailState) (k : Nat) : e.railState k = d.railState k := by
  rw [Dev.railState, h, Dev.railState]

theorem Dev.railState_setRail_self (k v : Nat) : (d.setRail k v).railState k = v % 256 := by
  have hbyte : 8 * k + 7 + 1 - 8 * k = 8 := by omega
  rw [Dev.railState, Dev.setRail, Dev.get_put_self, fld_setFld_self _ _ (by omega), hbyte, show 256 = 2 ^ 8 from rfl]

theorem Dev.railState_setRail_ne (v : Nat) {j k : Nat} (h : j ≠ k) : (d.setRail k v).railState j = d.railState j := by
  rw [Dev.railState, Dev.setRail, Dev.get_put_self, fld_setFld_apart _ _ (by omega) (by omega), Dev.railState]

/-- A rail from k = 4 switched off. -/
def Dev.railCut (d : Dev) (k : Nat) : Dev := if 4 ≤ k then d.setRail k 0 else d

/-- Every rail from k = 4 switched off. -/
def Dev.railsCut (d : Dev) : Dev := (List.range 33).foldl Dev.railCut d

theorem Dev.railsCut_env : d.railsCut.env = d.env :=
  foldl_field Dev.env Dev.railCut (fun e k => by unfold Dev.railCut; split <;> rfl) _ d

theorem Dev.railState_railCut_self {k : Nat} (h : 4 ≤ k) : (d.railCut k).railState k = 0 := by
  rw [Dev.railCut, if_pos h, Dev.railState_setRail_self]

theorem Dev.railState_railCut_ne {j k : Nat} (h : k ≠ j) : (d.railCut j).railState k = d.railState k := by
  unfold Dev.railCut
  split
  · exact d.railState_setRail_ne _ h
  · rfl

theorem Dev.railState_cutAll (ks : List Nat) {k : Nat} (h4 : 4 ≤ k) (h : d.railState k = 0 ∨ k ∈ ks) :
    (ks.foldl Dev.railCut d).railState k = 0 := by
  induction ks generalizing d with
  | nil => simpa using h
  | cons j ks ih =>
    refine ih _ ?_
    by_cases hjk : k = j
    · exact Or.inl (hjk ▸ d.railState_railCut_self h4)
    · exact (h.imp_left (d.railState_railCut_ne hjk).trans).imp_right fun hk => (List.mem_cons.mp hk).resolve_left hjk

theorem Dev.railsCut_railState (k : Fin 33) (h : 4 ≤ k.val) : d.railsCut.railState k = 0 :=
  d.railState_cutAll _ h (Or.inr (List.mem_range.mpr k.isLt))

end

/-! The dies dark (R540): ports fall, and no entry below theirs changes. -/

/-- Every port down. -/
def Dev.portsDark (d : Dev) : Dev :=
  (List.range 16).foldl (fun d n => if d.portState n = poDown then d else d.dropPort n reNoLight) d

section
variable (d : Dev) {k : Nat} (hk : k / 256 < 0x5010)
include hk

theorem Dev.get_setPortState_below (n v r : Nat) : (d.setPortState n v r).get k = d.get k := by
  have hstate : k ≠ kPortState n := by rintro rfl; rw [kPortState, key_div _ (by decide)] at hk; omega
  have hreason : k ≠ kPortReason n := by rintro rfl; rw [kPortReason, key_div _ (by decide)] at hk; omega
  rw [Dev.setPortState, Dev.get_put_ne _ _ hreason, Dev.get_putRaise_ne _ _ _ hstate]

theorem Dev.get_enterPort_below (n v r : Nat) : (d.enterPort n v r).get k = d.get k := by
  have hrest : ∀ e : Dev, e.dict = (d.setPortState n v r).dict → e.get k = d.get k := fun e he =>
    (Dev.get_congr he k).trans (d.get_setPortState_below hk n v r)
  unfold Dev.enterPort
  dsimp only
  (repeat' split) <;> exact hrest _ rfl

theorem Dev.get_dropPort_below (n r : Nat) : (d.dropPort n r).get k = d.get k := by
  have hoff : OffRecord k := Or.inl (by omega)
  have hreports : ∀ e : Dev, e.Reports e := fun e => ⟨rfl, rfl, rfl, rfl, fun _ _ => rfl⟩
  have hrec := fun (e : Dev) => (hreports e).record (atSite n) 0x404 0 [(4, r)]
  rw [Dev.dropPort, Dev.get_enterPort_below _ hk]
  split
  · rw [(hrec _).gets k hoff, Dev.get_setPort]
  · rw [((hrec _).ckptWarn _ _ _).gets k hoff, Dev.get_setPort]

theorem Dev.get_portsDark_below : d.portsDark.get k = d.get k := by
  refine foldl_field (fun e => e.get k) _ (fun e n => ?_) _ d
  split
  · rfl
  · exact e.get_dropPort_below hk n _

theorem Dev.get_darken_below : d.darken.get k = d.get k := by
  have hdict : d.darken.dict =
      (if d.fabricIsShort = false ∧ d.portsDark.fabricIsShort = true then d.portsDark.shortRecord else d.portsDark).dict := rfl
  rw [Dev.get_congr hdict, ← d.get_portsDark_below hk]
  split
  · exact Dev.get_record _ _ _ _ _ (by omega) (by omega) (by omega)
  · rfl

end

/-! The shutdown (R547, R548). -/

/-- The surroundings replaced. -/
def Dev.withEnv (d : Dev) (a : Env) : Dev := { d with env := a }

theorem Dev.get_withEnv (d : Dev) (a : Env) (k : Nat) : (d.withEnv a).get k = d.get k := rfl

theorem Dev.env_withEnv (d : Dev) (a : Env) : (d.withEnv a).env = a := rfl

theorem Dev.railsDown_eq (d : Dev) : d.railsDown = d.railsCut.darken.withEnv { d.railsCut.env with railsOff := true } := rfl

theorem Dev.get_railsDown_below (d : Dev) {k : Nat} (hk : k / 256 < 0x5010) : d.railsDown.get k = d.railsCut.get k := by
  rw [Dev.railsDown_eq, Dev.get_withEnv, Dev.get_darken_below _ hk]

theorem Dev.get_shutEnd_rails (d : Dev) (k : Nat) : d.shutEnd.railState k = d.railsCut.railState k := by
  refine Dev.railState_congr ?_ k
  have hdict : d.shutEnd.dict = (((d.railsDown.put kModuleState 4).put kEnvelopeState enShut).put kLastShutdown
    (pack [(16, d.railsDown.env.shutPoint), (16, 0), (32, d.railsDown.env.shutSeq)])).dict := rfl
  rw [Dev.get_congr hdict, Dev.get_put_ne _ _ (by decide), Dev.get_put_ne _ _ (by decide), Dev.get_put_ne _ _ (by decide),
    d.get_railsDown_below (by decide)]

theorem Dev.shutEnd_entries (d : Dev) : d.shutEnd.get kModuleState = 4 ∧ d.shutEnd.get kEnvelopeState = enShut := by
  have hdict : d.shutEnd.dict = (((d.railsDown.put kModuleState 4).put kEnvelopeState enShut).put kLastShutdown
    (pack [(16, d.railsDown.env.shutPoint), (16, 0), (32, d.railsDown.env.shutSeq)])).dict := rfl
  constructor <;> rw [Dev.get_congr hdict, Dev.get_put_ne _ _ (by decide)]
  · rw [Dev.get_put_ne _ _ (by decide), Dev.get_put_self]
  · rw [Dev.get_put_self]

theorem Dev.shutEnd_env (d : Dev) : d.shutEnd.env = { d.env with railsOff := true, fatalLow := true } := by
  have henv : d.shutEnd.env = { d.railsDown.env with fatalLow := true } := rfl
  rw [henv, Dev.railsDown_eq, Dev.env_withEnv, Dev.railsCut_env]

theorem Dev.shutEnd_wiped (d : Dev) : d.shutEnd.mem.hbm = [] ∧ d.shutEnd.seqs = Seqs.reset := ⟨rfl, rfl⟩

theorem Dev.shutBegin_point (d : Dev) (pt value limit : Nat) (h : d.env.shutAt = none) :
    (d.shutBegin pt value limit).env.shutPoint = pt := by
  simp [Dev.shutBegin, h]

theorem Dev.get_shutBegin_bootStage (d : Dev) (pt value limit : Nat) :
    (d.shutBegin pt value limit).get kBootStage = d.get kBootStage := by
  have hrec := d.get_record (Dev.pointWhere pt) 0x802 5 (envelopeBody pt value limit) (k := kBootStage) (by decide)
    (by decide) (by decide)
  have hreset : ∀ e : Dev, (e.setResetStatus 0).get kBootStage = e.get kBootStage := fun e =>
    e.get_putRaise_ne _ _ (by decide)
  have hne : kBootStage ≠ kEnvelopeState := by decide
  have hput : ∀ (e : Dev) env, Dev.get { e.put kEnvelopeState enShutting with env := env } kBootStage = e.get kBootStage :=
    fun e env => (Dev.get_congr (d := e.put kEnvelopeState enShutting) rfl _).trans (e.get_put_ne _ hne)
  unfold Dev.shutBegin
  dsimp only
  split
  · exact hrec
  · rw [hput]
    split
    · rw [hreset]
      exact (Dev.get_congr rfl _).trans hrec
    · exact hrec

theorem Dev.trip_shuts {d : Dev} {pt v : Nat} {x : Limit} (hx : (d.pointLimits pt).find? (fun y => y.broken y.trip v) = some x)
    (hon : ∃ k : Fin 33, 4 ≤ k.val ∧ d.railState k ≠ 0) (hstage : d.get kBootStage = 9) :
    d.trip pt v false = ((d.shutBegin pt v x.trip).bump kEnvelopeTrips 1).shutEnd := by
  obtain ⟨k, h4, hk⟩ := hon
  have hall : ¬ (List.range 33).all (fun k => decide (k < 4) || decide (d.railState k = 0)) = true := fun h => by
    have hk' := List.all_eq_true.mp h k (List.mem_range.mpr k.isLt)
    simp [hk, Nat.not_lt.mpr h4] at hk'
  have hdone : ¬ ((d.shutBegin pt v x.trip).bump kEnvelopeTrips 1).get kBootStage < 9 := by
    rw [Dev.get_bump_ne _ _ (by decide), Dev.get_shutBegin_bootStage, hstage]
    omega
  simp only [Dev.trip, hx, Bool.false_eq_true, false_and, if_false, if_neg hall, if_neg hdone]

/-! Measurements (R543). -/

theorem Dev.evaluatePoint_judged {d : Dev} {pt : Nat} (v : Nat) (h3 : 3 ≤ d.get kBootStage) (h9 : d.get kBootStage ≤ 9)
    (hpt : isPoint pt = true) (hs : d.env.shutAt = none) (hev : d.notEvaluated pt = false) (hr : railOf pt = none) :
    d.evaluatePoint pt v false =
      (((d.measured pt (d.sampleOf pt v)).lifetime pt (d.sampleOf pt v)).judge pt (d.sampleOf pt v)).envelopeNow := by
  have hrun : ¬ (d.get kBootStage < 3 ∨ d.get kBootStage = 14 ∨ isPoint pt = false) := by rw [hpt]; simp; omega
  have hshut : d.shutCheck = d := by simp [Dev.shutCheck, hs]
  simp only [Dev.evaluatePoint, if_neg hrun, hshut, hev, hr, Bool.false_eq_true, false_and, if_false]

theorem Dev.point_measured (d : Dev) (pt v : Nat) :
    ((d.measured pt v).point pt).value = v ∧ ((d.measured pt v).point pt).valid = true := by
  simp [Dev.measured, Dev.point, Dev.setPoint]

theorem Dev.phaseFault_spare {d : Dev} {k : Nat} (h0 : 0 < d.phases k) (hon : d.railState k ≠ 0) (hmin : phasesMin k < d.phases k) :
    d.phaseFault k = d.put kRailPhases (setFld (d.get kRailPhases) (8 * k + 7) (8 * k) (d.phases k - 1)) := by
  have hrun : ¬ (d.phases k = 0 ∨ d.railState k = 0) := not_or.mpr ⟨Nat.ne_of_gt h0, hon⟩
  have hleft : ¬ d.phases k - 1 < phasesMin k := by omega
  simp only [Dev.phaseFault, if_neg hrun, if_neg hleft]

end Sys2Proof.Machine

open Sys2Proof Sys2Proof.Machine

/-- Settles O31: a trip's rails stay off through the darkening, which writes only port entries, records and warnings. -/
theorem surroundingsAct : Obligations.SurroundingsAct := by
  unfold Obligations.SurroundingsAct
  intro s hp
  refine ⟨fun pt v h3 h9 hpt hs hev hr => ?_, fun pt v x hx hon hstage hs => ?_, fun k h0 hon hmin => ?_⟩
  · obtain ⟨hvalue, hvalid⟩ := s.dev.point_measured pt.toNat (s.dev.sampleOf pt.toNat v.toNat)
    refine ⟨?_, hvalue, hvalid, fun hne => if_neg fun h => hne (BitVec.eq_of_toNat_eq h)⟩
    rw [exec, execMeasurementEvaluation, onDev_powered _ hp, Dev.evaluatePoint_judged _ h3 h9 hpt hs hev hr]
  · let d := (s.dev.shutBegin pt.toNat v.toNat x.trip).bump kEnvelopeTrips 1
    have htrip : exec (.trip pt v false) s = .next { s with dev := d.shutEnd } := by
      rw [exec, execTrip, onDev_powered _ hp, Dev.trip_shuts hx hon hstage]
    have hoff : d.shutEnd.live = false := by simp [Dev.live, Dev.shutEnd_env]
    obtain ⟨hmodule, henvelope⟩ := d.shutEnd_entries
    obtain ⟨hhbm, hseqs⟩ := d.shutEnd_wiped
    refine ⟨_, htrip, rfl, hoff, fun k hk => ?_, hmodule, henvelope, ?_, ?_, hhbm, hseqs⟩
    · exact (d.get_shutEnd_rails k).trans (d.railsCut_railState k hk)
    · rw [Dev.shutEnd_env]
    · rw [Dev.shutEnd_env]
      exact s.dev.shutBegin_point _ _ _ hs
  · rw [exec, execPhaseFault, onDev_powered _ hp, Dev.phaseFault_spare h0 hon hmin]
end
